-- ==== Sys2Proof/Word.lean ====
section
/-!
DEFINITION. Word types of the part: 32-bit registers, 64-bit masks, 96-bit instruction words, and
the finite maps in which registers, memories and tiles are held.
-/
namespace Sys2Proof

/-- One byte of memory. -/
abbrev Byte := BitVec 8
/-- One lane of a main-file register (02_warp_state.md R18). -/
abbrev Word := BitVec 32
/-- A 64-bit operand (02_warp_state.md R19). -/
abbrev DWord := BitVec 64
/-- A lane mask: bit L stands for lane L. -/
abbrev Mask := BitVec 64
/-- An instruction word (03_encoding.md R45). -/
abbrev IWord := BitVec 96

/-- A finite map from addresses to `n`-bit values, zero where nothing is listed. Its canonical form
(keys strictly rising, no zero value listed) is `FMap.wf` of Machine/Store.lean. -/
abbrev FMap (n : Nat) := List (Nat × BitVec n)

/-- A table of records by number. -/
abbrev Tbl (α : Type) := List (Nat × α)

/-- A virtual address has 57 bits (16_die.md R294). -/
abbrev VAddr := BitVec 64

end Sys2Proof
end

