-- ==== Sys2Proof/Machine/Store.lean ====
section
/-!
DEFINITION. The finite maps that hold memories and registers, and the tables of records: reading,
writing and the canonical form. Bit-field and byte-order helpers stand here too.
-/
namespace Sys2Proof

/-- The value at `k`; zero where nothing is listed. -/
def FMap.get {n : Nat} : FMap n → Nat → BitVec n
  | [], _ => 0#n
  | (a, v) :: r, k => if k = a then v else FMap.get r k

/-- Drops every entry whose key satisfies `p`. -/
def FMap.drop {n : Nat} (p : Nat → Bool) (m : FMap n) : FMap n := m.filter (fun e => !p e.1)

/-- Puts an entry in its place by key, instead of the one there. -/
def FMap.ins {n : Nat} : FMap n → Nat → BitVec n → FMap n
  | [], k, v => [(k, v)]
  | (a, x) :: r, k, v => if k < a then (k, v) :: (a, x) :: r else if k = a then (a, v) :: r else (a, x) :: FMap.ins r k v

/-- Writes `v` at `k`, keeping the canonical form: a zero value removes the entry. -/
def FMap.set {n : Nat} (m : FMap n) (k : Nat) (v : BitVec n) : FMap n :=
  if v = 0#n then m.drop (fun j => j = k) else m.ins k v

/-- The canonical form, from a lower bound on the keys. -/
def FMap.wfFrom {n : Nat} : Nat → FMap n → Bool
  | _, [] => true
  | lo, (a, v) :: r => decide (lo ≤ a) && (v != 0#n) && FMap.wfFrom (a + 1) r

/-- The canonical form: keys strictly rising and no zero value listed. -/
def FMap.wf {n : Nat} (m : FMap n) : Bool := FMap.wfFrom 0 m

/-- Writes consecutive values from `k` on. -/
def FMap.setList {n : Nat} (m : FMap n) (k : Nat) : List (BitVec n) → FMap n
  | [] => m
  | v :: vs => FMap.setList (FMap.set m k v) (k + 1) vs

/-- Reads `c` consecutive values from `k` on. -/
def FMap.getList {n : Nat} (m : FMap n) (k : Nat) : Nat → List (BitVec n)
  | 0 => []
  | c + 1 => FMap.get m k :: FMap.getList m (k + 1) c

/-- The record numbered `k`. -/
def Tbl.find {α : Type} : Tbl α → Nat → Option α
  | [], _ => none
  | (a, v) :: r, k => if k = a then some v else Tbl.find r k

/-- Puts the record `v` at number `k`, in place of the one there. -/
def Tbl.put {α : Type} : Tbl α → Nat → α → Tbl α
  | [], k, v => [(k, v)]
  | (a, x) :: r, k, v =>
    if k < a then (k, v) :: (a, x) :: r
    else if k = a then (a, v) :: r
    else (a, x) :: Tbl.put r k v

/-- Removes the record numbered `k`. -/
def Tbl.del {α : Type} (t : Tbl α) (k : Nat) : Tbl α := t.filter (fun e => e.1 != k)

/-- Changes the record numbered `k`, if there is one. -/
def Tbl.upd {α : Type} (t : Tbl α) (k : Nat) (f : α → α) : Tbl α :=
  match Tbl.find t k with
  | some v => Tbl.put t k (f v)
  | none => t

/-- Changes every record. -/
def Tbl.mapVal {α : Type} (f : α → α) (t : Tbl α) : Tbl α := t.map (fun e => (e.1, f e.2))

/-- Bits [lo + n − 1 : lo] of `x`, as a number. -/
def bitsAt {w : Nat} (x : BitVec w) (lo n : Nat) : Nat := (x.toNat >>> lo) % 2 ^ n

/-- The little-endian bytes of `x` (00_scope.md R5). -/
def leBytes (x : Nat) : Nat → List Byte
  | 0 => []
  | n + 1 => BitVec.ofNat 8 (x % 256) :: leBytes (x / 256) n

/-- The number that little-endian bytes stand for (00_scope.md R5). -/
def leNat : List Byte → Nat
  | [] => 0
  | b :: bs => b.toNat + 256 * leNat bs

/-- The two's-complement value of the low `n` bits of `x`. -/
def sx (n x : Nat) : Int :=
  let y := x % 2 ^ n
  if y < 2 ^ (n - 1) then (y : Int) else (y : Int) - (2 ^ n : Nat)

/-- An integer modulo 2^n, as a bit vector. -/
def wrapInt (n : Nat) (x : Int) : BitVec n := BitVec.ofInt n x

/-- The nearest of lo and hi to x (05_isa_arithmetic.md, notation). -/
def clampInt (x lo hi : Int) : Int := if x < lo then lo else if hi < x then hi else x

/-- ceil(a / b). -/
def ceilDiv (a b : Nat) : Nat := (a + b - 1) / b

/-- The number of bits set among bits 0 to `n − 1` of `x`. -/
def popCount {w : Nat} (x : BitVec w) : Nat → Nat
  | 0 => 0
  | n + 1 => popCount x n + (if x.getLsbD n then 1 else 0)

/-- The set bits of a mask below `n`, rising. -/
def lanesOf {w : Nat} (m : BitVec w) (n : Nat) : List Nat := (List.range n).filter (fun l => m.getLsbD l)

/-- The mask whose set bits are those `p` holds for, below `n`. -/
def maskOf (n : Nat) (p : Nat → Bool) : Mask :=
  (List.range n).foldl (fun m l => if p l then m ||| (1#64 <<< l) else m) 0#64

/-- The lowest set bit of a mask. -/
def lowestBit (m : Mask) : Option Nat := (lanesOf m 64).head?

/-- The part's data-structure lookups that are asked of a list by a test. -/
def indexWhere {α : Type} (p : α → Bool) : List α → Nat → Option Nat
  | [], _ => none
  | a :: as, i => if p a then some i else indexWhere p as (i + 1)

/-- Changes the element at position `i` of a list. -/
def modAt {α : Type} (l : List α) (i : Nat) (f : α → α) : List α :=
  match l[i]? with
  | some a => l.set i (f a)
  | none => l

end Sys2Proof
end

