-- ==== Sys2Proof/Config.lean ====
section
/-!
DEFINITION. What one implementation fixes, and the free values: constants without a body, so that
nothing can be proved of the value. Each is named in the assumption log.
-/
namespace Sys2Proof.Config

/-- CAPS.PREV, "per stepping" (00_scope.md R2). DESIGN CHOICE, log entry 2. -/
opaque prev : BitVec 8
/-- DPWR.ILIM of a die, "per stepping, set by stage 1" (23_physical.md R398). DESIGN CHOICE, log entry 2. -/
opaque ilim (die : Nat) : BitVec 12
/-- The memory key MK(p) that the n-th PART_SET assigns (17_package.md R304, R315). DESIGN CHOICE, log entry 2. -/
opaque memKey (part n : Nat) : Word
/-- The system-management key SMK, set at bring-up (17_package.md R304). DESIGN CHOICE, log entry 2. -/
opaque sysKey : Word
/-- A fresh free word for a value that the spec leaves open. DESIGN CHOICE, log entry 6. -/
opaque freeWord (n : Nat) : DWord
/-- What a read of an invalid latch returns (02_warp_state.md R33), at a cycle, block, warp, lane and
latch. DESIGN CHOICE, log entry 6. -/
opaque freeLatch (cycle blk warp lane latch : Nat) : DWord
/-- Whether a Falcon-1024 signature verifies over a digest under the fused key
(17_package.md R335, 23_physical.md R395). DESIGN CHOICE, log entry 9. -/
opaque falconVerifies (digest signature : List Byte) : Bool
/-- The attestation key's Falcon-1024 signature over a digest (17_package.md R336). DESIGN CHOICE, log entry 9. -/
opaque falconSign (digest : List Byte) : List Byte
/-- How many bytes of a saved image's body one step of a save writes (17_package.md R321, R322): a block's state, and so less than
2^28. DESIGN CHOICE, log entry 10. -/
opaque imageSpan (save step : Nat) : Fin (2 ^ 28)
/-- Those bytes: "a layout fixed per PREV" (17_package.md R321), given the number of the save, the step and the place. DESIGN
CHOICE, log entry 10. -/
opaque imageByte (save step k : Nat) : Byte
/-- The bytes of a saved image's body that one step of a save writes (17_package.md R322). -/
def imagePart (save step : Nat) : List Byte := (List.range (imageSpan save step).val).map (imageByte save step)
/-- The largest image size of a partition's half (17_package.md R315, R321). DESIGN CHOICE, log entry 10. -/
opaque imageSize (part n : Nat) : DWord
/-- The bytes of the partition set-up records that ATTEST digests, "a SHAKE256-256 digest of the partition set-up
records" (17_package.md R336): no layout is stated. DESIGN CHOICE, log entry 66. -/
opaque setupBytes (records : List Word) : List Byte
/-- Which dirty line a full home slice writes back for a new one, at each draw: no replacement rule is stated (01_device.md R8,
16_die.md R289). DESIGN CHOICE, log entry 77. -/
opaque l2Victim (draw : Nat) : Nat
/-- The set of its home slice in which a line stands: no mapping is stated (16_die.md R302). DESIGN CHOICE, log entry 77. -/
opaque l2Set (line : Nat) : Nat
/-- Which of the links that are up carries a gossip message, at each draw: no routing is stated (21_fabric.md R360, R373). DESIGN
CHOICE, log entry 79. -/
opaque gossipLink (draw : Nat) : Nat
/-- The cycle since which the rest of the domain has no route to a package, as of a cycle; none where it has one. The switches and the
other packages' links are outside this package (21_fabric.md R360, R363). DESIGN CHOICE, log entry 79. -/
opaque routeLost (pkg t : Nat) : Option Nat
/-- The part of a flash bank's image that holds a boot stage: no layout is stated (23_physical.md R395). DESIGN CHOICE, log entry
80. -/
opaque stageImage (bank : List Byte) (stage : Nat) : List Byte
/-- The part that holds a boot stage's Falcon-1024 signature. DESIGN CHOICE, log entry 80. -/
opaque stageSignature (bank : List Byte) (stage : Nat) : List Byte
/-- The system controller's own code in stage 2 for the cores, which the scanner passes (03_encoding.md R60). DESIGN CHOICE, log
entry 80. -/
opaque sysCode (bank : List Byte) : List Byte

end Sys2Proof.Config
end

