-- ==== Sys2Proof/Syntax.lean ====
section
/-!
DEFINITION. The operations and events of the part: one constructor per row of the opcode table.
An instruction carries the fields of its word with the operands named by level; an event carries
what names its place in the machine and what the outside world supplies with it.
-/
namespace Sys2Proof

/-- An operand (03_encoding.md R50). -/
inductive Operand where
  | v (n : BitVec 8)
  | b (k : BitVec 4)
  | h (i : BitVec 1)
  | s (n : BitVec 6)
  | special (n : BitVec 8)
  | const (c : BitVec 6)
  deriving DecidableEq, Repr

/-- The guard: GN negates pGP (03_encoding.md R47). -/
structure Guard where
  neg : Bool
  p   : BitVec 3
  deriving DecidableEq, Repr

/-- The hint field (03_encoding.md R54). -/
structure Hint where
  y     : Bool
  stall : BitVec 3
  ka    : Bool
  kb    : Bool
  kc    : Bool
  wt    : Bool
  deriving DecidableEq, Repr

/-- A word of X kind C (03_encoding.md R48): FN, the operands and MOD. -/
structure CForm where
  g    : Guard
  hint : Hint
  fn   : BitVec 4
  d    : Operand
  a    : Operand
  b    : Operand
  c    : Operand
  mod  : BitVec 20
  deriving DecidableEq, Repr

/-- A word of X kind I: a 32-bit immediate. -/
structure IForm where
  g    : Guard
  hint : Hint
  fn   : BitVec 4
  d    : Operand
  a    : Operand
  b    : Operand
  imm  : Word
  deriving DecidableEq, Repr

/-- A word of X kind T: a 36-bit target offset and X. -/
structure TForm where
  g      : Guard
  hint   : Hint
  target : BitVec 36
  x      : Word
  deriving DecidableEq, Repr

/-- A word of X kind Z: nothing but the guard and the hint. -/
structure ZForm where
  g    : Guard
  hint : Hint
  deriving DecidableEq, Repr

/-- A clause header (03_encoding.md R56). -/
structure Header where
  len  : BitVec 4
  wait : BitVec 12
  e1   : Bool
  f1   : BitVec 4
  e2   : Bool
  f2   : BitVec 4
  yp   : Bool
  rh   : Bool
  deriving DecidableEq, Repr

/-- A pack: the block's number in the machine and the pack's index in it (12_core_scheduling.md R256). -/
structure PackId where
  blk : Nat
  k   : Nat
  deriving DecidableEq, Repr

/-- What an access asks of its page (16_die.md R294, R297). -/
inductive Access where
  | read
  | write
  | fetch
  deriving DecidableEq, Repr

/-- Where an uncorrectable error stands (16_die.md R300). `dram`, `l2data` and `walk` name a 32-byte
granule by its number in the package's DRAM. -/
inductive ErrLoc where
  | store  (core : Nat)
  | acc    (core : Nat)
  | bstage (core : Nat)
  | l2data (granule : Nat)
  | dram   (granule : Nat)
  | walk   (granule : Nat)
  deriving DecidableEq, Repr

/-- An arriving bulk transfer (21_fabric.md R361, R363): the sender's context ID and FTID, whether it
writes here, the address, the bytes it writes and the number it reads. -/
structure BulkMsg where
  ctx   : Nat
  ftid  : Nat
  src   : Nat
  write : Bool
  addr  : DWord
  data  : List Byte
  count : Nat
  deriving DecidableEq, Repr

/-- What a far package answers to a bulk transfer (21_fabric.md R363): the cause that stopped it there, 0 when none;
the bytes that landed there; and the bytes that it returned. -/
structure FarReply where
  cause  : Nat
  landed : Nat
  data   : List Byte
  deriving DecidableEq, Repr

/-- A gossip message (21_fabric.md R373): the sender's package, context and FTID, the region key and
slot, the receiving region's shape as the sender has it, the chunk and the halves. -/
structure GossipMsg where
  src  : Nat
  ctx  : Nat
  ftid : Nat
  rkey : Word
  slot : Nat
  nch  : Word
  csz  : Nat
  k    : BitVec 8
  seq  : Nat
  c    : Nat
  h    : List DWord
  hw   : DWord
  deriving DecidableEq, Repr

/-- What another member of a collective instance brings (21_fabric.md R361, R366): its context ID and FTID, the instance of
its tag that it joins, its descriptor's fields that must agree, its rank and its source elements. -/
structure CollMember where
  ctx   : Nat
  ftid  : Nat
  inst  : Nat
  rank  : Nat
  fn    : BitVec 4
  reg   : Bool
  desc  : List Word
  membs : List Nat
  src   : List DWord
  deriving DecidableEq, Repr

/-- The operations and events of spec/opcode_table.json, one constructor a row. -/
inductive Instr where
  /-- NOP (R99): Occupies its issue cycle and writes nothing. -/
  | nop (w : ZForm)
  /-- IADD (R100): Adds two 32-bit integers, with a wrapping, saturating or carry form selected by FN. -/
  | iadd (w : CForm)
  /-- ISUB (R100): Subtracts two 32-bit integers, with a wrapping, saturating or borrow form selected by FN. -/
  | isub (w : CForm)
  /-- IMUL (R100): Multiplies two 32-bit integers and writes the low or high word. -/
  | imul (w : CForm)
  /-- IMAD (R100): Multiplies two integers, adds a third and wraps modulo 2^32. -/
  | imad (w : CForm)
  /-- IMADW (R100): Forms a widening multiply-add into a 64-bit destination. -/
  | imadw (w : CForm)
  /-- IDIV (R102): Divides or takes a remainder, variable-latency, with defined results for a zero divisor. -/
  | idiv (w : CForm)
  /-- IMNMX (R100): Writes the signed or unsigned minimum or maximum. -/
  | imnmx (w : CForm)
  /-- IABS (R100): Writes the absolute value or the negation, optionally saturating. -/
  | iabs (w : CForm)
  /-- LOP (R100): Applies the bitwise logic operation that FN selects. -/
  | lop (w : CForm)
  /-- LOP3 (R100): Applies a three-input bitwise truth table held in MOD. -/
  | lop3 (w : CForm)
  /-- SHL (R100): Shifts left, giving zero for counts of 32 or more. -/
  | shl (w : CForm)
  /-- SHR (R100): Shifts right, logically or arithmetically. -/
  | shr (w : CForm)
  /-- ROT (R100): Rotates left or right by the count modulo 32. -/
  | rot (w : CForm)
  /-- SHF (R100): Funnel-shifts a 64-bit pair left or right. -/
  | shf (w : CForm)
  /-- BFX (R101): Extracts a bit field with zero or sign extension. -/
  | bfx (w : CForm)
  /-- BFI (R101): Inserts a bit field into a copy of c. -/
  | bfi (w : CForm)
  /-- POPC (R101): Counts the one bits. -/
  | popc (w : CForm)
  /-- CLZ (R101): Counts leading or trailing zero bits. -/
  | clz (w : CForm)
  /-- BREV (R101): Reverses the bit order. -/
  | brev (w : CForm)
  /-- PRMB (R101): Permutes bytes of a pair under a selector. -/
  | prmb (w : CForm)
  /-- IADD64 (R100): Adds 64-bit integers, wrapping or saturating. -/
  | iadd64 (w : CForm)
  /-- LEA (R100): Forms a + b shifted by SH in 32 bits. -/
  | lea (w : CForm)
  /-- LEA64 (R100): Forms a 64-bit address from a base and an extended shifted index. -/
  | lea64 (w : CForm)
  /-- MOV (R100): Copies a 32-, 64- or 128-bit operand. -/
  | mov (w : CForm)
  /-- MOVI (R100): Writes a 32-bit immediate, or its sign extension to 64 bits. -/
  | movi (w : IForm)
  /-- SEL (R100): Selects a or b per lane by a predicate. -/
  | sel (w : CForm)
  /-- IDP4 (R100): Forms a four-byte dot product plus an addend. -/
  | idp4 (w : CForm)
  /-- MIX (R103): Computes the MIX.comb or MIX.h32 hash. -/
  | mix (w : CForm)
  /-- FADD (R105): Adds floating-point values with one rounding. -/
  | fadd (w : CForm)
  /-- FMUL (R105): Multiplies floating-point values with one rounding. -/
  | fmul (w : CForm)
  /-- FFMA (R105): Forms a fused multiply-add with one rounding. -/
  | ffma (w : CForm)
  /-- FDOT2 (R105): Forms a packed two-term dot product plus a binary32 addend, rounded once. -/
  | fdot2 (w : CForm)
  /-- FMIN (R107): Writes the floating-point minimum. -/
  | fmin (w : CForm)
  /-- FMAX (R107): Writes the floating-point maximum. -/
  | fmax (w : CForm)
  /-- FDIV (R106): Divides, variable-latency and correctly rounded. -/
  | fdiv (w : CForm)
  /-- FSQRT (R106): Takes the square root, variable-latency. -/
  | fsqrt (w : CForm)
  /-- FRCP (R106): Takes the reciprocal, variable-latency. -/
  | frcp (w : CForm)
  /-- FRSQ (R106): Takes the reciprocal square root, variable-latency. -/
  | frsq (w : CForm)
  /-- FEX2 (R106): Computes 2^a, variable-latency. -/
  | fex2 (w : CForm)
  /-- FLG2 (R106): Computes log2 a, variable-latency. -/
  | flg2 (w : CForm)
  /-- FSINP (R106): Computes sin(pi a), variable-latency. -/
  | fsinp (w : CForm)
  /-- FCOSP (R106): Computes cos(pi a), variable-latency. -/
  | fcosp (w : CForm)
  /-- FRND (R105): Rounds to an integral value in the chosen direction. -/
  | frnd (w : CForm)
  /-- FSCL (R105): Scales by a power of two with one rounding. -/
  | fscl (w : CForm)
  /-- FXTR (R108): Extracts the exponent or the normalised mantissa. -/
  | fxtr (w : CForm)
  /-- FCLS (R108): Writes a one-hot floating-point class. -/
  | fcls (w : CForm)
  /-- CVTI (R110): Converts between integer types, optionally saturating. -/
  | cvti (w : CForm)
  /-- CVTF (R110): Converts between floating-point types. -/
  | cvtf (w : CForm)
  /-- CVTIF (R110): Converts an integer to floating point. -/
  | cvtif (w : CForm)
  /-- CVTFI (R110): Converts floating point to an integer, with bounds and invalid raised on overflow. -/
  | cvtfi (w : CForm)
  /-- CVTN_ENC (R110): Encodes a float into a narrow format. -/
  | cvtnEnc (w : CForm)
  /-- CVTN_DEC (R110): Decodes a narrow code, optionally scaled, into a float. -/
  | cvtnDec (w : CForm)
  /-- CVTW_FX (R111): Puts a float onto an FX64 grid. -/
  | cvtwFx (w : CForm)
  /-- CVTW_FP (R111): Drains an FX64 value into a float. -/
  | cvtwFp (w : CForm)
  /-- SRND (R112): Stochastically rounds a binary32 value to reduced precision. -/
  | srnd (w : CForm)
  /-- RAND (R113): Computes the stateless counter-based hash. -/
  | rand (w : CForm)
  /-- PACK (R114): Rounds two binary32 values into one packed 16-bit pair. -/
  | pack (w : CForm)
  /-- UNPK (R114): Widens one half of a packed pair to binary32 exactly. -/
  | unpk (w : CForm)
  /-- ISETP (R116): Compares integers and writes or combines a predicate. -/
  | isetp (w : CForm)
  /-- FSETP (R116): Compares floats and writes or combines predicates. -/
  | fsetp (w : CForm)
  /-- PLOP (R118): Reduces selected predicates to one predicate. -/
  | plop (w : CForm)
  /-- PMOV_P2V (R119): Moves predicates into a register. -/
  | pmovP2v (w : CForm)
  /-- PMOV_V2P (R119): Moves register bits into predicates. -/
  | pmovV2p (w : CForm)
  /-- VOTE (R120): Votes a predicate across admitted lanes, or writes the ballot mask. -/
  | vote (w : CForm)
  /-- SHFL (R122): Exchanges values between lanes of a segment. -/
  | shfl (w : CForm)
  /-- WRED (R123): Reduces 32-bit integers across a segment. -/
  | wred (w : CForm)
  /-- WSCAN (R123): Scans 32-bit integers across a segment. -/
  | wscan (w : CForm)
  /-- WFRED (R124): Sums floats across a segment exactly and rounds once. -/
  | wfred (w : CForm)
  /-- MATCH (R125): Writes masks of lanes holding equal values. -/
  | match (w : CForm)
  /-- S2V (R126): Reads a warp or context state word into registers. -/
  | s2v (w : CForm)
  /-- FLAGS_RD (R128): Writes FLAGS into every admitted lane. -/
  | flagsRd (w : CForm)
  /-- FLAGS_CLR (R128): Clears the FLAGS bits named in the mask. -/
  | flagsClr (w : CForm)
  /-- PRIO (R129): Sets the warp's issue priority WPRIO. -/
  | prio (w : CForm)
  /-- BRA (R132): Branches a PC slot, diverging with a join entry when the guard is not uniform. -/
  | bra (w : TForm)
  /-- BRX (R133): Branches the whole slot to a register target. -/
  | brx (w : CForm)
  /-- RCV (R134): Marks a reconvergence point and unwinds the stack when both slots arrive. -/
  | rcv (w : ZForm)
  /-- CALL (R135): Pushes the return point and jumps to the target. -/
  | call (w : TForm)
  /-- RET (R135): Pops the return point, or exits on an empty stack. -/
  | ret (w : ZForm)
  /-- EXIT (R136): Removes admitted lanes into the exit mask, ending the warp when all have exited. -/
  | exit (w : ZForm)
  /-- LOOP (R137): Branches the whole slot when a value is nonzero. -/
  | loop (w : IForm)
  /-- BKPT (R139): Traps precisely with BREAKPOINT. -/
  | bkpt (w : IForm)
  /-- LD (R154): Loads from global, scratchpad, constant or aperture space. -/
  | ld (w : CForm)
  /-- ST (R155): Enters a store into the warp's store queue. -/
  | st (w : CForm)
  /-- PRF (R157): Prefetches lines into the L1 or home slice, never faulting. -/
  | prf (w : CForm)
  /-- OPF (R158): Copies registers into operand-buffer entries and, under RH, records the map. -/
  | opf (w : CForm)
  /-- CMNT (R160): Invalidates or writes back cache lines of a range. -/
  | cmnt (w : CForm)
  /-- FENCE (R161): Holds back later accesses until earlier ones have performed at its scope. -/
  | fence (w : CForm)
  /-- AXCH (R166): Atomically exchanges a value. -/
  | axch (w : CForm)
  /-- ACAS (R166): Atomically compares and swaps. -/
  | acas (w : CForm)
  /-- AADD (R166): Atomically adds an integer. -/
  | aadd (w : CForm)
  /-- AMNMX (R166): Atomically takes a minimum or maximum. -/
  | amnmx (w : CForm)
  /-- ALOP (R166): Atomically applies a bitwise operation. -/
  | alop (w : CForm)
  /-- AGADD (R166): Atomically adds a float onto an FX64 grid word. -/
  | agadd (w : CForm)
  /-- AINC (R166): Atomically increments with wrap at a bound. -/
  | ainc (w : CForm)
  /-- FBIND (R188): Reads, validates and binds a field descriptor to a slot. -/
  | fbind (w : CForm)
  /-- FLD (R182): Loads the interpolated field value at real coordinates. -/
  | fld (w : CForm)
  /-- FLDG (R183): Loads the interpolated value and its gradient. -/
  | fldg (w : CForm)
  /-- FST (R184): Splats a value into the field entries with the load's weights. -/
  | fst (w : CForm)
  /-- FSTG (R185): Splats the adjoint of the gradient into the field. -/
  | fstg (w : CForm)
  /-- FWT (R189): Reports the offset, weight and status of one entry. -/
  | fwt (w : CForm)
  /-- FDRN (R190): Drains an FX64 field into a float field, optionally clearing it. -/
  | fdrn (w : CForm)
  /-- FCLR (R190): Writes zero to every element of a field. -/
  | fclr (w : CForm)
  /-- GANG (R211): Writes the warp's gang register. -/
  | gang (w : CForm)
  /-- MMA (R205): Updates an accumulator tile with an exact sum of products, rounded once. -/
  | mma (w : CForm)
  /-- MLDB (R213): Fills a B-stage slot from memory. -/
  | mldb (w : CForm)
  /-- MLDC (R214): Loads an accumulator tile from memory and sets its tag. -/
  | mldc (w : CForm)
  /-- MCLR (R215): Clears a range of tiles and sets their tags. -/
  | mclr (w : CForm)
  /-- MDRN (R217): Drains a tile into registers with conversion. -/
  | mdrn (w : CForm)
  /-- MSTP (R217): Drains a tile into memory with conversion. -/
  | mstp (w : CForm)
  /-- MPERM (R221): Permutes the rows of a tile. -/
  | mperm (w : CForm)
  /-- MRED (R221): Adds row or column sums into a tile, rounded once. -/
  | mred (w : CForm)
  /-- MTRN (R221): Transposes a tile. -/
  | mtrn (w : CForm)
  /-- MHIST (R220): Reads, and optionally clears, a histogram set. -/
  | mhist (w : CForm)
  /-- CPY (R234): Copies bytes between scratchpad and global memory, subtracting from a barrier as pieces land. -/
  | cpy (w : CForm)
  /-- CPYB (R235): Starts a bulk transfer between packages or the host. -/
  | cpyb (w : CForm)
  /-- BCLOSE (R228): Closes the open batch of a class. -/
  | bclose (w : CForm)
  /-- BWAIT (R230): Waits for the retirement of batches. -/
  | bwait (w : CForm)
  /-- BAR_ARRIVE (R238): Arrives at a scratchpad barrier and returns its phase. -/
  | barArrive (w : CForm)
  /-- BAR_WAIT (R238): Waits until the barrier's phase differs from a token. -/
  | barWait (w : CForm)
  /-- BAR_SYNC (R238): Arrives and waits for the phase to flip. -/
  | barSync (w : CForm)
  /-- BARX (R239): Announces pending bytes to a barrier, optionally arriving. -/
  | barx (w : CForm)
  /-- SLEEP (R241): Puts the warp to sleep until a word changes, a wake, a timeout or a halt. -/
  | sleep (w : CForm)
  /-- WAKE (R242): Wakes named warps or sets their wake-pending bits. -/
  | wake (w : CForm)
  /-- SMOV (R247): Writes a uniform register from an operand or immediate. -/
  | smov (w : CForm)
  /-- SALU (R247): Computes a scalar arithmetic or logic result into a uniform register. -/
  | salu (w : CForm)
  /-- SSETP (R247): Writes a scalar comparison result. -/
  | ssetp (w : CForm)
  /-- SLD (R248): Loads uniform registers from memory. -/
  | sld (w : CForm)
  /-- SST (R248): Stores uniform registers through the store queue. -/
  | sst (w : CForm)
  /-- SBR (R249): Makes the next N instructions of the clause admit no lane when a condition holds. -/
  | sbr (w : CForm)
  /-- V2S (R247): Copies a vector value from the lowest admitted lane into a uniform register. -/
  | v2s (w : CForm)
  /-- SHPW_WR (R250): Writes a shape record. -/
  | shpwWr (w : CForm)
  /-- SHPW_MK (R250): Turns a shape record and origins into MMA masks. -/
  | shpwMk (w : CForm)
  /-- LSCL_RD (R251): Reads the loss scale. -/
  | lsclRd (w : CForm)
  /-- LSCL_SET (R251): Sets the loss scale and clears the growth count. -/
  | lsclSet (w : CForm)
  /-- LSCL_UPD (R251): Halves or grows the loss scale by the overflow word. -/
  | lsclUpd (w : CForm)
  /-- SCLAIM_CLAIM (R246): Claims ownership of a range of uniform registers. -/
  | sclaimClaim (w : CForm)
  /-- SCLAIM_REL (R246): Releases owned uniform registers. -/
  | sclaimRel (w : CForm)
  /-- OVFT_RD (R247): Reads the block's overflow word. -/
  | ovftRd (w : CForm)
  /-- OVFT_CLR (R247): Clears bits of the overflow word. -/
  | ovftClr (w : CForm)
  /-- CBAR_ARRIVE (R285): Arrives at a global barrier word. -/
  | cbarArrive (w : CForm)
  /-- CBAR_WAIT (R285): Waits for a global barrier's phase to differ from a token. -/
  | cbarWait (w : CForm)
  /-- CBAR_SYNC (R285): Arrives at a global barrier and waits for its phase flip. -/
  | cbarSync (w : CForm)
  /-- GADD (R381): Adds float terms onto gossip region values. -/
  | gadd (w : CForm)
  /-- GRD (R382): Reads value divided by weight from a gossip region. -/
  | grd (w : CForm)
  /-- GSPRD (R383): Reads the largest spread record over a chunk range. -/
  | gsprd (w : CForm)
  /-- GSYNC (R384): Completes once the warp's earlier GADDs are applied. -/
  | gsync (w : CForm)
  /-- GCTL_START (R371): Binds a region slot from a descriptor and starts it. -/
  | gctlStart (w : CForm)
  /-- GCTL_STOP (R385): Stops snapshots, optionally unbinding the slot. -/
  | gctlStop (w : CForm)
  /-- GCTL_RATE (R385): Sets the exchange rate of a slot. -/
  | gctlRate (w : CForm)
  /-- GCTL_STEP (R385): Performs one stepped exchange of a chunk. -/
  | gctlStep (w : CForm)
  /-- GMASS (R386): Reads a mass counter of a slot. -/
  | gmass (w : CForm)
  /-- COLL (R365): Joins a collective instance over memory or registers. -/
  | coll (w : CForm)
  /-- TRAP (R345): Traps precisely with SOFTWARE_TRAP. -/
  | trap (w : IForm)
  /-- ERET (R346): Returns from the trap handler as the frame directs. -/
  | eret (w : ZForm)
  /-- HALT (R347): Stops the warp with HALT_REQUEST and kills the context. -/
  | halt (w : ZForm)
  /-- MQCHK (R332): Stores or checks SHASH against memory by maquette mode. -/
  | mqchk (w : CForm)
  /-- SHASH_SET (R333): Sets SHASH at its place in fold order. -/
  | shashSet (w : CForm)
  /-- SHASH_CLR (R333): Clears SHASH at its place in fold order. -/
  | shashClr (w : CForm)
  /-- SYSR (R348): Reads a system register, clearing its RC fields. -/
  | sysr (w : CForm)
  /-- SYSW (R348): Writes a system register that has no row of its own. -/
  | sysw (w : CForm)
  /-- CTXSV_SAVE (R349): Saves a switched-out resident image. -/
  | ctxsvSave (w : CForm)
  /-- CTXSV_REST (R349): Restores a saved image into a free half. -/
  | ctxsvRest (w : CForm)
  /-- CLAUSE_START (R57): The slot starts a warp's clause once its waits, room and timing allow and the policy picks it. -/
  | clauseStart (core slot : Nat)
  /-- DESCHEDULE (R36): A pack leaves the active set at a permitted clause boundary, discarding buffer data. -/
  | deschedule (core slot : Nat) (pack : PackId)
  /-- PACK_ENTER (R258): A ready pack enters a free active entry. -/
  | packEnter (core slot : Nat)
  /-- WARP_URGENT (R265): A warp ready for 2048 cycles without starting becomes urgent. -/
  | warpUrgent (blk w : Nat)
  /-- VAR_COMPLETE (R23): A variable-latency operation writes its result and lowers its flag count. -/
  | varComplete (blk w op : Nat)
  /-- OPERATION_FAULT (R24): An operation's fault is reported, setting its flag's fault bit. -/
  | operationFault (blk w op : Nat)
  /-- STORE_PERFORM (R156): The oldest queued store or atomic performs and leaves the store queue. -/
  | storePerform (blk w : Nat)
  /-- ATOMIC_GROUP (R167): A group of an atomic's lanes is applied at its home slice in lane order. -/
  | atomicGroup (blk w slice : Nat)
  /-- MQ_GATE_ADMIT (R330): The replay gate admits the waiting .mq group that its entry names. -/
  | mqGateAdmit (blk w slice : Nat)
  /-- L2_EVICT (R289): A dirty home-slice line is written back to DRAM. -/
  | l2Evict (line : Nat)
  /-- PAGE_WALK (R295): A walker translates a virtual address, faulting to the system controller on failure. -/
  | pageWalk (core ctx : Nat) (va : DWord) (acc : Access)
  /-- FIELD_PAIR (R186): The field unit applies one (lane, entry) update of a splat or bulk operation. -/
  | fieldPair (blk w : Nat)
  /-- MMA_ENGINE_ENTRY (R202): An MMA enters the engine, reads its format-block and runs its checks. -/
  | mmaEngineEntry (blk w : Nat)
  /-- GANG_RENDEZVOUS (R212): All gang members have arrived and the engine runs one joint product. -/
  | gangRendezvous (blk : Nat) (members : Mask)
  /-- GANG_BROKEN (R212): A gang member leaves, disagrees or faults, breaking the rendezvous. -/
  | gangBroken (blk : Nat) (members : Mask)
  /-- COPY_PIECE_LAND (R234): A copy piece's writes have performed and it subtracts from its barrier. -/
  | copyPieceLand (blk w op piece : Nat)
  /-- WAIT_POLL_TIMER (R238): A pending wait rereads its word at least every 4096 cycles. -/
  | waitPollTimer (blk w op : Nat)
  /-- SLEEP_TIMEOUT (R241): A SLEEP's timeout of C cycles expires and it completes. -/
  | sleepTimeout (blk w op : Nat)
  /-- SLEEP_COMPLETE (R241): A SLEEP reads its word once more and completes. -/
  | sleepComplete (blk w op : Nat)
  /-- BATCH_RETIRE (R229): A closed batch retires once its operations are complete or faulted. -/
  | batchRetire (blk w cls : Nat)
  /-- CPYB_FINISH (R236): A bulk transfer finishes or stops at a fault. -/
  | cpybFinish (x : Nat) (far : FarReply)
  /-- CPYB_RECORD (R236): The engine writes a transfer's completion record once the ring has room. -/
  | cpybRecord (x : Nat)
  /-- REMOTE_CPYB_ARRIVE (R363): A remote bulk transfer arrives and acts in the named context or is refused. -/
  | remoteCpybArrive (m : BulkMsg)
  /-- CPYB_NO_ROUTE (R363): A transfer with no route for 1 ms stops with LINK_DOWN. -/
  | cpybNoRoute (x : Nat)
  /-- WARP_STOP (R268): A warp stops at the point its failure's rule gives. -/
  | warpStop (blk w : Nat)
  /-- HALT_BROADCAST (R269): The stop reaches the block's other warps two cycles later and they stop after their skid. -/
  | haltBroadcast (blk : Nat)
  /-- WARP_SLOT_FREE (R138): An ended warp's slot is freed once its queue and flags drain. -/
  | warpSlotFree (blk w : Nat)
  /-- HANDLER_ENTRY (R341): The trap handler is entered in a warp whose cause routes to it. -/
  | handlerEntry (blk w : Nat)
  /-- BLOCK_RESUME (R343): The system controller resumes a halted block after its translation faults are covered. -/
  | blockResume (blk : Nat)
  /-- FAULT_TIMEOUT (R343): KILLT passes after a notice without a covering TLBINV and the context is killed. -/
  | faultTimeout (blk : Nat)
  /-- RMA_WRITE (R304): A host RMA write under a memory key reaches partition or administrative memory, or is refused. -/
  | rmaWrite (key : Word) (off : Nat) (data : List Byte)
  /-- RMA_READ (R304): A host RMA read under a memory key returns data or is refused. -/
  | rmaRead (key : Word) (off len : Nat)
  /-- UE_ATOMIC (R304): A UE atomic operation is refused with the transport's error. -/
  | ueAtomic (key : Word) (off : Nat)
  /-- DOORBELL_WRITE (R305): The host writes a ring's write count WC. -/
  | doorbellWrite (key : Word) (off : Nat) (wc : DWord)
  /-- PACKET_FETCH (R305): The command processor reads the next packet once WC shows it and the previous packet completed. -/
  | packetFetch (ring : Nat)
  /-- LAUNCH_PACKET (R311): A launch packet is checked and its launch begins or is rejected. -/
  | launchPacket (ctx : Nat)
  /-- TLB_INVALIDATE_PACKET (R326): A type 0x02 packet invalidates translations of its context. -/
  | tlbInvalidatePacket (ctx : Nat)
  /-- CODE_MAP (R308): A code-map packet protects, translates and scans granules and makes them executable. -/
  | codeMap (ctx : Nat)
  /-- CODE_UNMAP (R308): A code-unmap packet removes granules from the execute table once no launch uses them. -/
  | codeUnmap (ctx : Nat)
  /-- COMPLETION_RECORD (R312): A packet's completion record is written to the host ring. -/
  | completionRecord (ring : Nat)
  /-- BLOCK_PLACE (R255): The next block of a launch is placed on a core with room. -/
  | blockPlace (launch : Nat)
  /-- LAUNCH_COMPLETE (R312): All blocks and operations of a launch have completed and its record is written. -/
  | launchComplete (launch : Nat)
  /-- PART_SET (R315): Sets up a partition's quotas, channels and memory key. -/
  | partSet
  /-- PART_CLEAR (R315): Kills a partition's contexts and clears it after zeroisation. -/
  | partClear
  /-- ZEROISATION (R13): The system controller zeroes and invalidates outgoing resources and writes zeroisation-complete. -/
  | zeroisation (part : Nat)
  /-- CTX_SET (R315): Writes a context record. -/
  | ctxSet
  /-- RUNLIST_WRITE (R315): Replaces the run list at once. -/
  | runlistWrite
  /-- RING_RESTART (R315): Restarts a stopped command ring with RC := WC. -/
  | ringRestart
  /-- KILL (R324): Kills a context by command. -/
  | kill
  /-- TLBINV (R315): Invalidates translations of a named context from the administrative ring. -/
  | tlbinv
  /-- FW_LOAD (R335): Verifies a firmware image and writes it to the inactive flash bank. -/
  | fwLoad
  /-- ATTEST (R336): Writes a signed attestation report. -/
  | attest
  /-- MC_RESET (R315): Zeroes and rechecks a retired channel, clearing RET if it reads back good. -/
  | mcReset
  /-- SLICE_EXPIRY (R316): A run-list entry's time slice expires and a soft request is issued. -/
  | sliceExpiry (ctx : Nat)
  /-- HIGHER_CLASS_READY (R320): A higher-class entry becomes ready and the running entry gets a soft request. -/
  | higherClassReady (ctx : Nat)
  /-- GRACE_EXPIRY (R319): The LAT grace timer expires and the die's blocks are forced to halt. -/
  | graceExpiry (ctx die : Nat)
  /-- KILLT_EXPIRY (R319): KILLT expires before the halt completes and the context is killed with PREEMPT_TIMEOUT. -/
  | killtExpiry (ctx die : Nat)
  /-- CONTEXT_SAVE (R322): A save writes an image block by block and sets VALID. -/
  | contextSave (ctx : Nat)
  /-- CONTEXT_RESTORE (R323): A restore checks an image and places it back onto its cores. -/
  | contextRestore (ctx : Nat)
  /-- ENGINE_DRAINED (R324): An engine reports a killed context's ID drained. -/
  | engineDrained (ctx engine : Nat)
  /-- KILL_COMPLETE (R324): After every engine has drained, caches are invalidated and the kill-complete record is written. -/
  | killComplete (ctx : Nat)
  /-- SOFT_ERROR_CORRECTED (R300): A correctable error is corrected where found and counted. -/
  | softErrorCorrected (die : Nat)
  /-- UNCORRECTABLE_ERROR (R300): An uncorrectable error halts and kills the consuming context. -/
  | uncorrectableError (loc : ErrLoc) (ctx : Nat)
  /-- L1_TAG_ERROR (R284): An uncorrectable L1 tag or data error invalidates lines and counts. -/
  | l1TagError (core line : Nat) (tag : Bool)
  /-- L2_TAG_OR_EVICT_ERROR (R302): An L2 tag or write-back error kills every context of the owning partition. -/
  | l2TagOrEvictError (line : Nat) (tag : Bool)
  /-- SCRUB (R303): The background scrub reads and corrects a line. -/
  | scrub (line : Nat)
  /-- FLIT_RECEIVE (R360): A flit arrives, checked by CRC and retransmitted on failure. -/
  | flitReceive (link : Nat) (seq : Nat) (crcOk : Bool)
  /-- LINK_DOWN (R360): A link is declared down after failed retransmissions or 100 µs without progress. -/
  | linkDown (link far : Nat)
  /-- LINK_UP (R360): A retrained link comes back up and a notice is written. -/
  | linkUp (link far : Nat)
  /-- CONGESTION_MARK (R362): A marked flit lowers a rate controller's rate. -/
  | congestionMark (ctl : Nat)
  /-- RATE_RECOVERY (R362): Every 5 µs without a mark raises a controller's rate. -/
  | rateRecovery (ctl : Nat)
  /-- COLL_INSTANCE_RUN (R367): A collective instance runs once all members have joined. -/
  | collInstanceRun (blk w op : Nat) (others : List CollMember)
  /-- COLL_ABORT (R369): A member killed or unreachable for 1 ms aborts the instance. -/
  | collAbort (blk w op : Nat)
  /-- GOSSIP_SNAPSHOT (R373): A link engine halves a chunk and sends the halves to a neighbour. -/
  | gossipSnapshot (ctx rgn chunk nbr : Nat)
  /-- FREE_RUN_TICK (R374): Every RATE cycles a free-running slot starts its next chunk exchange. -/
  | freeRunTick (ctx rgn : Nat)
  /-- GOSSIP_MESSAGE_ARRIVE (R373): A receiver decides an arriving message, applying or refusing it. -/
  | gossipMessageArrive (m : GossipMsg)
  /-- GOSSIP_ENQUIRY (R373): A sender with no answer after 1 ms or a failed link enquires about its message. -/
  | gossipEnquiry (msg : Nat)
  /-- GOSSIP_DECISION_LEARNED (R373): A sender learns a decision, adding halves back on a refusal. -/
  | gossipDecisionLearned (msg : Nat) (applied : Bool)
  /-- THERMAL_SUSTAINED (R399): A junction held at 105 °C for 1 ms throttles the die to one start in eight. -/
  | thermalSustained (die : Nat)
  /-- POWER_ON (R394): The module brings up its rails in order. -/
  | powerOn
  /-- RAIL_TIMEOUT (R394): A rail fails to reach regulation in 10 ms and the sequence stops. -/
  | railTimeout (rail : Nat)
  /-- POWER_OFF (R394): The module removes its rails in reverse order. -/
  | powerOff
  /-- BOOT_STAGE (R395): A boot stage verifies and starts the next stage. -/
  | bootStage (digest signature : List Byte) (pkg : BitVec 12)
  /-- CURRENT_SAMPLE (R398): Every 1 µs a die compares its current with ILIM and throttles clause starts. -/
  | currentSample (die amps : Nat) (tj : BitVec 8)
  /-- THERMAL_SHUTDOWN (R400): A junction reaches 115 °C and its stack is switched off, killing affected contexts. -/
  | thermalShutdown (die : Nat)
  /-- RESET (R397): A reset of the module makes the newly written flash bank active and starts the boot of R395 again. -/
  | reset
  /-- JUNCTION_AT_105 (R399): A die's junction reaches 105 °C, which sets DPWR.HOT and makes the die withhold clause starts
  whatever its current. -/
  | junctionAt105 (die : Nat)
  /-- JUNCTION_BELOW_100 (R399): A throttled die's junction falls below 100 °C and the seven-in-eight withholding ends. -/
  | junctionBelow100 (die : Nat) (tj : BitVec 8)
  /-- HOST_RMA_COMPLETION (R312): The host's transport reports an RMA write or read issued by the part as complete, after which
  the part issues SEQ or continues a host transfer. -/
  | hostRmaCompletion (id : Nat) (data : List Byte)
  deriving DecidableEq, Repr

end Sys2Proof
end

