-- ==== Sys2Proof/Machine/Shape.lean ====
section
/-!
DEFINITION. The shape of each instruction: its opcode and FN values (03_encoding.md R59), its latency
class (02_warp_state.md R44), the role of each operand field, and the MOD bits its entry defines.
The decoder, the scanner, the bank-conflict count (R42) and the dead bits (R41) all read this one table.
-/
namespace Sys2Proof

/-- The role of one operand field. -/
inductive Role where
  /-- Holds 0x000 (R48). -/
  | unused
  /-- A source of 32, 64 or 128 bits at the levels of 05_isa_arithmetic.md R93. -/
  | src (bits : Nat)
  /-- A source read through an engine's own port: it adds nothing to c (10_matrix.md R209). -/
  | srcPort (bits : Nat)
  /-- A source of `n` registers at the v level; of one register at any level. `port` as above. -/
  | srcRegs (n : Nat) (port : Bool)
  /-- A vector destination (R51, R93). -/
  | dst (bits : Nat)
  /-- A vector destination whose old value is the random word (R105). -/
  | dstSrc (bits : Nat)
  /-- A load's destination, by its size code (R154). -/
  | dstMem (sz : Nat)
  /-- A destination of `n` registers at the v level; `vOnly` excludes the buffer. -/
  | dstRegs (n : Nat) (vOnly : Bool)
  /-- `n` s registers written by the armature (R244). -/
  | armDst (n : Nat)
  /-- A source of the armature of `n` words (R244). -/
  | armSrc (n : Nat)
  /-- V2S's source (R244). -/
  | lane
  /-- `n` registers at the s level. -/
  | sOnly (n : Nat)
  /-- PRIO's source (R129). -/
  | sOrConst
  /-- BRX's target: a register pair at the v or s level, or a latch (R133). -/
  | branch
  /-- An OPF run of `n` registers (R158). -/
  | run (n : Nat)
  deriving DecidableEq, Repr

/-- The latency class (R44). -/
inductive Cls where
  | fixed (lat : Nat)
  | variable
  | control
  | opf
  | armature
  deriving DecidableEq, Repr

/-- What the table says of one instruction. -/
structure Shape where
  d    : Role
  a    : Role
  b    : Role
  c    : Role
  /-- The MOD bits that the entry defines. -/
  mask : BitVec 20
  /-- No defined MOD field holds a reserved value. -/
  ok   : Bool
  cls  : Cls
  deriving DecidableEq, Repr

/-- MOV's width (R100). -/
def movBits (fn : BitVec 4) : Nat := if fn = 2 then 128 else if fn = 1 then 64 else 32

/-- SEL's width (R100). -/
def selBits (mod : BitVec 20) : Nat := if mod.getLsbD 4 then 64 else 32

/-- The width of a floating-point operand (R104). -/
def fpBits (fn : BitVec 4) : Nat := if fn = 3 then 64 else 32

/-- The latency of a fixed floating-point form (R44). -/
def fpLat (fn : BitVec 4) : Nat := if fn = 3 then 8 else 4

/-- The operand width of a type code (R109). -/
def typeBits (t : Nat) : Nat := if t = 3 ∨ t = 7 ∨ t = 11 then 64 else 32

/-- The operand width of a size code (R153). -/
def memBits (sz : Nat) : Nat := if sz = 3 then 64 else if sz = 4 then 128 else 32

/-- The width that WC names (R209). -/
def wcWidth (wc : Nat) : Nat := if wc = 0 then 64 else if wc = 1 then 32 else if wc = 2 then 16 else 8

/-- The register selectors of SYSR and SYSW (18_traps.md R348). -/
def sysSelOk (sel : Nat) : Bool :=
  (1 ≤ sel && sel ≤ 4) || (0x10 ≤ sel && sel ≤ 0x14) || sel = 0x20 || (0x30 ≤ sel && sel ≤ 0x3B)

/-- The shape of an instruction; an event has none. -/
def Instr.shape : Instr → Option Shape
  | .nop _ => some { d := .unused, a := .unused, b := .unused, c := .unused, mask := 0x0, ok := true, cls := .control }
  | .iadd w => some { d := .dst 32, a := .src 32, b := .src 32, c := .unused, mask := if w.fn = 3 then 0xFF else 0, ok := true, cls := .fixed 1 }
  | .isub w => some { d := .dst 32, a := .src 32, b := .src 32, c := .unused, mask := if w.fn = 3 then 0xFF else 0, ok := true, cls := .fixed 1 }
  | .imul _ => some { d := .dst 32, a := .src 32, b := .src 32, c := .unused, mask := 0x0, ok := true, cls := .fixed 1 }
  | .imad _ => some { d := .dst 32, a := .src 32, b := .src 32, c := .src 32, mask := 0x0, ok := true, cls := .fixed 1 }
  | .imadw _ => some { d := .dst 64, a := .src 32, b := .src 32, c := .src 64, mask := 0x0, ok := true, cls := .fixed 1 }
  | .idiv _ => some { d := .dst 32, a := .src 32, b := .src 32, c := .unused, mask := 0xC0000, ok := true, cls := .variable }
  | .imnmx _ => some { d := .dst 32, a := .src 32, b := .src 32, c := .unused, mask := 0x0, ok := true, cls := .fixed 1 }
  | .iabs _ => some { d := .dst 32, a := .src 32, b := .unused, c := .unused, mask := 0x1, ok := true, cls := .fixed 1 }
  | .lop w => some { d := .dst 32, a := .src 32, b := if w.fn = 6 then .unused else .src 32, c := .unused, mask := 0x0, ok := true, cls := .fixed 1 }
  | .lop3 _ => some { d := .dst 32, a := .src 32, b := .src 32, c := .src 32, mask := 0xFF, ok := true, cls := .fixed 1 }
  | .shl _ => some { d := .dst 32, a := .src 32, b := .src 32, c := .unused, mask := 0x0, ok := true, cls := .fixed 1 }
  | .shr _ => some { d := .dst 32, a := .src 32, b := .src 32, c := .unused, mask := 0x0, ok := true, cls := .fixed 1 }
  | .rot _ => some { d := .dst 32, a := .src 32, b := .src 32, c := .unused, mask := 0x0, ok := true, cls := .fixed 1 }
  | .shf _ => some { d := .dst 32, a := .src 32, b := .src 32, c := .src 32, mask := 0x0, ok := true, cls := .fixed 1 }
  | .bfx _ => some { d := .dst 32, a := .src 32, b := .src 32, c := .unused, mask := 0x0, ok := true, cls := .fixed 1 }
  | .bfi _ => some { d := .dst 32, a := .src 32, b := .src 32, c := .src 32, mask := 0x0, ok := true, cls := .fixed 1 }
  | .popc _ => some { d := .dst 32, a := .src 32, b := .unused, c := .unused, mask := 0x0, ok := true, cls := .fixed 1 }
  | .clz _ => some { d := .dst 32, a := .src 32, b := .unused, c := .unused, mask := 0x0, ok := true, cls := .fixed 1 }
  | .brev _ => some { d := .dst 32, a := .src 32, b := .unused, c := .unused, mask := 0x0, ok := true, cls := .fixed 1 }
  | .prmb _ => some { d := .dst 32, a := .src 32, b := .src 32, c := .src 32, mask := 0x0, ok := true, cls := .fixed 1 }
  | .iadd64 _ => some { d := .dst 64, a := .src 64, b := .src 64, c := .unused, mask := 0x0, ok := true, cls := .fixed 1 }
  | .lea _ => some { d := .dst 32, a := .src 32, b := .src 32, c := .unused, mask := 0x1F, ok := true, cls := .fixed 1 }
  | .lea64 _ => some { d := .dst 64, a := .src 64, b := .src 32, c := .unused, mask := 0x3F, ok := true, cls := .fixed 1 }
  | .mov w => some { d := .dst (movBits w.fn), a := .src (movBits w.fn), b := .unused, c := .unused, mask := 0x0, ok := true, cls := .fixed 1 }
  | .movi w => some { d := if w.fn = 1 then .dst 64 else .dst 32, a := .unused, b := .unused, c := .unused, mask := 0x0, ok := true, cls := .fixed 1 }
  | .sel w => some { d := .dst (selBits w.mod), a := .src (selBits w.mod), b := .src (selBits w.mod), c := .unused, mask := 0x1F, ok := true, cls := .fixed 1 }
  | .idp4 _ => some { d := .dst 32, a := .src 32, b := .src 32, c := .src 32, mask := 0x0, ok := true, cls := .fixed 1 }
  | .mix w => some { d := .dst 32, a := .src 32, b := if w.fn = 1 ∨ 2 ≤ bitsAt w.mod 0 2 then .src 32 else .unused, c := if w.fn = 0 ∧ bitsAt w.mod 0 2 = 3 then .src 32 else .unused, mask := if w.fn = 0 then 0x3 else 0, ok := decide (w.fn = 1 ∨ bitsAt w.mod 0 2 ≠ 0), cls := .fixed 1 }
  | .fadd w => some { d := .dst (fpBits w.fn), a := .src (fpBits w.fn), b := .src (fpBits w.fn), c := if bitsAt w.mod 0 3 = 5 then .src 32 else .unused, mask := 0xF, ok := decide (bitsAt w.mod 0 3 ≤ 5), cls := .fixed (fpLat w.fn) }
  | .fmul w => some { d := .dst (fpBits w.fn), a := .src (fpBits w.fn), b := .src (fpBits w.fn), c := if bitsAt w.mod 0 3 = 5 then .src 32 else .unused, mask := 0xF, ok := decide (bitsAt w.mod 0 3 ≤ 5), cls := .fixed (fpLat w.fn) }
  | .ffma w => some { d := if bitsAt w.mod 0 3 = 5 then .dstSrc (fpBits w.fn) else .dst (fpBits w.fn), a := .src (fpBits w.fn), b := .src (fpBits w.fn), c := .src (fpBits w.fn), mask := 0xF, ok := decide (bitsAt w.mod 0 3 ≤ 5), cls := .fixed (fpLat w.fn) }
  | .fdot2 w => some { d := if bitsAt w.mod 0 3 = 5 then .dstSrc 32 else .dst 32, a := .src 32, b := .src 32, c := .src 32, mask := 0xF, ok := decide (bitsAt w.mod 0 3 ≤ 5), cls := .fixed 4 }
  | .fmin w => some { d := .dst (fpBits w.fn), a := .src (fpBits w.fn), b := .src (fpBits w.fn), c := .unused, mask := 0x0, ok := true, cls := .fixed (fpLat w.fn) }
  | .fmax w => some { d := .dst (fpBits w.fn), a := .src (fpBits w.fn), b := .src (fpBits w.fn), c := .unused, mask := 0x0, ok := true, cls := .fixed (fpLat w.fn) }
  | .fdiv w => some { d := .dst (fpBits w.fn), a := .src (fpBits w.fn), b := .src (fpBits w.fn), c := if bitsAt w.mod 0 3 = 5 then .src 32 else .unused, mask := 0xC000F, ok := decide (bitsAt w.mod 0 3 ≤ 5), cls := .variable }
  | .fsqrt w => some { d := .dst (fpBits w.fn), a := .src (fpBits w.fn), b := .unused, c := if bitsAt w.mod 0 3 = 5 then .src 32 else .unused, mask := 0xC000F, ok := decide (bitsAt w.mod 0 3 ≤ 5), cls := .variable }
  | .frcp w => some { d := .dst (fpBits w.fn), a := .src (fpBits w.fn), b := .unused, c := if bitsAt w.mod 0 3 = 5 then .src 32 else .unused, mask := 0xC000F, ok := decide (bitsAt w.mod 0 3 ≤ 5), cls := .variable }
  | .frsq w => some { d := .dst (fpBits w.fn), a := .src (fpBits w.fn), b := .unused, c := if bitsAt w.mod 0 3 = 5 then .src 32 else .unused, mask := 0xC000F, ok := decide (bitsAt w.mod 0 3 ≤ 5), cls := .variable }
  | .fex2 w => some { d := .dst (fpBits w.fn), a := .src (fpBits w.fn), b := .unused, c := if bitsAt w.mod 0 3 = 5 then .src 32 else .unused, mask := 0xC000F, ok := decide (bitsAt w.mod 0 3 ≤ 5), cls := .variable }
  | .flg2 w => some { d := .dst (fpBits w.fn), a := .src (fpBits w.fn), b := .unused, c := if bitsAt w.mod 0 3 = 5 then .src 32 else .unused, mask := 0xC000F, ok := decide (bitsAt w.mod 0 3 ≤ 5), cls := .variable }
  | .fsinp w => some { d := .dst (fpBits w.fn), a := .src (fpBits w.fn), b := .unused, c := if bitsAt w.mod 0 3 = 5 then .src 32 else .unused, mask := 0xC000F, ok := decide (bitsAt w.mod 0 3 ≤ 5), cls := .variable }
  | .fcosp w => some { d := .dst (fpBits w.fn), a := .src (fpBits w.fn), b := .unused, c := if bitsAt w.mod 0 3 = 5 then .src 32 else .unused, mask := 0xC000F, ok := decide (bitsAt w.mod 0 3 ≤ 5), cls := .variable }
  | .frnd w => some { d := .dst (fpBits w.fn), a := .src (fpBits w.fn), b := .unused, c := if bitsAt w.mod 0 3 = 5 then .src 32 else .unused, mask := 0x7, ok := decide (bitsAt w.mod 0 3 ≤ 5), cls := .fixed (fpLat w.fn) }
  | .fscl w => some { d := .dst (fpBits w.fn), a := .src (fpBits w.fn), b := .src 32, c := if bitsAt w.mod 0 3 = 5 then .src 32 else .unused, mask := 0xF, ok := decide (bitsAt w.mod 0 3 ≤ 5), cls := .fixed (fpLat w.fn) }
  | .fxtr w => some { d := if w.mod.getLsbD 4 then .dst (fpBits w.fn) else .dst 32, a := .src (fpBits w.fn), b := .unused, c := .unused, mask := 0x10, ok := true, cls := .fixed (fpLat w.fn) }
  | .fcls w => some { d := .dst (fpBits w.fn), a := .src (fpBits w.fn), b := .unused, c := .unused, mask := 0x0, ok := true, cls := .fixed (fpLat w.fn) }
  | .cvti w => some { d := .dst (typeBits (bitsAt w.mod 4 4)), a := .src (typeBits (bitsAt w.mod 8 4)), b := .unused, c := .unused, mask := 0x1FF0, ok := decide (bitsAt w.mod 4 4 < 8 ∧ bitsAt w.mod 8 4 < 8), cls := .fixed 4 }
  | .cvtf w => some { d := .dst (typeBits (bitsAt w.mod 4 4)), a := .src (typeBits (bitsAt w.mod 8 4)), b := .unused, c := if bitsAt w.mod 0 3 = 5 then .src 32 else .unused, mask := 0xFFF, ok := decide ((8 ≤ bitsAt w.mod 4 4 ∧ bitsAt w.mod 4 4 < 12) ∧ (8 ≤ bitsAt w.mod 8 4 ∧ bitsAt w.mod 8 4 < 12) ∧ bitsAt w.mod 0 3 ≤ 5), cls := .fixed 4 }
  | .cvtif w => some { d := .dst (typeBits (bitsAt w.mod 4 4)), a := .src (typeBits (bitsAt w.mod 8 4)), b := .unused, c := if bitsAt w.mod 0 3 = 5 then .src 32 else .unused, mask := 0xFF7, ok := decide ((8 ≤ bitsAt w.mod 4 4 ∧ bitsAt w.mod 4 4 < 12) ∧ bitsAt w.mod 8 4 < 8 ∧ bitsAt w.mod 0 3 ≤ 5), cls := .fixed 4 }
  | .cvtfi w => some { d := .dst (typeBits (bitsAt w.mod 4 4)), a := .src (typeBits (bitsAt w.mod 8 4)), b := .unused, c := if bitsAt w.mod 0 3 = 5 then .src 32 else .unused, mask := 0xFF7, ok := decide (bitsAt w.mod 4 4 < 8 ∧ (8 ≤ bitsAt w.mod 8 4 ∧ bitsAt w.mod 8 4 < 12) ∧ bitsAt w.mod 0 3 ≤ 5), cls := .fixed 4 }
  | .cvtnEnc w => some { d := .dst 32, a := .src (typeBits (bitsAt w.mod 8 4)), b := .unused, c := if bitsAt w.mod 0 3 = 5 then .src 32 else .unused, mask := 0xEFF7, ok := decide (bitsAt w.mod 4 4 = 12 ∧ (8 ≤ bitsAt w.mod 8 4 ∧ bitsAt w.mod 8 4 < 12) ∧ bitsAt w.mod 0 3 ≤ 5), cls := .fixed 4 }
  | .cvtnDec w => some { d := .dst (typeBits (bitsAt w.mod 4 4)), a := .src 32, b := if w.mod.getLsbD 16 then .src 32 else .unused, c := if bitsAt w.mod 0 3 = 5 then .src 32 else .unused, mask := 0x1EFFF, ok := decide ((8 ≤ bitsAt w.mod 4 4 ∧ bitsAt w.mod 4 4 < 12) ∧ bitsAt w.mod 8 4 = 12 ∧ bitsAt w.mod 0 3 ≤ 5), cls := .fixed 4 }
  | .cvtwFx w => some { d := .dst 64, a := .src (typeBits (bitsAt w.mod 4 4)), b := .unused, c := .unused, mask := 0xFFF0, ok := decide ((8 ≤ bitsAt w.mod 4 4 ∧ bitsAt w.mod 4 4 < 12)), cls := .fixed 4 }
  | .cvtwFp w => some { d := .dst (typeBits (bitsAt w.mod 4 4)), a := .src 64, b := .unused, c := if bitsAt w.mod 0 3 = 5 then .src 32 else .unused, mask := 0xFFFF, ok := decide ((8 ≤ bitsAt w.mod 4 4 ∧ bitsAt w.mod 4 4 < 12) ∧ bitsAt w.mod 0 3 ≤ 5), cls := .fixed 4 }
  | .srnd w => some { d := .dst 32, a := .src 32, b := .src 32, c := .unused, mask := 0x1F0, ok := decide (1 ≤ bitsAt w.mod 4 5 ∧ bitsAt w.mod 4 5 ≤ 24), cls := .fixed 4 }
  | .rand _ => some { d := .dst 32, a := .src 32, b := .src 32, c := .sOnly 1, mask := 0x0, ok := true, cls := .fixed 4 }
  | .pack w => some { d := .dst 32, a := .src 32, b := .src 32, c := if bitsAt w.mod 0 3 = 5 then .src 32 else .unused, mask := 0xF, ok := decide (bitsAt w.mod 0 3 ≤ 5), cls := .fixed 4 }
  | .unpk _ => some { d := .dst 32, a := .src 32, b := .unused, c := .unused, mask := 0x18, ok := true, cls := .fixed 4 }
  | .isetp w => some { d := .unused, a := .src (if w.mod.getLsbD 3 then 64 else 32), b := .src (if w.mod.getLsbD 3 then 64 else 32), c := .unused, mask := 0x77F, ok := decide (bitsAt w.mod 0 3 ≤ 5), cls := .fixed 1 }
  | .fsetp w => some { d := .unused, a := .src (fpBits w.fn), b := .src (fpBits w.fn), c := .unused, mask := 0x77F, ok := decide (bitsAt w.mod 0 4 ≤ 13 ∧ ((w.fn = 1 ∨ w.fn = 2) → ¬ w.mod.getLsbD 4)), cls := .fixed (fpLat w.fn) }
  | .plop w => some { d := .unused, a := .unused, b := .unused, c := .unused, mask := 0x1FFFF, ok := decide (bitsAt w.mod 7 7 &&& (127 - bitsAt w.mod 0 7) = 0), cls := .fixed 1 }
  | .pmovP2v _ => some { d := .dst 32, a := .unused, b := .unused, c := .unused, mask := 0xFF, ok := true, cls := .fixed 1 }
  | .pmovV2p _ => some { d := .unused, a := .src 32, b := .unused, c := .unused, mask := 0xFF, ok := true, cls := .fixed 1 }
  | .vote w => some { d := if w.fn = 3 then .dst 64 else .unused, a := .unused, b := .unused, c := .unused, mask := if w.fn = 3 then 0xF else 0x7F, ok := true, cls := .fixed 1 }
  | .shfl w => some { d := .dst (if w.mod.getLsbD 7 then 64 else 32), a := .src (if w.mod.getLsbD 7 then 64 else 32), b := .src 32, c := .unused, mask := 0xFF0, ok := decide (bitsAt w.mod 4 3 ≤ 3), cls := .fixed 4 }
  | .wred w => some { d := .dst 32, a := .src 32, b := .unused, c := .unused, mask := 0xC0070, ok := decide (bitsAt w.mod 4 3 ≤ 3), cls := .variable }
  | .wscan w => some { d := .dst 32, a := .src 32, b := .unused, c := .unused, mask := 0xC7070, ok := decide (bitsAt w.mod 4 3 ≤ 3), cls := .variable }
  | .wfred w => some { d := .dst (fpBits w.fn), a := .src (fpBits w.fn), b := .unused, c := if bitsAt w.mod 0 3 = 5 then .src 32 else .unused, mask := 0xC007F, ok := decide (bitsAt w.mod 4 3 ≤ 3 ∧ bitsAt w.mod 0 3 ≤ 5), cls := .variable }
  | .match w => some { d := .dst 64, a := .src (if w.mod.getLsbD 7 then 64 else 32), b := .unused, c := .unused, mask := if w.fn = 1 then 0xC0FF0 else 0xC00F0, ok := decide (bitsAt w.mod 4 3 ≤ 3), cls := .variable }
  | .s2v w => some { d := if bitsAt w.mod 0 8 = 0 then .dst 64 else .dst 32, a := .unused, b := .unused, c := .unused, mask := if bitsAt w.mod 0 8 = 0 then 0xC00FF else 0xFF, ok := decide (bitsAt w.mod 0 8 ≠ 7 ∧ bitsAt w.mod 0 8 ≤ 0x17), cls := if bitsAt w.mod 0 8 = 0 then .variable else .fixed 1 }
  | .flagsRd _ => some { d := .dst 32, a := .unused, b := .unused, c := .unused, mask := 0x0, ok := true, cls := .fixed 1 }
  | .flagsClr _ => some { d := .unused, a := .unused, b := .unused, c := .unused, mask := 0x1F, ok := true, cls := .fixed 1 }
  | .prio w => some { d := .unused, a := if w.mod.getLsbD 4 then .sOrConst else .unused, b := .unused, c := .unused, mask := 0x1F, ok := true, cls := .control }
  | .bra _ => some { d := .unused, a := .unused, b := .unused, c := .unused, mask := 0x0, ok := true, cls := .control }
  | .brx _ => some { d := .unused, a := .branch, b := .unused, c := .unused, mask := 0x0, ok := true, cls := .control }
  | .rcv _ => some { d := .unused, a := .unused, b := .unused, c := .unused, mask := 0x0, ok := true, cls := .control }
  | .call _ => some { d := .unused, a := .unused, b := .unused, c := .unused, mask := 0x0, ok := true, cls := .control }
  | .ret _ => some { d := .unused, a := .unused, b := .unused, c := .unused, mask := 0x0, ok := true, cls := .control }
  | .exit _ => some { d := .unused, a := .unused, b := .unused, c := .unused, mask := 0x0, ok := true, cls := .control }
  | .loop _ => some { d := .unused, a := .src 32, b := .unused, c := .unused, mask := 0x0, ok := true, cls := .control }
  | .bkpt _ => some { d := .unused, a := .unused, b := .unused, c := .unused, mask := 0x0, ok := true, cls := .control }
  | .ld w => some { d := .dstMem (bitsAt w.mod 15 3), a := .src (if w.fn = 0 then 64 else 32), b := if w.mod.getLsbD 13 then .src 32 else .unused, c := .unused, mask := 0xFFFFF, ok := decide (bitsAt w.mod 15 3 ≤ 4 ∧ (w.mod.getLsbD 14 → bitsAt w.mod 15 3 ≤ 1) ∧ bitsAt w.mod 9 3 ≤ 5 ∧ (¬ w.mod.getLsbD 12 → bitsAt w.mod 9 3 = 0) ∧ (w.fn = 2 → ¬ w.mod.getLsbD 12)), cls := .variable }
  | .st w => some { d := .unused, a := .src (if w.fn = 0 then 64 else 32), b := if w.mod.getLsbD 13 then .src 32 else .unused, c := .src (memBits (bitsAt w.mod 15 3)), mask := 0xFBFFF, ok := decide (bitsAt w.mod 15 3 ≤ 4 ∧ bitsAt w.mod 9 3 ≤ 5 ∧ (¬ w.mod.getLsbD 12 → bitsAt w.mod 9 3 = 0)), cls := .variable }
  | .prf w => some { d := .unused, a := .src 64, b := if w.mod.getLsbD 13 then .src 32 else .unused, c := .unused, mask := 0xC21FF, ok := true, cls := .variable }
  | .opf w => some { d := .run (bitsAt w.mod 0 4), a := .run (bitsAt w.mod 4 4), b := .run (bitsAt w.mod 8 4), c := .run (bitsAt w.mod 12 4), mask := 0xFFFF, ok := decide (bitsAt w.mod 0 4 + bitsAt w.mod 4 4 + bitsAt w.mod 8 4 + bitsAt w.mod 12 4 ≤ 16), cls := .opf }
  | .cmnt w => some { d := .unused, a := .src 64, b := .src 32, c := .unused, mask := 0xC0003, ok := decide (bitsAt w.mod 0 2 ≤ 2), cls := .variable }
  | .fence w => some { d := .unused, a := .unused, b := .unused, c := .unused, mask := 0xC0E00, ok := decide (bitsAt w.mod 9 3 ≤ 5), cls := .variable }
  | .axch w => some { d := if w.fn = 1 then .unused else .dst (if w.mod.getLsbD 17 then 64 else 32), a := .src (if w.mod.getLsbD 16 then 32 else 64), b := .src (if w.mod.getLsbD 17 then 64 else 32), c := .unused, mask := 0xFFC00, ok := decide ((w.mod.getLsbD 15 → ¬ w.mod.getLsbD 16) ∧ (w.fn = 1 → ¬ w.mod.getLsbD 13) ∧ bitsAt w.mod 10 3 ≤ 5), cls := .variable }
  | .acas w => some { d := if w.fn = 1 then .unused else .dst (if w.mod.getLsbD 17 then 64 else 32), a := .src (if w.mod.getLsbD 16 then 32 else 64), b := .src (if w.mod.getLsbD 17 then 64 else 32), c := .src (if w.mod.getLsbD 17 then 64 else 32), mask := 0xFFC00, ok := decide ((w.mod.getLsbD 15 → ¬ w.mod.getLsbD 16) ∧ (w.fn = 1 → ¬ w.mod.getLsbD 13) ∧ bitsAt w.mod 10 3 ≤ 5), cls := .variable }
  | .aadd w => some { d := if w.fn = 1 then .unused else .dst (if w.mod.getLsbD 17 then 64 else 32), a := .src (if w.mod.getLsbD 16 then 32 else 64), b := .src (if w.mod.getLsbD 17 then 64 else 32), c := .unused, mask := 0xFFC00, ok := decide ((w.mod.getLsbD 15 → ¬ w.mod.getLsbD 16) ∧ (w.fn = 1 → ¬ w.mod.getLsbD 13) ∧ bitsAt w.mod 10 3 ≤ 5), cls := .variable }
  | .amnmx w => some { d := if w.fn = 1 then .unused else .dst (if w.mod.getLsbD 17 then 64 else 32), a := .src (if w.mod.getLsbD 16 then 32 else 64), b := .src (if w.mod.getLsbD 17 then 64 else 32), c := .unused, mask := 0xFFF00, ok := decide ((w.mod.getLsbD 15 → ¬ w.mod.getLsbD 16) ∧ (w.fn = 1 → ¬ w.mod.getLsbD 13) ∧ bitsAt w.mod 10 3 ≤ 5), cls := .variable }
  | .alop w => some { d := if w.fn = 1 then .unused else .dst (if w.mod.getLsbD 17 then 64 else 32), a := .src (if w.mod.getLsbD 16 then 32 else 64), b := .src (if w.mod.getLsbD 17 then 64 else 32), c := .unused, mask := 0xFFF00, ok := decide ((w.mod.getLsbD 15 → ¬ w.mod.getLsbD 16) ∧ (w.fn = 1 → ¬ w.mod.getLsbD 13) ∧ bitsAt w.mod 10 3 ≤ 5 ∧ bitsAt w.mod 8 2 ≤ 2), cls := .variable }
  | .agadd w => some { d := if w.fn = 1 then .unused else .dst (if w.mod.getLsbD 17 then 64 else 32), a := .src (if w.mod.getLsbD 16 then 32 else 64), b := .src 32, c := .unused, mask := 0xFFCFF, ok := decide ((w.mod.getLsbD 15 → ¬ w.mod.getLsbD 16) ∧ (w.fn = 1 → ¬ w.mod.getLsbD 13) ∧ bitsAt w.mod 10 3 ≤ 5 ∧ w.mod.getLsbD 17), cls := .variable }
  | .ainc w => some { d := if w.fn = 1 then .unused else .dst (if w.mod.getLsbD 17 then 64 else 32), a := .src (if w.mod.getLsbD 16 then 32 else 64), b := .src (if w.mod.getLsbD 17 then 64 else 32), c := .unused, mask := 0xFFC00, ok := decide ((w.mod.getLsbD 15 → ¬ w.mod.getLsbD 16) ∧ (w.fn = 1 → ¬ w.mod.getLsbD 13) ∧ bitsAt w.mod 10 3 ≤ 5), cls := .variable }
  | .fbind w => some { d := .unused, a := .src (if w.mod.getLsbD 5 then 32 else 64), b := .unused, c := .unused, mask := 0xC002F, ok := true, cls := .variable }
  | .fld w => some { d := .dstRegs (bitsAt w.mod 10 2 + 1) false, a := .srcRegs (bitsAt w.mod 8 2 + 1) false, b := .unused, c := .unused, mask := 0xC0F0F, ok := true, cls := .variable }
  | .fldg w => some { d := .dstRegs ((bitsAt w.mod 10 2 + 1) * ((bitsAt w.mod 8 2 + 1) + 1)) true, a := .srcRegs (bitsAt w.mod 8 2 + 1) false, b := .unused, c := .unused, mask := 0xC0F0F, ok := true, cls := .variable }
  | .fst w => some { d := .unused, a := .srcRegs (bitsAt w.mod 8 2 + 1) false, b := .srcRegs (bitsAt w.mod 10 2 + 1) false, c := .unused, mask := 0xC0F1F, ok := true, cls := .variable }
  | .fstg w => some { d := .unused, a := .srcRegs (bitsAt w.mod 8 2 + 1) false, b := .srcRegs ((bitsAt w.mod 10 2 + 1) * (bitsAt w.mod 8 2 + 1)) false, c := .unused, mask := 0xC0F1F, ok := true, cls := .variable }
  | .fwt w => some { d := .dstRegs 4 true, a := .srcRegs (bitsAt w.mod 8 2 + 1) false, b := .src 32, c := .unused, mask := 0xC030F, ok := true, cls := .variable }
  | .fdrn _ => some { d := .unused, a := .unused, b := .unused, c := .unused, mask := 0x1F00F, ok := true, cls := .variable }
  | .fclr _ => some { d := .unused, a := .unused, b := .unused, c := .unused, mask := 0xF, ok := true, cls := .variable }
  | .gang _ => some { d := .unused, a := .srcPort 64, b := .unused, c := .unused, mask := 0xC0000, ok := true, cls := .variable }
  | .mma w => some { d := .unused, a := .srcRegs (128 / wcWidth (bitsAt w.mod 16 2)) true, b := .src 32, c := .sOnly 2, mask := 0xFFFFF, ok := true, cls := .variable }
  | .mldb w => some { d := .unused, a := .src 64, b := .src 32, c := .src 32, mask := 0xC0007, ok := decide (bitsAt w.mod 0 3 ≠ 7), cls := .variable }
  | .mldc _ => some { d := .unused, a := .src 64, b := .src 32, c := .src 32, mask := 0xC0003, ok := true, cls := .variable }
  | .mclr _ => some { d := .unused, a := .src 32, b := .src 32, c := .unused, mask := 0xC0000, ok := true, cls := .variable }
  | .mdrn w => some { d := .dstRegs ((if bitsAt w.mod 4 4 = 0 then 512 else 256) / wcWidth (bitsAt w.mod 16 2)) true, a := .unused, b := .unused, c := .sOnly 4, mask := 0xF0FFF, ok := decide (bitsAt w.mod 4 4 ≤ 4 ∧ (bitsAt w.mod 4 4 ≠ 4 → bitsAt w.mod 8 3 = 0) ∧ bitsAt w.mod 0 3 ≤ 5), cls := .variable }
  | .mstp w => some { d := .unused, a := .src 64, b := .src 32, c := .sOnly 4, mask := 0xC0FFF, ok := decide (bitsAt w.mod 4 4 ≤ 4 ∧ (bitsAt w.mod 4 4 ≠ 4 → bitsAt w.mod 8 3 = 0) ∧ bitsAt w.mod 0 3 ≤ 5), cls := .variable }
  | .mperm _ => some { d := .unused, a := .src 32, b := .src 64, c := .unused, mask := 0xD0000, ok := true, cls := .variable }
  | .mred _ => some { d := .unused, a := .src 32, b := .src 32, c := .unused, mask := 0xFFFFF, ok := true, cls := .variable }
  | .mtrn _ => some { d := .unused, a := .src 32, b := .unused, c := .unused, mask := 0xD0000, ok := true, cls := .variable }
  | .mhist w => some { d := .dstRegs (ceilDiv 32 (wcWidth (bitsAt w.mod 16 2))) true, a := .unused, b := .unused, c := .unused, mask := 0xF000F, ok := true, cls := .variable }
  | .cpy w => some { d := .unused, a := .src (if bitsAt w.mod 0 2 = 1 then 64 else 32), b := .src (if bitsAt w.mod 0 2 = 0 then 64 else 32), c := .sOnly 2, mask := 0xC0003, ok := decide (bitsAt w.mod 0 2 ≤ 2), cls := .variable }
  | .cpyb _ => some { d := .unused, a := .src 64, b := .src 64, c := .sOnly 5, mask := 0xC0000, ok := true, cls := .variable }
  | .bclose _ => some { d := .dst 32, a := .unused, b := .unused, c := .unused, mask := 0xC0000, ok := true, cls := .variable }
  | .bwait _ => some { d := .unused, a := .src 32, b := .unused, c := .unused, mask := 0xC0000, ok := true, cls := .variable }
  | .barArrive _ => some { d := .dst 32, a := .src 32, b := .unused, c := .unused, mask := 0xC0000, ok := true, cls := .variable }
  | .barWait _ => some { d := .unused, a := .src 32, b := .src 32, c := .unused, mask := 0xC0000, ok := true, cls := .variable }
  | .barSync _ => some { d := .unused, a := .src 32, b := .unused, c := .unused, mask := 0xC0000, ok := true, cls := .variable }
  | .barx _ => some { d := .unused, a := .src 32, b := .src 32, c := .unused, mask := 0xC0001, ok := true, cls := .variable }
  | .sleep w => some { d := .dstRegs 1 false, a := .src (if w.mod.getLsbD 16 then 32 else 64), b := .src 32, c := .src 32, mask := 0xD1E00, ok := decide (bitsAt w.mod 9 3 ≤ 5 ∧ (¬ w.mod.getLsbD 12 → bitsAt w.mod 9 3 = 0)), cls := .variable }
  | .wake _ => some { d := .unused, a := .src 64, b := .unused, c := .unused, mask := 0xC0000, ok := true, cls := .variable }
  | .smov w => some { d := .armDst 1, a := if w.mod.getLsbD 19 then .unused else .armSrc 1, b := .unused, c := .unused, mask := if w.mod.getLsbD 19 then 0xFFFFF else 0, ok := true, cls := .armature }
  | .salu _ => some { d := .armDst 1, a := .armSrc 1, b := .armSrc 1, c := .unused, mask := 0x0, ok := true, cls := .armature }
  | .ssetp w => some { d := .armDst 1, a := .armSrc 1, b := .armSrc 1, c := .unused, mask := 0x7, ok := decide (bitsAt w.mod 0 3 ≤ 5), cls := .armature }
  | .sld w => some { d := .armDst (2 ^ bitsAt w.mod 14 2), a := .armSrc (if bitsAt w.mod 16 2 = 2 then 2 else 1), b := .unused, c := .unused, mask := 0xFC1FF, ok := decide (bitsAt w.mod 16 2 ≤ 2 ∧ bitsAt w.mod 14 2 ≤ 2), cls := .variable }
  | .sst w => some { d := .unused, a := .armSrc (if bitsAt w.mod 16 2 = 2 then 2 else 1), b := .unused, c := .armSrc (2 ^ bitsAt w.mod 14 2), mask := 0xFC1FF, ok := decide ((bitsAt w.mod 16 2 = 1 ∨ bitsAt w.mod 16 2 = 2) ∧ bitsAt w.mod 14 2 ≤ 2), cls := .variable }
  | .sbr w => some { d := .unused, a := .sOnly 1, b := .unused, c := .unused, mask := 0xF, ok := decide (bitsAt w.mod 0 3 ≠ 0), cls := .armature }
  | .v2s _ => some { d := .armDst 1, a := .lane, b := .unused, c := .unused, mask := 0x0, ok := true, cls := .armature }
  | .shpwWr _ => some { d := .unused, a := .armSrc 1, b := .armSrc 1, c := .unused, mask := 0xF, ok := true, cls := .armature }
  | .shpwMk w => some { d := .armDst 2, a := .armSrc 1, b := .armSrc 1, c := .unused, mask := 0x1F, ok := decide (w.mod.getLsbD 4), cls := .armature }
  | .lsclRd w => some { d := .armDst 1, a := .unused, b := .unused, c := .unused, mask := 0x3, ok := decide (bitsAt w.mod 0 2 = 0), cls := .armature }
  | .lsclSet w => some { d := .unused, a := .armSrc 1, b := .unused, c := .unused, mask := 0x3, ok := decide (bitsAt w.mod 0 2 = 1), cls := .armature }
  | .lsclUpd w => some { d := .armDst 1, a := .armSrc 1, b := .unused, c := .unused, mask := 0x3, ok := decide (bitsAt w.mod 0 2 = 2), cls := .armature }
  | .sclaimClaim w => some { d := .unused, a := .unused, b := .unused, c := .unused, mask := 0x1FFF, ok := decide (1 ≤ bitsAt w.mod 6 7 ∧ bitsAt w.mod 6 7 ≤ 64), cls := .armature }
  | .sclaimRel w => some { d := .unused, a := .unused, b := .unused, c := .unused, mask := 0x1FFF, ok := decide (1 ≤ bitsAt w.mod 6 7 ∧ bitsAt w.mod 6 7 ≤ 64), cls := .armature }
  | .ovftRd _ => some { d := .armDst 1, a := .unused, b := .unused, c := .unused, mask := 0x0, ok := true, cls := .armature }
  | .ovftClr _ => some { d := .unused, a := .unused, b := .unused, c := .unused, mask := 0x1F, ok := true, cls := .armature }
  | .cbarArrive _ => some { d := .dst 32, a := .src 64, b := .unused, c := .unused, mask := 0xC0000, ok := true, cls := .variable }
  | .cbarWait _ => some { d := .unused, a := .src 64, b := .src 32, c := .unused, mask := 0xC0000, ok := true, cls := .variable }
  | .cbarSync _ => some { d := .unused, a := .src 64, b := .unused, c := .unused, mask := 0xC0000, ok := true, cls := .variable }
  | .gadd _ => some { d := .unused, a := .src 32, b := .src 32, c := .src 32, mask := 0xC0070, ok := true, cls := .variable }
  | .grd w => some { d := .dstRegs 1 false, a := if bitsAt w.mod 0 3 = 5 then .src 32 else .unused, b := .src 32, c := .src 32, mask := 0xC007F, ok := decide (bitsAt w.mod 0 3 ≤ 5), cls := .variable }
  | .gsprd _ => some { d := .dstRegs 1 false, a := .unused, b := .src 32, c := .src 32, mask := 0xC0070, ok := true, cls := .variable }
  | .gsync _ => some { d := .unused, a := .unused, b := .unused, c := .unused, mask := 0xC0000, ok := true, cls := .variable }
  | .gctlStart _ => some { d := .unused, a := .src 64, b := .unused, c := .unused, mask := 0xC0070, ok := true, cls := .variable }
  | .gctlStop _ => some { d := .unused, a := .unused, b := .unused, c := .unused, mask := 0xC00F0, ok := true, cls := .variable }
  | .gctlRate _ => some { d := .unused, a := .src 32, b := .unused, c := .unused, mask := 0xC0070, ok := true, cls := .variable }
  | .gctlStep _ => some { d := .unused, a := .src 32, b := .src 32, c := .unused, mask := 0xC0070, ok := true, cls := .variable }
  | .gmass w => some { d := .dstRegs 2 true, a := .unused, b := .unused, c := .unused, mask := 0xC0F70, ok := decide (bitsAt w.mod 8 4 ≤ 6), cls := .variable }
  | .coll w => some { d := if w.mod.getLsbD 16 then .dstRegs 1 false else .unused, a := .src (if w.mod.getLsbD 16 then 32 else 64), b := if w.mod.getLsbD 16 then .unused else .src 64, c := .sOnly 2, mask := 0xD0000, ok := decide (w.mod.getLsbD 16 → (w.fn = 0 ∨ w.fn = 3)), cls := .variable }
  | .trap _ => some { d := .unused, a := .unused, b := .unused, c := .unused, mask := 0x0, ok := true, cls := .control }
  | .eret _ => some { d := .unused, a := .unused, b := .unused, c := .unused, mask := 0x0, ok := true, cls := .control }
  | .halt _ => some { d := .unused, a := .unused, b := .unused, c := .unused, mask := 0x0, ok := true, cls := .control }
  | .mqchk _ => some { d := .unused, a := .src 64, b := .unused, c := .unused, mask := 0xC0000, ok := true, cls := .variable }
  | .shashSet _ => some { d := .unused, a := .src 32, b := .unused, c := .unused, mask := 0x0, ok := true, cls := .control }
  | .shashClr _ => some { d := .unused, a := .unused, b := .unused, c := .unused, mask := 0x0, ok := true, cls := .control }
  | .sysr w => some { d := .dstRegs 1 true, a := .src 32, b := .unused, c := .unused, mask := 0xCFFFF, ok := decide (sysSelOk (bitsAt w.mod 0 16)), cls := .variable }
  | .sysw w => some { d := .unused, a := .src 32, b := .src 32, c := .unused, mask := 0xCFFFF, ok := decide (sysSelOk (bitsAt w.mod 0 16)), cls := .variable }
  | .ctxsvSave _ => some { d := .dstRegs 1 true, a := .src 32, b := .unused, c := .unused, mask := 0xC0000, ok := true, cls := .variable }
  | .ctxsvRest _ => some { d := .dstRegs 1 true, a := .src 32, b := .unused, c := .unused, mask := 0xC0000, ok := true, cls := .variable }
  | .clauseStart .. => none
  | .deschedule .. => none
  | .packEnter .. => none
  | .warpUrgent .. => none
  | .varComplete .. => none
  | .operationFault .. => none
  | .storePerform .. => none
  | .atomicGroup .. => none
  | .mqGateAdmit .. => none
  | .l2Evict .. => none
  | .pageWalk .. => none
  | .fieldPair .. => none
  | .mmaEngineEntry .. => none
  | .gangRendezvous .. => none
  | .gangBroken .. => none
  | .copyPieceLand .. => none
  | .waitPollTimer .. => none
  | .sleepTimeout .. => none
  | .sleepComplete .. => none
  | .batchRetire .. => none
  | .cpybFinish .. => none
  | .cpybRecord .. => none
  | .remoteCpybArrive .. => none
  | .cpybNoRoute .. => none
  | .warpStop .. => none
  | .haltBroadcast .. => none
  | .warpSlotFree .. => none
  | .handlerEntry .. => none
  | .blockResume .. => none
  | .faultTimeout .. => none
  | .rmaWrite .. => none
  | .rmaRead .. => none
  | .ueAtomic .. => none
  | .doorbellWrite .. => none
  | .packetFetch .. => none
  | .launchPacket .. => none
  | .tlbInvalidatePacket .. => none
  | .codeMap .. => none
  | .codeUnmap .. => none
  | .completionRecord .. => none
  | .blockPlace .. => none
  | .launchComplete .. => none
  | .partSet .. => none
  | .partClear .. => none
  | .zeroisation .. => none
  | .ctxSet .. => none
  | .runlistWrite .. => none
  | .ringRestart .. => none
  | .kill .. => none
  | .tlbinv .. => none
  | .fwLoad .. => none
  | .attest .. => none
  | .mcReset .. => none
  | .sliceExpiry .. => none
  | .higherClassReady .. => none
  | .graceExpiry .. => none
  | .killtExpiry .. => none
  | .contextSave .. => none
  | .contextRestore .. => none
  | .engineDrained .. => none
  | .killComplete .. => none
  | .softErrorCorrected .. => none
  | .uncorrectableError .. => none
  | .l1TagError .. => none
  | .l2TagOrEvictError .. => none
  | .scrub .. => none
  | .flitReceive .. => none
  | .linkDown .. => none
  | .linkUp .. => none
  | .congestionMark .. => none
  | .rateRecovery .. => none
  | .collInstanceRun .. => none
  | .collAbort .. => none
  | .gossipSnapshot .. => none
  | .freeRunTick .. => none
  | .gossipMessageArrive .. => none
  | .gossipEnquiry .. => none
  | .gossipDecisionLearned .. => none
  | .powerOn .. => none
  | .railTimeout .. => none
  | .powerOff .. => none
  | .bootStage .. => none
  | .currentSample .. => none
  | .thermalSustained .. => none
  | .thermalShutdown .. => none
  | .reset .. => none
  | .junctionAt105 .. => none
  | .junctionBelow100 .. => none
  | .hostRmaCompletion .. => none

/-- The opcode and the FN values of an instruction (03_encoding.md R59); an event has no word. -/
def Instr.op : Instr → Option (Nat × List Nat)
  | .nop _ => some (0x00, [0])
  | .iadd _ => some (0x01, [0, 1, 2, 3])
  | .isub _ => some (0x02, [0, 1, 2, 3])
  | .imul _ => some (0x03, [0, 1, 2])
  | .imad _ => some (0x04, [0, 1, 2])
  | .imadw _ => some (0x05, [0, 1])
  | .idiv _ => some (0x06, [0, 1, 2, 3])
  | .imnmx _ => some (0x07, [0, 1, 2, 3])
  | .iabs _ => some (0x08, [0, 1])
  | .lop _ => some (0x09, [0, 1, 2, 3, 4, 5, 6])
  | .lop3 _ => some (0x0A, [0])
  | .shl _ => some (0x0B, [0])
  | .shr _ => some (0x0C, [0, 1])
  | .rot _ => some (0x0D, [0, 1])
  | .shf _ => some (0x0E, [0, 1])
  | .bfx _ => some (0x0F, [0, 1])
  | .bfi _ => some (0x10, [0])
  | .popc _ => some (0x11, [0])
  | .clz _ => some (0x12, [0, 1])
  | .brev _ => some (0x13, [0])
  | .prmb _ => some (0x14, [0])
  | .iadd64 _ => some (0x15, [0, 1, 2])
  | .lea _ => some (0x16, [0])
  | .lea64 _ => some (0x17, [0])
  | .mov _ => some (0x18, [0, 1, 2])
  | .movi _ => some (0x19, [0, 1])
  | .sel _ => some (0x1A, [0])
  | .idp4 _ => some (0x1B, [0, 1])
  | .mix _ => some (0x1C, [0, 1])
  | .fadd _ => some (0x20, [0, 1, 2, 3])
  | .fmul _ => some (0x21, [0, 1, 2, 3])
  | .ffma _ => some (0x22, [0, 1, 2, 3])
  | .fdot2 _ => some (0x31, [1, 2])
  | .fmin _ => some (0x23, [0, 1, 2, 3])
  | .fmax _ => some (0x24, [0, 1, 2, 3])
  | .fdiv _ => some (0x25, [0, 1, 2, 3])
  | .fsqrt _ => some (0x26, [0, 1, 2, 3])
  | .frcp _ => some (0x27, [0, 1, 2, 3])
  | .frsq _ => some (0x28, [0, 1, 2, 3])
  | .fex2 _ => some (0x29, [0, 1, 2, 3])
  | .flg2 _ => some (0x2A, [0, 1, 2, 3])
  | .fsinp _ => some (0x2B, [0, 1, 2, 3])
  | .fcosp _ => some (0x2C, [0, 1, 2, 3])
  | .frnd _ => some (0x2D, [0, 1, 2, 3])
  | .fscl _ => some (0x2E, [0, 1, 2, 3])
  | .fxtr _ => some (0x2F, [0, 1, 2, 3])
  | .fcls _ => some (0x30, [0, 1, 2, 3])
  | .cvti _ => some (0x40, [0])
  | .cvtf _ => some (0x41, [0])
  | .cvtif _ => some (0x42, [0])
  | .cvtfi _ => some (0x43, [0])
  | .cvtnEnc _ => some (0x44, [0])
  | .cvtnDec _ => some (0x44, [1])
  | .cvtwFx _ => some (0x45, [0])
  | .cvtwFp _ => some (0x45, [1])
  | .srnd _ => some (0x46, [0])
  | .rand _ => some (0x47, [0])
  | .pack _ => some (0x48, [0, 1])
  | .unpk _ => some (0x49, [0, 1])
  | .isetp _ => some (0x50, [0, 1])
  | .fsetp _ => some (0x51, [0, 1, 2, 3])
  | .plop _ => some (0x52, [0, 1, 2, 3, 4, 5, 6, 7])
  | .pmovP2v _ => some (0x53, [0])
  | .pmovV2p _ => some (0x53, [1])
  | .vote _ => some (0x54, [0, 1, 2, 3])
  | .shfl _ => some (0x55, [0, 1, 2, 3])
  | .wred _ => some (0x56, [0, 1, 2, 3, 4, 5, 6, 7])
  | .wscan _ => some (0x58, [0, 1])
  | .wfred _ => some (0x57, [0, 3])
  | .match _ => some (0x59, [0, 1])
  | .s2v _ => some (0x5A, [0])
  | .flagsRd _ => some (0x5B, [0])
  | .flagsClr _ => some (0x5B, [1])
  | .prio _ => some (0x5D, [0])
  | .bra _ => some (0x60, [0])
  | .brx _ => some (0x61, [0])
  | .rcv _ => some (0x62, [0])
  | .call _ => some (0x63, [0])
  | .ret _ => some (0x64, [0])
  | .exit _ => some (0x65, [0])
  | .loop _ => some (0x66, [0])
  | .bkpt _ => some (0x67, [0])
  | .ld _ => some (0x70, [0, 1, 2, 3])
  | .st _ => some (0x71, [0, 1, 3])
  | .prf _ => some (0x73, [0, 1])
  | .opf _ => some (0x72, [0])
  | .cmnt _ => some (0x74, [0])
  | .fence _ => some (0x75, [0, 1, 2, 3])
  | .axch _ => some (0x80, [0])
  | .acas _ => some (0x81, [0])
  | .aadd _ => some (0x82, [0, 1])
  | .amnmx _ => some (0x83, [0, 1])
  | .alop _ => some (0x84, [0, 1])
  | .agadd _ => some (0x85, [0, 1])
  | .ainc _ => some (0x86, [0, 1])
  | .fbind _ => some (0x90, [0])
  | .fld _ => some (0x91, [0])
  | .fldg _ => some (0x92, [0])
  | .fst _ => some (0x93, [0])
  | .fstg _ => some (0x94, [0])
  | .fwt _ => some (0x95, [0])
  | .fdrn _ => some (0x96, [0])
  | .fclr _ => some (0x97, [0])
  | .gang _ => some (0xA0, [0])
  | .mma _ => some (0xA1, [0, 1, 2, 8, 9, 10])
  | .mldb _ => some (0xA2, [0])
  | .mldc _ => some (0xA3, [0])
  | .mclr _ => some (0xA6, [0])
  | .mdrn _ => some (0xA4, [0, 1])
  | .mstp _ => some (0xA5, [0, 1])
  | .mperm _ => some (0xA7, [0])
  | .mred _ => some (0xA8, [0, 1])
  | .mtrn _ => some (0xA9, [0])
  | .mhist _ => some (0xAA, [0])
  | .cpy _ => some (0xB0, [0])
  | .cpyb _ => some (0xB1, [0])
  | .bclose _ => some (0xB2, [0, 1, 2, 3])
  | .bwait _ => some (0xB3, [0, 1, 2, 3, 4, 5, 6, 7])
  | .barArrive _ => some (0xB4, [0])
  | .barWait _ => some (0xB4, [1])
  | .barSync _ => some (0xB4, [2])
  | .barx _ => some (0xB5, [0])
  | .sleep _ => some (0xB7, [0])
  | .wake _ => some (0xB8, [0])
  | .smov _ => some (0xC0, [0])
  | .salu _ => some (0xC1, [0, 1, 2, 3, 4, 5, 6, 7])
  | .ssetp _ => some (0xC2, [0, 1])
  | .sld _ => some (0xC3, [0])
  | .sst _ => some (0xC4, [0])
  | .sbr _ => some (0xC5, [0])
  | .v2s _ => some (0xC7, [0])
  | .shpwWr _ => some (0xC8, [0])
  | .shpwMk _ => some (0xC8, [0])
  | .lsclRd _ => some (0xC9, [0])
  | .lsclSet _ => some (0xC9, [0])
  | .lsclUpd _ => some (0xC9, [0])
  | .sclaimClaim _ => some (0xC6, [0])
  | .sclaimRel _ => some (0xC6, [1])
  | .ovftRd _ => some (0xCA, [0])
  | .ovftClr _ => some (0xCA, [1])
  | .cbarArrive _ => some (0xB6, [0])
  | .cbarWait _ => some (0xB6, [1])
  | .cbarSync _ => some (0xB6, [2])
  | .gadd _ => some (0xD0, [0])
  | .grd _ => some (0xD1, [0])
  | .gsprd _ => some (0xD2, [0])
  | .gsync _ => some (0xD3, [0])
  | .gctlStart _ => some (0xD4, [0])
  | .gctlStop _ => some (0xD4, [1])
  | .gctlRate _ => some (0xD4, [2])
  | .gctlStep _ => some (0xD4, [3])
  | .gmass _ => some (0xD6, [0])
  | .coll _ => some (0xD5, [0, 1, 2, 3])
  | .trap _ => some (0xE0, [0])
  | .eret _ => some (0xE1, [0])
  | .halt _ => some (0xE2, [0])
  | .mqchk _ => some (0xE3, [0])
  | .shashSet _ => some (0xE4, [0])
  | .shashClr _ => some (0xE4, [1])
  | .sysr _ => some (0xE6, [0])
  | .sysw _ => some (0xE7, [0])
  | .ctxsvSave _ => some (0xE8, [0])
  | .ctxsvRest _ => some (0xE8, [1])
  | .clauseStart .. => none
  | .deschedule .. => none
  | .packEnter .. => none
  | .warpUrgent .. => none
  | .varComplete .. => none
  | .operationFault .. => none
  | .storePerform .. => none
  | .atomicGroup .. => none
  | .mqGateAdmit .. => none
  | .l2Evict .. => none
  | .pageWalk .. => none
  | .fieldPair .. => none
  | .mmaEngineEntry .. => none
  | .gangRendezvous .. => none
  | .gangBroken .. => none
  | .copyPieceLand .. => none
  | .waitPollTimer .. => none
  | .sleepTimeout .. => none
  | .sleepComplete .. => none
  | .batchRetire .. => none
  | .cpybFinish .. => none
  | .cpybRecord .. => none
  | .remoteCpybArrive .. => none
  | .cpybNoRoute .. => none
  | .warpStop .. => none
  | .haltBroadcast .. => none
  | .warpSlotFree .. => none
  | .handlerEntry .. => none
  | .blockResume .. => none
  | .faultTimeout .. => none
  | .rmaWrite .. => none
  | .rmaRead .. => none
  | .ueAtomic .. => none
  | .doorbellWrite .. => none
  | .packetFetch .. => none
  | .launchPacket .. => none
  | .tlbInvalidatePacket .. => none
  | .codeMap .. => none
  | .codeUnmap .. => none
  | .completionRecord .. => none
  | .blockPlace .. => none
  | .launchComplete .. => none
  | .partSet .. => none
  | .partClear .. => none
  | .zeroisation .. => none
  | .ctxSet .. => none
  | .runlistWrite .. => none
  | .ringRestart .. => none
  | .kill .. => none
  | .tlbinv .. => none
  | .fwLoad .. => none
  | .attest .. => none
  | .mcReset .. => none
  | .sliceExpiry .. => none
  | .higherClassReady .. => none
  | .graceExpiry .. => none
  | .killtExpiry .. => none
  | .contextSave .. => none
  | .contextRestore .. => none
  | .engineDrained .. => none
  | .killComplete .. => none
  | .softErrorCorrected .. => none
  | .uncorrectableError .. => none
  | .l1TagError .. => none
  | .l2TagOrEvictError .. => none
  | .scrub .. => none
  | .flitReceive .. => none
  | .linkDown .. => none
  | .linkUp .. => none
  | .congestionMark .. => none
  | .rateRecovery .. => none
  | .collInstanceRun .. => none
  | .collAbort .. => none
  | .gossipSnapshot .. => none
  | .freeRunTick .. => none
  | .gossipMessageArrive .. => none
  | .gossipEnquiry .. => none
  | .gossipDecisionLearned .. => none
  | .powerOn .. => none
  | .railTimeout .. => none
  | .powerOff .. => none
  | .bootStage .. => none
  | .currentSample .. => none
  | .thermalSustained .. => none
  | .thermalShutdown .. => none
  | .reset .. => none
  | .junctionAt105 .. => none
  | .junctionBelow100 .. => none
  | .hostRmaCompletion .. => none

/-- The fields of an instruction's word, in one form for every X kind (03_encoding.md R45, R48). -/
structure Fields where
  g    : Guard
  hint : Hint
  fn   : BitVec 4
  d    : Operand
  a    : Operand
  b    : Operand
  c    : Operand
  mod  : BitVec 20
  deriving DecidableEq, Repr

/-- The operand field 0x000. -/
def Operand.zero : Operand := .v 0#8

def CForm.fields (w : CForm) : Fields :=
  { g := w.g, hint := w.hint, fn := w.fn, d := w.d, a := w.a, b := w.b, c := w.c, mod := w.mod }
def IForm.fields (w : IForm) : Fields :=
  { g := w.g, hint := w.hint, fn := w.fn, d := w.d, a := w.a, b := w.b, c := .zero, mod := 0 }
def TForm.fields (w : TForm) : Fields :=
  { g := w.g, hint := w.hint, fn := 0, d := .zero, a := .zero, b := .zero, c := .zero, mod := 0 }
def ZForm.fields (w : ZForm) : Fields :=
  { g := w.g, hint := w.hint, fn := 0, d := .zero, a := .zero, b := .zero, c := .zero, mod := 0 }

/-- The fields of an instruction; an event has none. -/
def Instr.fields : Instr → Option Fields
  | .nop w => some w.fields
  | .iadd w => some w.fields
  | .isub w => some w.fields
  | .imul w => some w.fields
  | .imad w => some w.fields
  | .imadw w => some w.fields
  | .idiv w => some w.fields
  | .imnmx w => some w.fields
  | .iabs w => some w.fields
  | .lop w => some w.fields
  | .lop3 w => some w.fields
  | .shl w => some w.fields
  | .shr w => some w.fields
  | .rot w => some w.fields
  | .shf w => some w.fields
  | .bfx w => some w.fields
  | .bfi w => some w.fields
  | .popc w => some w.fields
  | .clz w => some w.fields
  | .brev w => some w.fields
  | .prmb w => some w.fields
  | .iadd64 w => some w.fields
  | .lea w => some w.fields
  | .lea64 w => some w.fields
  | .mov w => some w.fields
  | .movi w => some w.fields
  | .sel w => some w.fields
  | .idp4 w => some w.fields
  | .mix w => some w.fields
  | .fadd w => some w.fields
  | .fmul w => some w.fields
  | .ffma w => some w.fields
  | .fdot2 w => some w.fields
  | .fmin w => some w.fields
  | .fmax w => some w.fields
  | .fdiv w => some w.fields
  | .fsqrt w => some w.fields
  | .frcp w => some w.fields
  | .frsq w => some w.fields
  | .fex2 w => some w.fields
  | .flg2 w => some w.fields
  | .fsinp w => some w.fields
  | .fcosp w => some w.fields
  | .frnd w => some w.fields
  | .fscl w => some w.fields
  | .fxtr w => some w.fields
  | .fcls w => some w.fields
  | .cvti w => some w.fields
  | .cvtf w => some w.fields
  | .cvtif w => some w.fields
  | .cvtfi w => some w.fields
  | .cvtnEnc w => some w.fields
  | .cvtnDec w => some w.fields
  | .cvtwFx w => some w.fields
  | .cvtwFp w => some w.fields
  | .srnd w => some w.fields
  | .rand w => some w.fields
  | .pack w => some w.fields
  | .unpk w => some w.fields
  | .isetp w => some w.fields
  | .fsetp w => some w.fields
  | .plop w => some w.fields
  | .pmovP2v w => some w.fields
  | .pmovV2p w => some w.fields
  | .vote w => some w.fields
  | .shfl w => some w.fields
  | .wred w => some w.fields
  | .wscan w => some w.fields
  | .wfred w => some w.fields
  | .match w => some w.fields
  | .s2v w => some w.fields
  | .flagsRd w => some w.fields
  | .flagsClr w => some w.fields
  | .prio w => some w.fields
  | .bra w => some w.fields
  | .brx w => some w.fields
  | .rcv w => some w.fields
  | .call w => some w.fields
  | .ret w => some w.fields
  | .exit w => some w.fields
  | .loop w => some w.fields
  | .bkpt w => some w.fields
  | .ld w => some w.fields
  | .st w => some w.fields
  | .prf w => some w.fields
  | .opf w => some w.fields
  | .cmnt w => some w.fields
  | .fence w => some w.fields
  | .axch w => some w.fields
  | .acas w => some w.fields
  | .aadd w => some w.fields
  | .amnmx w => some w.fields
  | .alop w => some w.fields
  | .agadd w => some w.fields
  | .ainc w => some w.fields
  | .fbind w => some w.fields
  | .fld w => some w.fields
  | .fldg w => some w.fields
  | .fst w => some w.fields
  | .fstg w => some w.fields
  | .fwt w => some w.fields
  | .fdrn w => some w.fields
  | .fclr w => some w.fields
  | .gang w => some w.fields
  | .mma w => some w.fields
  | .mldb w => some w.fields
  | .mldc w => some w.fields
  | .mclr w => some w.fields
  | .mdrn w => some w.fields
  | .mstp w => some w.fields
  | .mperm w => some w.fields
  | .mred w => some w.fields
  | .mtrn w => some w.fields
  | .mhist w => some w.fields
  | .cpy w => some w.fields
  | .cpyb w => some w.fields
  | .bclose w => some w.fields
  | .bwait w => some w.fields
  | .barArrive w => some w.fields
  | .barWait w => some w.fields
  | .barSync w => some w.fields
  | .barx w => some w.fields
  | .sleep w => some w.fields
  | .wake w => some w.fields
  | .smov w => some w.fields
  | .salu w => some w.fields
  | .ssetp w => some w.fields
  | .sld w => some w.fields
  | .sst w => some w.fields
  | .sbr w => some w.fields
  | .v2s w => some w.fields
  | .shpwWr w => some w.fields
  | .shpwMk w => some w.fields
  | .lsclRd w => some w.fields
  | .lsclSet w => some w.fields
  | .lsclUpd w => some w.fields
  | .sclaimClaim w => some w.fields
  | .sclaimRel w => some w.fields
  | .ovftRd w => some w.fields
  | .ovftClr w => some w.fields
  | .cbarArrive w => some w.fields
  | .cbarWait w => some w.fields
  | .cbarSync w => some w.fields
  | .gadd w => some w.fields
  | .grd w => some w.fields
  | .gsprd w => some w.fields
  | .gsync w => some w.fields
  | .gctlStart w => some w.fields
  | .gctlStop w => some w.fields
  | .gctlRate w => some w.fields
  | .gctlStep w => some w.fields
  | .gmass w => some w.fields
  | .coll w => some w.fields
  | .trap w => some w.fields
  | .eret w => some w.fields
  | .halt w => some w.fields
  | .mqchk w => some w.fields
  | .shashSet w => some w.fields
  | .shashClr w => some w.fields
  | .sysr w => some w.fields
  | .sysw w => some w.fields
  | .ctxsvSave w => some w.fields
  | .ctxsvRest w => some w.fields
  | .clauseStart .. => none
  | .deschedule .. => none
  | .packEnter .. => none
  | .warpUrgent .. => none
  | .varComplete .. => none
  | .operationFault .. => none
  | .storePerform .. => none
  | .atomicGroup .. => none
  | .mqGateAdmit .. => none
  | .l2Evict .. => none
  | .pageWalk .. => none
  | .fieldPair .. => none
  | .mmaEngineEntry .. => none
  | .gangRendezvous .. => none
  | .gangBroken .. => none
  | .copyPieceLand .. => none
  | .waitPollTimer .. => none
  | .sleepTimeout .. => none
  | .sleepComplete .. => none
  | .batchRetire .. => none
  | .cpybFinish .. => none
  | .cpybRecord .. => none
  | .remoteCpybArrive .. => none
  | .cpybNoRoute .. => none
  | .warpStop .. => none
  | .haltBroadcast .. => none
  | .warpSlotFree .. => none
  | .handlerEntry .. => none
  | .blockResume .. => none
  | .faultTimeout .. => none
  | .rmaWrite .. => none
  | .rmaRead .. => none
  | .ueAtomic .. => none
  | .doorbellWrite .. => none
  | .packetFetch .. => none
  | .launchPacket .. => none
  | .tlbInvalidatePacket .. => none
  | .codeMap .. => none
  | .codeUnmap .. => none
  | .completionRecord .. => none
  | .blockPlace .. => none
  | .launchComplete .. => none
  | .partSet .. => none
  | .partClear .. => none
  | .zeroisation .. => none
  | .ctxSet .. => none
  | .runlistWrite .. => none
  | .ringRestart .. => none
  | .kill .. => none
  | .tlbinv .. => none
  | .fwLoad .. => none
  | .attest .. => none
  | .mcReset .. => none
  | .sliceExpiry .. => none
  | .higherClassReady .. => none
  | .graceExpiry .. => none
  | .killtExpiry .. => none
  | .contextSave .. => none
  | .contextRestore .. => none
  | .engineDrained .. => none
  | .killComplete .. => none
  | .softErrorCorrected .. => none
  | .uncorrectableError .. => none
  | .l1TagError .. => none
  | .l2TagOrEvictError .. => none
  | .scrub .. => none
  | .flitReceive .. => none
  | .linkDown .. => none
  | .linkUp .. => none
  | .congestionMark .. => none
  | .rateRecovery .. => none
  | .collInstanceRun .. => none
  | .collAbort .. => none
  | .gossipSnapshot .. => none
  | .freeRunTick .. => none
  | .gossipMessageArrive .. => none
  | .gossipEnquiry .. => none
  | .gossipDecisionLearned .. => none
  | .powerOn .. => none
  | .railTimeout .. => none
  | .powerOff .. => none
  | .bootStage .. => none
  | .currentSample .. => none
  | .thermalSustained .. => none
  | .thermalShutdown .. => none
  | .reset .. => none
  | .junctionAt105 .. => none
  | .junctionBelow100 .. => none
  | .hostRmaCompletion .. => none

/-- The units that CAPS may mark absent (00_scope.md R2, R3). -/
def Instr.needsGossip : Instr → Bool
  | .gadd _ | .grd _ | .gsprd _ | .gsync _ | .gctlStart _ | .gctlStop _ | .gctlRate _ | .gctlStep _ | .gmass _ => true
  | _ => false

/-- The field instructions (08_field_unit.md R187). -/
def Instr.needsField : Instr → Bool
  | .fbind _ | .fld _ | .fldg _ | .fst _ | .fstg _ | .fwt _ | .fdrn _ | .fclr _ => true
  | _ => false

/-- The instructions that stand only at the end of their clause (03_encoding.md R58). -/
def Instr.endsClause : Instr → Bool
  | .bra _ | .brx _ | .rcv _ | .call _ | .ret _ | .exit _ | .loop _ | .eret _ | .halt _ => true
  | _ => false

/-- Privileged instructions (18_traps.md R348). -/
def Instr.privileged : Instr → Bool
  | .sysr _ | .sysw _ | .ctxsvSave _ | .ctxsvRest _ => true
  | _ => false

end Sys2Proof
end

