-- ==== Sys2Proof/Machine/Legal.lean ====
section
/-!
DEFINITION. The checks on one instruction word taken alone: FN values, must-be-zero bits, operand
levels and hints (03_encoding.md R48 to R61). The checks that need the clause or the launch's limits
stand in Machine/Scanner.lean.
-/
namespace Sys2Proof

/-- Why a word is no legal instruction: the scanner's statuses for one word (03_encoding.md R61). -/
inductive Reject where
  /-- 0x01: a reserved opcode. -/
  | opReserved
  /-- 0x02: an FN value not listed for the opcode. -/
  | fnReserved
  /-- 0x03: a nonzero bit that must be zero, or a reserved MOD value (R94). -/
  | mbz
  /-- 0x04: an operand of a level that is illegal or excluded. -/
  | operand
  /-- 0x0C: a clause header where an instruction is due. -/
  | frame
  /-- 0x0D: a hint that does not fit its instruction. -/
  | hint
  deriving DecidableEq, Repr

/-- The status byte of R61. -/
def Reject.status : Reject → Nat
  | .opReserved => 0x01
  | .fnReserved => 0x02
  | .mbz => 0x03
  | .operand => 0x04
  | .frame => 0x0C
  | .hint => 0x0D

/-- A source of `bits` bits at the levels of 05_isa_arithmetic.md R93; the special sources are those
of R52. -/
def srcOk (bits : Nat) : Operand → Bool
  | .v _ => true
  | .b _ => bits ≤ 32
  | .h _ => bits ≤ 64
  | .s _ => bits ≤ 64
  | .special n => n.toNat ≤ 0x13 && (bits ≤ 64 || n = 0)
  | .const _ => bits ≤ 64

/-- A vector destination of `bits` bits (R51, R93). -/
def dstOk (isVar : Bool) (bits : Nat) : Operand → Bool
  | .v _ => true
  | .b _ => bits ≤ 32
  | .h _ => !isVar && bits ≤ 64
  | .s _ => false
  | .special n => n = 0
  | .const _ => false

/-- A source of an armature instruction (11_async_armature.md R244). -/
def armSrcOk (n : Nat) : Operand → Bool
  | .s _ => true
  | .special k => k.toNat ≤ 0x13 && k != 2 && k != 5 && (n ≤ 2 || k = 0)
  | .const _ => n ≤ 2
  | _ => false

/-- Whether an operand is at a level that its role admits. -/
def Role.levelOk (isVar : Bool) : Role → Operand → Bool
  | .unused, _ => true
  | .src n, o => srcOk n o
  | .srcPort n, o => srcOk n o
  | .srcRegs n port, o =>
    match o with
    | .v _ => true
    | _ => !port && n = 1 && srcOk 32 o
  | .dst n, o => dstOk isVar n o
  | .dstSrc n, o => dstOk true n o
  | .dstMem sz, o => dstOk true (memBits sz) o
  | .dstRegs n vOnly, o =>
    match o with
    | .v _ => true
    | .b _ => !vOnly && n = 1
    | _ => false
  | .armDst _, .s _ => true
  | .armDst _, _ => false
  | .armSrc n, o => armSrcOk n o
  | .lane, o =>
    match o with
    | .special k => k.toNat ≤ 0x13 && k != 2 && k != 5
    | _ => true
  | .sOnly _, .s _ => true
  | .sOnly _, _ => false
  | .sOrConst, .s _ => true
  | .sOrConst, .const _ => true
  | .sOrConst, _ => false
  | .branch, .v _ => true
  | .branch, .s _ => true
  | .branch, .h _ => true
  | .branch, _ => false
  | .run 0, _ => true
  | .run _, .v _ => true
  | .run _, _ => false

/-- Whether a field of this role names an operand at all. -/
def Role.used : Role → Bool
  | .unused => false
  | .run 0 => false
  | _ => true

/-- Whether a field of this role is a source: one that KA, KB or KC may mark (R54). -/
def Role.isSrc : Role → Bool
  | .src _ | .srcPort _ | .srcRegs _ _ | .armSrc _ | .lane | .sOnly _ | .sOrConst | .branch => true
  | .run n => n != 0
  | _ => false

/-- Whether the D field of this role is a destination. -/
def Role.isDst : Role → Bool
  | .dst _ | .dstSrc _ | .dstMem _ | .dstRegs _ _ | .armDst _ => true
  | _ => false

/-- The number of registers that an operand at the v or s level uses (R19). -/
def Role.count : Role → Nat
  | .unused => 0
  | .src n | .srcPort n | .dst n | .dstSrc n => (n + 31) / 32
  | .dstMem sz => (memBits sz + 31) / 32
  | .srcRegs n _ | .dstRegs n _ | .armDst n | .armSrc n | .sOnly n | .run n => n
  | .lane | .sOrConst => 1
  | .branch => 2

/-- Whether an instruction is of a variable-latency class (R44). -/
def Cls.isVar : Cls → Bool
  | .variable => true
  | _ => false

/-- The X kind T fields of CALL hold X zero (R48); every other X is the instruction's own. -/
def Instr.xOk : Instr → Bool
  | .call w => w.x = 0
  | _ => true

/-- Must-be-zero bits, and MOD values outside an entry's range (R48, R94). FS has no value 0b11 (R49). -/
def Instr.mbzOk (i : Instr) : Bool :=
  match i.shape, i.fields with
  | some sh, some f =>
    (sh.d.used || f.d = .zero) && (sh.a.used || f.a = .zero) && (sh.b.used || f.b = .zero)
      && (sh.c.used || f.c = .zero)
      && (f.mod &&& ~~~sh.mask) = 0
      && (!sh.cls.isVar || bitsAt (f.mod &&& sh.mask) 18 2 != 3)
      && sh.ok && i.xOk
  | _, _ => false

/-- Operand levels. -/
def Instr.levelsOk (i : Instr) : Bool :=
  match i.shape, i.fields with
  | some sh, some f =>
    let v := sh.cls.isVar
    sh.d.levelOk v f.d && sh.a.levelOk v f.a && sh.b.levelOk v f.b && sh.c.levelOk v f.c
  | _, _ => false

/-- Whether an operand names a buffer entry. -/
def Operand.isB : Operand → Bool
  | .b _ => true
  | _ => false

/-- KA, KB and KC on source fields, WT with a buffer destination (R54). Y is checked with the clause. -/
def Instr.hintOk (i : Instr) : Bool :=
  match i.shape, i.fields with
  | some sh, some f =>
    (!f.hint.ka || sh.a.isSrc) && (!f.hint.kb || sh.b.isSrc) && (!f.hint.kc || sh.c.isSrc)
      && (!f.hint.wt || (sh.d.isDst && f.d.isB))
  | _, _ => false

/-- The FN value is one that the opcode lists (R59). -/
def Instr.fnOk (i : Instr) : Bool :=
  match i.op, i.fields with
  | some (_, fns), some f => fns.contains f.fn.toNat
  | _, _ => false

/-- The lowest status that the word alone meets. -/
def Instr.reject (i : Instr) : Option Reject :=
  if !i.fnOk then some .fnReserved
  else if !i.mbzOk then some .mbz
  else if !i.levelsOk then some .operand
  else if !i.hintOk then some .hint
  else none

end Sys2Proof
end

