-- ==== Sys2Proof/WellFormed.lean ====
section
/-!
DEFINITION. A well-formed instruction: one whose word the scanner accepts taken alone (03_encoding.md
R48 to R61). An event of the part has no word and is not well formed in this sense.
-/
namespace Sys2Proof

/-- The word of `i` meets none of the scanner's conditions on one word. -/
def Instr.wf (i : Instr) : Bool := i.reject.isNone

end Sys2Proof
end

