-- ==== Sys2Proof/Decode.lean ====
section
/-!
DEFINITION. Decoding an instruction word and a clause header, total on any bits, and the encoder
(03_encoding.md R45 to R59). A word that is no legal instruction is rejected by name.
-/
namespace Sys2Proof

/-- The fields of a word before anything is made of them (R45). -/
structure Raw where
  op   : BitVec 8
  fn   : BitVec 4
  gn   : BitVec 1
  gp   : BitVec 3
  d    : BitVec 12
  a    : BitVec 12
  b    : BitVec 12
  hint : BitVec 12
  x    : Word
  deriving DecidableEq, Repr

/-- The word cut into its fields (R45). -/
def Raw.split (w : IWord) : Raw :=
  { op := w.extractLsb' 88 8, fn := w.extractLsb' 84 4, gn := w.extractLsb' 83 1, gp := w.extractLsb' 80 3,
    d := w.extractLsb' 68 12, a := w.extractLsb' 56 12, b := w.extractLsb' 44 12,
    hint := w.extractLsb' 32 12, x := w.extractLsb' 0 32 }

/-- The word with these fields (R45). -/
def Raw.join (r : Raw) : IWord :=
  r.op ++ r.fn ++ r.gn ++ r.gp ++ r.d ++ r.a ++ r.b ++ r.hint ++ r.x

/-- One bit as a Bool. -/
def bit1 (x : BitVec 1) : Bool := x = 1#1
/-- A Bool as one bit. -/
def ofBit (x : Bool) : BitVec 1 := BitVec.ofBool x

/-- What an operand field names, or why it names nothing (R50): a nonzero bit where a zero is
required, or level 0b11. -/
def operandOf (x : BitVec 12) : Except Reject Operand :=
  let hi : BitVec 4 := x.extractLsb' 8 4
  if hi = 0x0#4 then .ok (.v (x.extractLsb' 0 8))
  else if hi = 0x4#4 then (if x.extractLsb' 4 4 = 0#4 then .ok (.b (x.extractLsb' 0 4)) else .error .mbz)
  else if hi = 0x5#4 then (if x.extractLsb' 1 7 = 0#7 then .ok (.h (x.extractLsb' 0 1)) else .error .mbz)
  else if hi = 0x6#4 then (if x.extractLsb' 6 2 = 0#2 then .ok (.s (x.extractLsb' 0 6)) else .error .mbz)
  else if hi = 0x7#4 then .ok (.special (x.extractLsb' 0 8))
  else if hi = 0x8#4 then (if x.extractLsb' 6 2 = 0#2 then .ok (.const (x.extractLsb' 0 6)) else .error .mbz)
  else if x.extractLsb' 10 2 = 3#2 then .error .operand
  else .error .mbz

/-- The field that names an operand (R50). -/
def operandBits : Operand → BitVec 12
  | .v n => 0x0#4 ++ n
  | .b k => 0x4#4 ++ 0#4 ++ k
  | .h i => 0x5#4 ++ 0#7 ++ i
  | .s n => 0x6#4 ++ 0#2 ++ n
  | .special n => 0x7#4 ++ n
  | .const c => 0x8#4 ++ 0#2 ++ c

/-- The operand of a field; one that names nothing stands as a constant, and the word is rejected. -/
def operandOr (x : BitVec 12) : Operand :=
  match operandOf x with
  | .ok o => o
  | .error _ => .const 0x3F#6

/-- The hint field (R54). -/
def hintOf (x : BitVec 12) : Hint :=
  { y := bit1 (x.extractLsb' 11 1), stall := x.extractLsb' 8 3, ka := bit1 (x.extractLsb' 7 1),
    kb := bit1 (x.extractLsb' 6 1), kc := bit1 (x.extractLsb' 5 1), wt := bit1 (x.extractLsb' 4 1) }

/-- The bits of a hint (R54). -/
def hintBits (h : Hint) : BitVec 12 :=
  ofBit h.y ++ h.stall ++ ofBit h.ka ++ ofBit h.kb ++ ofBit h.kc ++ ofBit h.wt ++ 0#4

def Raw.guard (r : Raw) : Guard := { neg := bit1 r.gn, p := r.gp }

/-- The X kinds (R48). -/
def Raw.c (r : Raw) : CForm :=
  { g := r.guard, hint := hintOf r.hint, fn := r.fn, d := operandOr r.d, a := operandOr r.a,
    b := operandOr r.b, c := operandOr (r.x.extractLsb' 20 12), mod := r.x.extractLsb' 0 20 }
def Raw.i (r : Raw) : IForm :=
  { g := r.guard, hint := hintOf r.hint, fn := r.fn, d := operandOr r.d, a := operandOr r.a,
    b := operandOr r.b, imm := r.x }
def Raw.t (r : Raw) : TForm :=
  { g := r.guard, hint := hintOf r.hint, target := r.d ++ r.a ++ r.b, x := r.x }
def Raw.z (r : Raw) : ZForm := { g := r.guard, hint := hintOf r.hint }

/-- Opcodes 0x00 to 0x0F (R59). -/
def Raw.op0 (r : Raw) : Option Instr :=
  if r.op = 0x00#8 then some (.nop r.z)
  else if r.op = 0x01#8 then some (.iadd r.c)
  else if r.op = 0x02#8 then some (.isub r.c)
  else if r.op = 0x03#8 then some (.imul r.c)
  else if r.op = 0x04#8 then some (.imad r.c)
  else if r.op = 0x05#8 then some (.imadw r.c)
  else if r.op = 0x06#8 then some (.idiv r.c)
  else if r.op = 0x07#8 then some (.imnmx r.c)
  else if r.op = 0x08#8 then some (.iabs r.c)
  else if r.op = 0x09#8 then some (.lop r.c)
  else if r.op = 0x0A#8 then some (.lop3 r.c)
  else if r.op = 0x0B#8 then some (.shl r.c)
  else if r.op = 0x0C#8 then some (.shr r.c)
  else if r.op = 0x0D#8 then some (.rot r.c)
  else if r.op = 0x0E#8 then some (.shf r.c)
  else if r.op = 0x0F#8 then some (.bfx r.c)
  else none

/-- Opcodes 0x10 to 0x1F (R59). -/
def Raw.op1 (r : Raw) : Option Instr :=
  if r.op = 0x10#8 then some (.bfi r.c)
  else if r.op = 0x11#8 then some (.popc r.c)
  else if r.op = 0x12#8 then some (.clz r.c)
  else if r.op = 0x13#8 then some (.brev r.c)
  else if r.op = 0x14#8 then some (.prmb r.c)
  else if r.op = 0x15#8 then some (.iadd64 r.c)
  else if r.op = 0x16#8 then some (.lea r.c)
  else if r.op = 0x17#8 then some (.lea64 r.c)
  else if r.op = 0x18#8 then some (.mov r.c)
  else if r.op = 0x19#8 then some (.movi r.i)
  else if r.op = 0x1A#8 then some (.sel r.c)
  else if r.op = 0x1B#8 then some (.idp4 r.c)
  else if r.op = 0x1C#8 then some (.mix r.c)
  else none

/-- Opcodes 0x20 to 0x2F (R59). -/
def Raw.op2 (r : Raw) : Option Instr :=
  if r.op = 0x20#8 then some (.fadd r.c)
  else if r.op = 0x21#8 then some (.fmul r.c)
  else if r.op = 0x22#8 then some (.ffma r.c)
  else if r.op = 0x23#8 then some (.fmin r.c)
  else if r.op = 0x24#8 then some (.fmax r.c)
  else if r.op = 0x25#8 then some (.fdiv r.c)
  else if r.op = 0x26#8 then some (.fsqrt r.c)
  else if r.op = 0x27#8 then some (.frcp r.c)
  else if r.op = 0x28#8 then some (.frsq r.c)
  else if r.op = 0x29#8 then some (.fex2 r.c)
  else if r.op = 0x2A#8 then some (.flg2 r.c)
  else if r.op = 0x2B#8 then some (.fsinp r.c)
  else if r.op = 0x2C#8 then some (.fcosp r.c)
  else if r.op = 0x2D#8 then some (.frnd r.c)
  else if r.op = 0x2E#8 then some (.fscl r.c)
  else if r.op = 0x2F#8 then some (.fxtr r.c)
  else none

/-- Opcodes 0x30 to 0x3F (R59). -/
def Raw.op3 (r : Raw) : Option Instr :=
  if r.op = 0x30#8 then some (.fcls r.c)
  else if r.op = 0x31#8 then some (.fdot2 r.c)
  else none

/-- Opcodes 0x40 to 0x4F (R59). -/
def Raw.op4 (r : Raw) : Option Instr :=
  if r.op = 0x40#8 then some (.cvti r.c)
  else if r.op = 0x41#8 then some (.cvtf r.c)
  else if r.op = 0x42#8 then some (.cvtif r.c)
  else if r.op = 0x43#8 then some (.cvtfi r.c)
  else if r.op = 0x44#8 then some (if r.fn = 1#4 then .cvtnDec r.c else .cvtnEnc r.c)
  else if r.op = 0x45#8 then some (if r.fn = 1#4 then .cvtwFp r.c else .cvtwFx r.c)
  else if r.op = 0x46#8 then some (.srnd r.c)
  else if r.op = 0x47#8 then some (.rand r.c)
  else if r.op = 0x48#8 then some (.pack r.c)
  else if r.op = 0x49#8 then some (.unpk r.c)
  else none

/-- Opcodes 0x50 to 0x5F (R59). -/
def Raw.op5 (r : Raw) : Option Instr :=
  if r.op = 0x50#8 then some (.isetp r.c)
  else if r.op = 0x51#8 then some (.fsetp r.c)
  else if r.op = 0x52#8 then some (.plop r.c)
  else if r.op = 0x53#8 then some (if r.fn = 1#4 then .pmovV2p r.c else .pmovP2v r.c)
  else if r.op = 0x54#8 then some (.vote r.c)
  else if r.op = 0x55#8 then some (.shfl r.c)
  else if r.op = 0x56#8 then some (.wred r.c)
  else if r.op = 0x57#8 then some (.wfred r.c)
  else if r.op = 0x58#8 then some (.wscan r.c)
  else if r.op = 0x59#8 then some (.match r.c)
  else if r.op = 0x5A#8 then some (.s2v r.c)
  else if r.op = 0x5B#8 then some (if r.fn = 1#4 then .flagsClr r.c else .flagsRd r.c)
  else if r.op = 0x5D#8 then some (.prio r.c)
  else none

/-- Opcodes 0x60 to 0x6F (R59). -/
def Raw.op6 (r : Raw) : Option Instr :=
  if r.op = 0x60#8 then some (.bra r.t)
  else if r.op = 0x61#8 then some (.brx r.c)
  else if r.op = 0x62#8 then some (.rcv r.z)
  else if r.op = 0x63#8 then some (.call r.t)
  else if r.op = 0x64#8 then some (.ret r.z)
  else if r.op = 0x65#8 then some (.exit r.z)
  else if r.op = 0x66#8 then some (.loop r.i)
  else if r.op = 0x67#8 then some (.bkpt r.i)
  else none

/-- Opcodes 0x70 to 0x7F (R59). -/
def Raw.op7 (r : Raw) : Option Instr :=
  if r.op = 0x70#8 then some (.ld r.c)
  else if r.op = 0x71#8 then some (.st r.c)
  else if r.op = 0x72#8 then some (.opf r.c)
  else if r.op = 0x73#8 then some (.prf r.c)
  else if r.op = 0x74#8 then some (.cmnt r.c)
  else if r.op = 0x75#8 then some (.fence r.c)
  else none

/-- Opcodes 0x80 to 0x8F (R59). -/
def Raw.op8 (r : Raw) : Option Instr :=
  if r.op = 0x80#8 then some (.axch r.c)
  else if r.op = 0x81#8 then some (.acas r.c)
  else if r.op = 0x82#8 then some (.aadd r.c)
  else if r.op = 0x83#8 then some (.amnmx r.c)
  else if r.op = 0x84#8 then some (.alop r.c)
  else if r.op = 0x85#8 then some (.agadd r.c)
  else if r.op = 0x86#8 then some (.ainc r.c)
  else none

/-- Opcodes 0x90 to 0x9F (R59). -/
def Raw.op9 (r : Raw) : Option Instr :=
  if r.op = 0x90#8 then some (.fbind r.c)
  else if r.op = 0x91#8 then some (.fld r.c)
  else if r.op = 0x92#8 then some (.fldg r.c)
  else if r.op = 0x93#8 then some (.fst r.c)
  else if r.op = 0x94#8 then some (.fstg r.c)
  else if r.op = 0x95#8 then some (.fwt r.c)
  else if r.op = 0x96#8 then some (.fdrn r.c)
  else if r.op = 0x97#8 then some (.fclr r.c)
  else none

/-- Opcodes 0xA0 to 0xAF (R59). -/
def Raw.opA (r : Raw) : Option Instr :=
  if r.op = 0xA0#8 then some (.gang r.c)
  else if r.op = 0xA1#8 then some (.mma r.c)
  else if r.op = 0xA2#8 then some (.mldb r.c)
  else if r.op = 0xA3#8 then some (.mldc r.c)
  else if r.op = 0xA4#8 then some (.mdrn r.c)
  else if r.op = 0xA5#8 then some (.mstp r.c)
  else if r.op = 0xA6#8 then some (.mclr r.c)
  else if r.op = 0xA7#8 then some (.mperm r.c)
  else if r.op = 0xA8#8 then some (.mred r.c)
  else if r.op = 0xA9#8 then some (.mtrn r.c)
  else if r.op = 0xAA#8 then some (.mhist r.c)
  else none

/-- Opcodes 0xB0 to 0xBF (R59). -/
def Raw.opB (r : Raw) : Option Instr :=
  if r.op = 0xB0#8 then some (.cpy r.c)
  else if r.op = 0xB1#8 then some (.cpyb r.c)
  else if r.op = 0xB2#8 then some (.bclose r.c)
  else if r.op = 0xB3#8 then some (.bwait r.c)
  else if r.op = 0xB4#8 then some (if r.fn = 1#4 then .barWait r.c else if r.fn = 2#4 then .barSync r.c else .barArrive r.c)
  else if r.op = 0xB5#8 then some (.barx r.c)
  else if r.op = 0xB6#8 then some (if r.fn = 1#4 then .cbarWait r.c else if r.fn = 2#4 then .cbarSync r.c else .cbarArrive r.c)
  else if r.op = 0xB7#8 then some (.sleep r.c)
  else if r.op = 0xB8#8 then some (.wake r.c)
  else none

/-- Opcodes 0xC0 to 0xCF (R59). -/
def Raw.opC (r : Raw) : Option Instr :=
  if r.op = 0xC0#8 then some (.smov r.c)
  else if r.op = 0xC1#8 then some (.salu r.c)
  else if r.op = 0xC2#8 then some (.ssetp r.c)
  else if r.op = 0xC3#8 then some (.sld r.c)
  else if r.op = 0xC4#8 then some (.sst r.c)
  else if r.op = 0xC5#8 then some (.sbr r.c)
  else if r.op = 0xC6#8 then some (if r.fn = 1#4 then .sclaimRel r.c else .sclaimClaim r.c)
  else if r.op = 0xC7#8 then some (.v2s r.c)
  else if r.op = 0xC8#8 then some (if r.x.getLsbD 4 then .shpwMk r.c else .shpwWr r.c)
  else if r.op = 0xC9#8 then some (if r.x.extractLsb' 0 2 = 1#2 then .lsclSet r.c else if r.x.extractLsb' 0 2 = 2#2 then .lsclUpd r.c else .lsclRd r.c)
  else if r.op = 0xCA#8 then some (if r.fn = 1#4 then .ovftClr r.c else .ovftRd r.c)
  else none

/-- Opcodes 0xD0 to 0xDF (R59). -/
def Raw.opD (r : Raw) : Option Instr :=
  if r.op = 0xD0#8 then some (.gadd r.c)
  else if r.op = 0xD1#8 then some (.grd r.c)
  else if r.op = 0xD2#8 then some (.gsprd r.c)
  else if r.op = 0xD3#8 then some (.gsync r.c)
  else if r.op = 0xD4#8 then some (if r.fn = 1#4 then .gctlStop r.c else if r.fn = 2#4 then .gctlRate r.c else if r.fn = 3#4 then .gctlStep r.c else .gctlStart r.c)
  else if r.op = 0xD5#8 then some (.coll r.c)
  else if r.op = 0xD6#8 then some (.gmass r.c)
  else none

/-- Opcodes 0xE0 to 0xEF (R59). -/
def Raw.opE (r : Raw) : Option Instr :=
  if r.op = 0xE0#8 then some (.trap r.i)
  else if r.op = 0xE1#8 then some (.eret r.z)
  else if r.op = 0xE2#8 then some (.halt r.z)
  else if r.op = 0xE3#8 then some (.mqchk r.c)
  else if r.op = 0xE4#8 then some (if r.fn = 1#4 then .shashClr r.c else .shashSet r.c)
  else if r.op = 0xE6#8 then some (.sysr r.c)
  else if r.op = 0xE7#8 then some (.sysw r.c)
  else if r.op = 0xE8#8 then some (if r.fn = 1#4 then .ctxsvRest r.c else .ctxsvSave r.c)
  else none

/-- The instruction that the opcode names, whatever its fields hold (R59). -/
def Raw.instr (r : Raw) : Option Instr :=
  let h : BitVec 4 := r.op.extractLsb' 4 4
  if h = 0x0#4 then r.op0
  else if h = 0x1#4 then r.op1
  else if h = 0x2#4 then r.op2
  else if h = 0x3#4 then r.op3
  else if h = 0x4#4 then r.op4
  else if h = 0x5#4 then r.op5
  else if h = 0x6#4 then r.op6
  else if h = 0x7#4 then r.op7
  else if h = 0x8#4 then r.op8
  else if h = 0x9#4 then r.op9
  else if h = 0xA#4 then r.opA
  else if h = 0xB#4 then r.opB
  else if h = 0xC#4 then r.opC
  else if h = 0xD#4 then r.opD
  else if h = 0xE#4 then r.opE
  else none

/-- The operand fields of the word, C included for X kind C; a T word has none (R48). -/
def Raw.operandFields (r : Raw) : Instr → List (BitVec 12)
  | .bra _ | .call _ => []
  | .movi _ | .loop _ | .bkpt _ | .trap _ => [r.d, r.a, r.b]
  | _ => [r.d, r.a, r.b, r.x.extractLsb' 20 12]

/-- X of a Z word is zero, and so are its operand fields (R48). -/
def Raw.zOk (r : Raw) : Instr → Bool
  | .nop _ | .rcv _ | .ret _ | .exit _ | .eret _ | .halt _ => r.d = 0 && r.a = 0 && r.b = 0 && r.x = 0
  | _ => true

/-- A field with a nonzero bit where a zero is required (R50). -/
def badPad (x : BitVec 12) : Bool :=
  match operandOf x with
  | .error .mbz => true
  | _ => false

/-- A field at the illegal level 0b11 (R50). -/
def badLevel (x : BitVec 12) : Bool :=
  match operandOf x with
  | .error .operand => true
  | _ => false

/-- The FN value is one that the opcode lists (R59). -/
def Raw.fnOk (r : Raw) (i : Instr) : Bool :=
  match i.op with
  | some (_, fns) => fns.contains r.fn.toNat
  | none => false

/-- Decodes one instruction word, with the lowest status where it is rejected (R61). -/
def decodeWord (w : IWord) : Except Reject Instr :=
  let r := Raw.split w
  if r.op = 0xF8#8 then .error .frame
  else match r.instr with
    | none => .error .opReserved
    | some i =>
      if !r.fnOk i then .error .fnReserved
      else if r.hint.extractLsb' 0 4 != 0#4 || (r.operandFields i).any badPad || !r.zOk i || !i.mbzOk then .error .mbz
      else if (r.operandFields i).any badLevel || !i.levelsOk then .error .operand
      else if !i.hintOk then .error .hint
      else .ok i

/-- Decodes one word at run time. -/
def decode (w : IWord) : Option Instr :=
  match decodeWord w with
  | .ok i => some i
  | .error _ => none

/-- Decodes a clause header: OP 0xF8 (R56). -/
def decodeHeader (w : IWord) : Option Header :=
  if w.extractLsb' 88 8 = 0xF8#8 then
    some { len := w.extractLsb' 84 4, wait := w.extractLsb' 72 12, e1 := bit1 (w.extractLsb' 71 1),
           f1 := w.extractLsb' 67 4, e2 := bit1 (w.extractLsb' 66 1), f2 := w.extractLsb' 62 4,
           yp := bit1 (w.extractLsb' 61 1), rh := bit1 (w.extractLsb' 60 1) }
  else none

/-- The word of a clause header (R56). -/
def encodeHeader (h : Header) : IWord :=
  0xF8#8 ++ h.len ++ h.wait ++ ofBit h.e1 ++ h.f1 ++ ofBit h.e2 ++ h.f2 ++ ofBit h.yp ++ ofBit h.rh ++ 0#60

/-- The fields of a word of each X kind (R45, R48). -/
def CForm.raw (op : BitVec 8) (w : CForm) : Raw :=
  { op := op, fn := w.fn, gn := ofBit w.g.neg, gp := w.g.p, d := operandBits w.d, a := operandBits w.a,
    b := operandBits w.b, hint := hintBits w.hint, x := operandBits w.c ++ w.mod }
def IForm.raw (op : BitVec 8) (w : IForm) : Raw :=
  { op := op, fn := w.fn, gn := ofBit w.g.neg, gp := w.g.p, d := operandBits w.d, a := operandBits w.a,
    b := operandBits w.b, hint := hintBits w.hint, x := w.imm }
def TForm.raw (op : BitVec 8) (w : TForm) : Raw :=
  { op := op, fn := 0#4, gn := ofBit w.g.neg, gp := w.g.p, d := w.target.extractLsb' 24 12,
    a := w.target.extractLsb' 12 12, b := w.target.extractLsb' 0 12, hint := hintBits w.hint, x := w.x }
def ZForm.raw (op : BitVec 8) (w : ZForm) : Raw :=
  { op := op, fn := 0#4, gn := ofBit w.g.neg, gp := w.g.p, d := 0#12, a := 0#12, b := 0#12,
    hint := hintBits w.hint, x := 0#32 }

/-- The fields of an instruction's word; an event has none (R59). -/
def Instr.raw : Instr → Option Raw
  | .nop w => some (w.raw 0x00#8)
  | .iadd w => some (w.raw 0x01#8)
  | .isub w => some (w.raw 0x02#8)
  | .imul w => some (w.raw 0x03#8)
  | .imad w => some (w.raw 0x04#8)
  | .imadw w => some (w.raw 0x05#8)
  | .idiv w => some (w.raw 0x06#8)
  | .imnmx w => some (w.raw 0x07#8)
  | .iabs w => some (w.raw 0x08#8)
  | .lop w => some (w.raw 0x09#8)
  | .lop3 w => some (w.raw 0x0A#8)
  | .shl w => some (w.raw 0x0B#8)
  | .shr w => some (w.raw 0x0C#8)
  | .rot w => some (w.raw 0x0D#8)
  | .shf w => some (w.raw 0x0E#8)
  | .bfx w => some (w.raw 0x0F#8)
  | .bfi w => some (w.raw 0x10#8)
  | .popc w => some (w.raw 0x11#8)
  | .clz w => some (w.raw 0x12#8)
  | .brev w => some (w.raw 0x13#8)
  | .prmb w => some (w.raw 0x14#8)
  | .iadd64 w => some (w.raw 0x15#8)
  | .lea w => some (w.raw 0x16#8)
  | .lea64 w => some (w.raw 0x17#8)
  | .mov w => some (w.raw 0x18#8)
  | .movi w => some (w.raw 0x19#8)
  | .sel w => some (w.raw 0x1A#8)
  | .idp4 w => some (w.raw 0x1B#8)
  | .mix w => some (w.raw 0x1C#8)
  | .fadd w => some (w.raw 0x20#8)
  | .fmul w => some (w.raw 0x21#8)
  | .ffma w => some (w.raw 0x22#8)
  | .fdot2 w => some (w.raw 0x31#8)
  | .fmin w => some (w.raw 0x23#8)
  | .fmax w => some (w.raw 0x24#8)
  | .fdiv w => some (w.raw 0x25#8)
  | .fsqrt w => some (w.raw 0x26#8)
  | .frcp w => some (w.raw 0x27#8)
  | .frsq w => some (w.raw 0x28#8)
  | .fex2 w => some (w.raw 0x29#8)
  | .flg2 w => some (w.raw 0x2A#8)
  | .fsinp w => some (w.raw 0x2B#8)
  | .fcosp w => some (w.raw 0x2C#8)
  | .frnd w => some (w.raw 0x2D#8)
  | .fscl w => some (w.raw 0x2E#8)
  | .fxtr w => some (w.raw 0x2F#8)
  | .fcls w => some (w.raw 0x30#8)
  | .cvti w => some (w.raw 0x40#8)
  | .cvtf w => some (w.raw 0x41#8)
  | .cvtif w => some (w.raw 0x42#8)
  | .cvtfi w => some (w.raw 0x43#8)
  | .cvtnEnc w => some (w.raw 0x44#8)
  | .cvtnDec w => some (w.raw 0x44#8)
  | .cvtwFx w => some (w.raw 0x45#8)
  | .cvtwFp w => some (w.raw 0x45#8)
  | .srnd w => some (w.raw 0x46#8)
  | .rand w => some (w.raw 0x47#8)
  | .pack w => some (w.raw 0x48#8)
  | .unpk w => some (w.raw 0x49#8)
  | .isetp w => some (w.raw 0x50#8)
  | .fsetp w => some (w.raw 0x51#8)
  | .plop w => some (w.raw 0x52#8)
  | .pmovP2v w => some (w.raw 0x53#8)
  | .pmovV2p w => some (w.raw 0x53#8)
  | .vote w => some (w.raw 0x54#8)
  | .shfl w => some (w.raw 0x55#8)
  | .wred w => some (w.raw 0x56#8)
  | .wscan w => some (w.raw 0x58#8)
  | .wfred w => some (w.raw 0x57#8)
  | .match w => some (w.raw 0x59#8)
  | .s2v w => some (w.raw 0x5A#8)
  | .flagsRd w => some (w.raw 0x5B#8)
  | .flagsClr w => some (w.raw 0x5B#8)
  | .prio w => some (w.raw 0x5D#8)
  | .bra w => some (w.raw 0x60#8)
  | .brx w => some (w.raw 0x61#8)
  | .rcv w => some (w.raw 0x62#8)
  | .call w => some (w.raw 0x63#8)
  | .ret w => some (w.raw 0x64#8)
  | .exit w => some (w.raw 0x65#8)
  | .loop w => some (w.raw 0x66#8)
  | .bkpt w => some (w.raw 0x67#8)
  | .ld w => some (w.raw 0x70#8)
  | .st w => some (w.raw 0x71#8)
  | .prf w => some (w.raw 0x73#8)
  | .opf w => some (w.raw 0x72#8)
  | .cmnt w => some (w.raw 0x74#8)
  | .fence w => some (w.raw 0x75#8)
  | .axch w => some (w.raw 0x80#8)
  | .acas w => some (w.raw 0x81#8)
  | .aadd w => some (w.raw 0x82#8)
  | .amnmx w => some (w.raw 0x83#8)
  | .alop w => some (w.raw 0x84#8)
  | .agadd w => some (w.raw 0x85#8)
  | .ainc w => some (w.raw 0x86#8)
  | .fbind w => some (w.raw 0x90#8)
  | .fld w => some (w.raw 0x91#8)
  | .fldg w => some (w.raw 0x92#8)
  | .fst w => some (w.raw 0x93#8)
  | .fstg w => some (w.raw 0x94#8)
  | .fwt w => some (w.raw 0x95#8)
  | .fdrn w => some (w.raw 0x96#8)
  | .fclr w => some (w.raw 0x97#8)
  | .gang w => some (w.raw 0xA0#8)
  | .mma w => some (w.raw 0xA1#8)
  | .mldb w => some (w.raw 0xA2#8)
  | .mldc w => some (w.raw 0xA3#8)
  | .mclr w => some (w.raw 0xA6#8)
  | .mdrn w => some (w.raw 0xA4#8)
  | .mstp w => some (w.raw 0xA5#8)
  | .mperm w => some (w.raw 0xA7#8)
  | .mred w => some (w.raw 0xA8#8)
  | .mtrn w => some (w.raw 0xA9#8)
  | .mhist w => some (w.raw 0xAA#8)
  | .cpy w => some (w.raw 0xB0#8)
  | .cpyb w => some (w.raw 0xB1#8)
  | .bclose w => some (w.raw 0xB2#8)
  | .bwait w => some (w.raw 0xB3#8)
  | .barArrive w => some (w.raw 0xB4#8)
  | .barWait w => some (w.raw 0xB4#8)
  | .barSync w => some (w.raw 0xB4#8)
  | .barx w => some (w.raw 0xB5#8)
  | .sleep w => some (w.raw 0xB7#8)
  | .wake w => some (w.raw 0xB8#8)
  | .smov w => some (w.raw 0xC0#8)
  | .salu w => some (w.raw 0xC1#8)
  | .ssetp w => some (w.raw 0xC2#8)
  | .sld w => some (w.raw 0xC3#8)
  | .sst w => some (w.raw 0xC4#8)
  | .sbr w => some (w.raw 0xC5#8)
  | .v2s w => some (w.raw 0xC7#8)
  | .shpwWr w => some (w.raw 0xC8#8)
  | .shpwMk w => some (w.raw 0xC8#8)
  | .lsclRd w => some (w.raw 0xC9#8)
  | .lsclSet w => some (w.raw 0xC9#8)
  | .lsclUpd w => some (w.raw 0xC9#8)
  | .sclaimClaim w => some (w.raw 0xC6#8)
  | .sclaimRel w => some (w.raw 0xC6#8)
  | .ovftRd w => some (w.raw 0xCA#8)
  | .ovftClr w => some (w.raw 0xCA#8)
  | .cbarArrive w => some (w.raw 0xB6#8)
  | .cbarWait w => some (w.raw 0xB6#8)
  | .cbarSync w => some (w.raw 0xB6#8)
  | .gadd w => some (w.raw 0xD0#8)
  | .grd w => some (w.raw 0xD1#8)
  | .gsprd w => some (w.raw 0xD2#8)
  | .gsync w => some (w.raw 0xD3#8)
  | .gctlStart w => some (w.raw 0xD4#8)
  | .gctlStop w => some (w.raw 0xD4#8)
  | .gctlRate w => some (w.raw 0xD4#8)
  | .gctlStep w => some (w.raw 0xD4#8)
  | .gmass w => some (w.raw 0xD6#8)
  | .coll w => some (w.raw 0xD5#8)
  | .trap w => some (w.raw 0xE0#8)
  | .eret w => some (w.raw 0xE1#8)
  | .halt w => some (w.raw 0xE2#8)
  | .mqchk w => some (w.raw 0xE3#8)
  | .shashSet w => some (w.raw 0xE4#8)
  | .shashClr w => some (w.raw 0xE4#8)
  | .sysr w => some (w.raw 0xE6#8)
  | .sysw w => some (w.raw 0xE7#8)
  | .ctxsvSave w => some (w.raw 0xE8#8)
  | .ctxsvRest w => some (w.raw 0xE8#8)
  | .clauseStart .. => none
  | .deschedule .. => none
  | .packEnter .. => none
  | .warpUrgent .. => none
  | .varComplete .. => none
  | .operationFault .. => none
  | .storePerform .. => none
  | .atomicGroup .. => none
  | .mqGateAdmit .. => none
  | .l2Evict .. => none
  | .pageWalk .. => none
  | .fieldPair .. => none
  | .mmaEngineEntry .. => none
  | .gangRendezvous .. => none
  | .gangBroken .. => none
  | .copyPieceLand .. => none
  | .waitPollTimer .. => none
  | .sleepTimeout .. => none
  | .sleepComplete .. => none
  | .batchRetire .. => none
  | .cpybFinish .. => none
  | .cpybRecord .. => none
  | .remoteCpybArrive .. => none
  | .cpybNoRoute .. => none
  | .warpStop .. => none
  | .haltBroadcast .. => none
  | .warpSlotFree .. => none
  | .handlerEntry .. => none
  | .blockResume .. => none
  | .faultTimeout .. => none
  | .rmaWrite .. => none
  | .rmaRead .. => none
  | .ueAtomic .. => none
  | .doorbellWrite .. => none
  | .packetFetch .. => none
  | .launchPacket .. => none
  | .tlbInvalidatePacket .. => none
  | .codeMap .. => none
  | .codeUnmap .. => none
  | .completionRecord .. => none
  | .blockPlace .. => none
  | .launchComplete .. => none
  | .partSet .. => none
  | .partClear .. => none
  | .zeroisation .. => none
  | .ctxSet .. => none
  | .runlistWrite .. => none
  | .ringRestart .. => none
  | .kill .. => none
  | .tlbinv .. => none
  | .fwLoad .. => none
  | .attest .. => none
  | .mcReset .. => none
  | .sliceExpiry .. => none
  | .higherClassReady .. => none
  | .graceExpiry .. => none
  | .killtExpiry .. => none
  | .contextSave .. => none
  | .contextRestore .. => none
  | .engineDrained .. => none
  | .killComplete .. => none
  | .softErrorCorrected .. => none
  | .uncorrectableError .. => none
  | .l1TagError .. => none
  | .l2TagOrEvictError .. => none
  | .scrub .. => none
  | .flitReceive .. => none
  | .linkDown .. => none
  | .linkUp .. => none
  | .congestionMark .. => none
  | .rateRecovery .. => none
  | .collInstanceRun .. => none
  | .collAbort .. => none
  | .gossipSnapshot .. => none
  | .freeRunTick .. => none
  | .gossipMessageArrive .. => none
  | .gossipEnquiry .. => none
  | .gossipDecisionLearned .. => none
  | .powerOn .. => none
  | .railTimeout .. => none
  | .powerOff .. => none
  | .bootStage .. => none
  | .currentSample .. => none
  | .thermalSustained .. => none
  | .thermalShutdown .. => none
  | .reset .. => none
  | .junctionAt105 .. => none
  | .junctionBelow100 .. => none
  | .hostRmaCompletion .. => none

/-- The word of an instruction (R45). -/
def encode (i : Instr) : Option IWord := i.raw.map Raw.join

/-- The three words of an instruction word's bytes, the lowest address first (R45). -/
def wordOfBytes (bs : List Byte) : IWord := BitVec.ofNat 96 (leNat bs)

/-- The bytes of a word as memory holds them: bits [31:0] at its address, little-endian (R45). -/
def bytesOfWord (w : IWord) : List Byte := leBytes w.toNat 12

/-- The instruction whose table bits are `w`, read through the decoder from the bytes that memory
holds: every bit above `nbits` is zero. -/
def decodeTableWord (nbits w : Nat) : Option Instr :=
  decode (wordOfBytes (bytesOfWord (BitVec.ofNat 96 (w % 2 ^ nbits))))

end Sys2Proof
end

