-- ==== Sys2Proof/Machine/Numbers.lean ====
section
/-!
DEFINITION. Number formats and rounding (04_numbers.md R69 to R85): exact values, one rounding into a
named format, narrow formats, block scales and the FX64 grid.
-/
namespace Sys2Proof.Num

/-- The exceptions in FLAGS order: invalid, division by zero, overflow, underflow, inexact (R87). -/
abbrev Exc := BitVec 5
def nv : Exc := 1#5
def dz : Exc := 2#5
def ovf : Exc := 4#5
def unf : Exc := 8#5
def nx : Exc := 16#5

/-- An IEEE format (R69). -/
structure Fmt where
  p    : Nat
  emin : Int
  emax : Int
  eb   : Nat
  deriving DecidableEq, Repr

def f64 : Fmt := { p := 53, emin := -1022, emax := 1023, eb := 11 }
def f32 : Fmt := { p := 24, emin := -126, emax := 127, eb := 8 }
def f16 : Fmt := { p := 11, emin := -14, emax := 15, eb := 5 }
def bf16 : Fmt := { p := 8, emin := -126, emax := 127, eb := 8 }

/-- The bits of an encoding. -/
def Fmt.bits (f : Fmt) : Nat := f.p + f.eb
/-- The fraction bits. -/
def Fmt.fb (f : Fmt) : Nat := f.p - 1
/-- The random word's bits (R73). -/
def Fmt.rbits (f : Fmt) : Nat := if f.bits = 16 then 16 else 32
/-- The canonical NaN (R69). -/
def Fmt.qnan (f : Fmt) : Nat := (2 ^ f.eb - 1) * 2 ^ f.fb + 2 ^ (f.fb - 1)
/-- A signed infinity. -/
def Fmt.inf (f : Fmt) (neg : Bool) : Nat := (if neg then 2 ^ (f.bits - 1) else 0) + (2 ^ f.eb - 1) * 2 ^ f.fb
/-- The largest finite value of a sign. -/
def Fmt.max (f : Fmt) (neg : Bool) : Nat := f.inf neg - 1
/-- A signed zero. -/
def Fmt.zero (f : Fmt) (neg : Bool) : Nat := if neg then 2 ^ (f.bits - 1) else 0

/-- An exact value; a NaN keeps its sign and its `fb` fraction bits (R71). A finite value is
(−1)^neg × m × 2^e. -/
inductive Val where
  | nan (neg : Bool) (frac fb : Nat)
  | inf (neg : Bool)
  | fin (neg : Bool) (m : Nat) (e : Int)
  deriving DecidableEq, Repr

def Val.zero (neg : Bool) : Val := .fin neg 0 0
def Val.one : Val := .fin false 1 0
/-- The canonical quiet NaN, which a narrow format or a NaN scale reads as (R78, R81). -/
def Val.cnan : Val := .nan false (2 ^ 51) 52

def Val.isNan : Val → Bool
  | .nan .. => true
  | _ => false
def Val.isInf : Val → Bool
  | .inf _ => true
  | _ => false
def Val.isSnan : Val → Bool
  | .nan _ frac fb => !frac.testBit (fb - 1)
  | _ => false
def Val.isZero : Val → Bool
  | .fin _ m _ => m = 0
  | _ => false
def Val.neg? : Val → Bool
  | .nan n _ _ => n
  | .inf n => n
  | .fin n _ _ => n
def Val.negate : Val → Val
  | .nan n a b => .nan n a b
  | .inf n => .inf (!n)
  | .fin n m e => .fin (!n) m e

/-- floor(log2) of a finite nonzero magnitude m × 2^e. -/
def topExp (m : Nat) (e : Int) : Int := (Nat.log2 m : Int) + e

/-- The value of an encoding (R69). -/
def decodeF (f : Fmt) (x : Nat) : Val :=
  let x := x % 2 ^ f.bits
  let neg := x.testBit (f.bits - 1)
  let e := (x / 2 ^ f.fb) % 2 ^ f.eb
  let m := x % 2 ^ f.fb
  if e = 2 ^ f.eb - 1 then (if m = 0 then .inf neg else .nan neg m f.fb)
  else if e = 0 then .fin neg m (f.emin - f.fb)
  else .fin neg (2 ^ f.fb + m) ((e : Int) - f.emax - f.fb)

/-- A subnormal input read as zero of its sign (R74). -/
def flush (f : Fmt) (ftz : Bool) : Val → Val
  | .fin n m e => if ftz && m != 0 && topExp m e < f.emin then .zero n else .fin n m e
  | v => v

/-- Rounding directions (R72). -/
inductive Rm where
  | rn | rz | ru | rd | sr
  deriving DecidableEq, Repr

/-- RM as coded, 0 taking MODE.RND (R72, R86). -/
def rmOf (rm mode : Nat) : Rm :=
  if rm = 1 then .rn else if rm = 2 then .rz else if rm = 3 then .ru else if rm = 4 then .rd
  else if rm = 5 then .sr
  else if mode % 4 = 0 then .rn else if mode % 4 = 1 then .rz else if mode % 4 = 2 then .ru else .rd

/-- How an operation rounds: the direction, the gradient class (R75), FTZ on the result (R74), the
random word of .sr (R73), and another random source for the gradient class where an entry names one. -/
structure Rnd where
  rm   : Rm
  gr   : Bool
  ftz  : Bool
  cnan : Bool
  rand : Nat
  grand : Option Nat
  deriving DecidableEq, Repr

/-- The magnitude m × 2^e cut at 2^q: the multiple below it, the rest, and the number of bits cut. -/
def cut (m : Nat) (e q : Int) : Nat × Nat × Nat :=
  if q ≤ e then (m * 2 ^ (e - q).toNat, 0, 0)
  else
    let s := (q - e).toNat
    (m / 2 ^ s, m % 2 ^ s, s)

/-- Whether a magnitude with rest `r` of `s` cut bits above the multiple `t` rounds up (R72, R73). -/
def roundsUp (rm : Rm) (neg : Bool) (t r s rand n : Nat) : Bool :=
  r != 0 &&
  match rm with
  | .rn => decide (2 ^ s < 2 * r) || (decide (2 * r = 2 ^ s) && t % 2 = 1)
  | .rz => false
  | .ru => !neg
  | .rd => neg
  | .sr => decide (2 ^ n ≤ r * 2 ^ n / 2 ^ s + rand % 2 ^ n)

/-- The multiple of 2^q that m × 2^e rounds to, and whether rounding changed it. -/
def roundAt (rm : Rm) (neg : Bool) (m : Nat) (e q : Int) (rand n : Nat) : Nat × Bool :=
  let (t, r, s) := cut m e q
  (if roundsUp rm neg t r s rand n then t + 1 else t, r != 0)

/-- RAND (05_isa_arithmetic.md R113). -/
def rand32 (a b key : Nat) : Nat :=
  let w := 2 ^ 32
  let h := (Nat.xor (a % w) (key % w) + 0x9E3779B9 * (b % w)) % w
  let h := Nat.xor h (h / 2 ^ 16)
  let h := 0x85EBCA6B * h % w
  let h := Nat.xor h (h / 2 ^ 13)
  let h := 0xC2B2AE35 * h % w
  Nat.xor h (h / 2 ^ 16)

/-- The default random word of the gradient class: the top n bits of RAND of D, T and the key (R75). -/
def gradWord (m : Nat) (e q : Int) (n : Nat) : Nat :=
  let (t, r, s) := cut m e q
  rand32 (2 ^ 32 * r / 2 ^ s) t 0x6A09E667 / 2 ^ (32 - n)

/-- The encoding of t × 2^q, a value of the format's grid. -/
def encodeF (f : Fmt) (neg : Bool) (t : Nat) (q : Int) : Nat :=
  let s := f.zero neg
  if t = 0 then s
  else if topExp t q < f.emin then s + (cut t q (f.emin - f.fb)).1
  else
    let x := topExp t q
    s + (x + f.emax).toNat * 2 ^ f.fb + ((cut t q (x - f.fb)).1 - 2 ^ f.fb)

/-- One rounding of the nonzero value (−1)^neg × m × 2^e into a format (R70, R73 to R75, R87). -/
def roundF (f : Fmt) (k : Rnd) (neg : Bool) (m : Nat) (e : Int) : Nat × Exc :=
  let x := topExp m e
  let tiny := decide (x < f.emin)
  if m = 0 then (f.zero neg, 0#5)
  else if tiny && k.ftz && !k.gr then (f.zero neg, unf ||| nx)
  else
    let q := (if tiny then f.emin else x) - f.fb
    let n := f.rbits
    let g := tiny && k.gr
    let rm := if g then .sr else k.rm
    let rand := if g && k.rm != .sr then k.grand.getD (gradWord m e q n) else k.rand
    let (t, ch) := roundAt rm neg m e q rand n
    if t != 0 && decide (f.emax < topExp t q) then
      let toInf := match rm with
        | .rn => true
        | .sr => true
        | .ru => !neg
        | .rd => neg
        | .rz => false
      (if toInf then f.inf neg else f.max neg, ovf ||| nx)
    else
      let (u, _) := roundAt rm neg m e (x - f.fb) rand n
      let tinyAfter := tiny && (u = 0 || decide (topExp u (x - f.fb) < f.emin))
      (encodeF f neg t q, (if ch then nx else 0#5) ||| (if ch && tinyAfter then unf else 0#5))

/-- The NaN result: the first NaN operand made quiet, its payload fitted to the format (R71). -/
def nanF (f : Fmt) (cnan : Bool) (ops : List Val) : Nat :=
  match ops.find? Val.isNan with
  | some (.nan neg frac fb) =>
    if cnan then f.qnan
    else
      let q := if frac.testBit (fb - 1) then frac else frac + 2 ^ (fb - 1)
      let p := if f.fb ≤ fb then q / 2 ^ (fb - f.fb) else q * 2 ^ (f.fb - fb)
      f.inf neg + p
  | _ => f.qnan

/-- Invalid where an operand is a signalling NaN (R71). -/
def snanExc (ops : List Val) : Exc := if ops.any Val.isSnan then nv else 0#5

/-- A value rounded into a format; `ops` are the operands of R71, in order. -/
def resultF (f : Fmt) (k : Rnd) (ops : List Val) (v : Val) : Nat × Exc :=
  match v with
  | .nan .. => (nanF f k.cnan ops, snanExc ops)
  | .inf neg => (f.inf neg, snanExc ops)
  | .fin neg m e =>
    let (x, c) := roundF f k neg m e
    (x, c ||| snanExc ops)

/-- The product, exact; ∞ × 0 is an invalid NaN, which no operand provides. -/
def mul : Val → Val → Val
  | .nan n a b, _ => .nan n a b
  | _, .nan n a b => .nan n a b
  | .inf n, .inf n' => .inf (n != n')
  | .inf n, .fin n' m _ => if m = 0 then .cnan else .inf (n != n')
  | .fin n m _, .inf n' => if m = 0 then .cnan else .inf (n != n')
  | .fin n m e, .fin n' m' e' => .fin (n != n') (m * m') (e + e')

/-- A product that is invalid although neither operand is a NaN. -/
def mulInvalid (a b : Val) : Bool := !a.isNan && !b.isNan && (mul a b).isNan

/-- The signed integer that a finite value is in units of 2^e0, for e0 at or below its exponent. -/
def scaled (e0 : Int) : Val → Int
  | .fin n m e =>
    let x : Int := m * 2 ^ (e - e0).toNat
    if n then -x else x
  | _ => 0

/-- The least exponent among finite terms. -/
def minExp : List Val → Int
  | [] => 0
  | [.fin _ _ e] => e
  | .fin _ _ e :: r => min e (minExp r)
  | _ :: r => minExp r

/-- The exact sum of terms, none of them NaN: infinities of both signs are invalid, and an exact zero
takes the sign that IEEE 754 gives (R70). -/
def sum (rm : Rm) (ts : List Val) : Val :=
  let pinf := ts.any (fun t => t = .inf false)
  let ninf := ts.any (fun t => t = .inf true)
  if pinf && ninf then .cnan
  else if pinf then .inf false
  else if ninf then .inf true
  else
    let e0 := minExp ts
    let s := ts.foldl (fun (a : Int) t => a + scaled e0 t) 0
    if s = 0 then
      let allNeg := !ts.isEmpty && ts.all (fun t => t.isZero && t.neg?)
      let allPos := ts.all (fun t => t.isZero && !t.neg?)
      .zero (allNeg || (rm = .rd && !allPos))
    else .fin (decide (s < 0)) s.natAbs e0

/-- A sum that is invalid although no term is a NaN. -/
def sumInvalid (ts : List Val) : Bool := ts.any (fun t => t = .inf false) && ts.any (fun t => t = .inf true)

/-- An exact value from a signed integer in units of 2^e. -/
def ofInt (s : Int) (e : Int) : Val := .fin (decide (s < 0)) s.natAbs e

/-- The order of two values that are not NaN, −0 equal to +0. -/
def cmp (a b : Val) : Ordering :=
  match a, b with
  | .inf n, .inf n' => compare (if n then 0 else 1) (if n' then 0 else 1)
  | .inf n, _ => if n then .lt else .gt
  | _, .inf n => if n then .gt else .lt
  | x, y =>
    let e0 := minExp [x, y]
    compare (scaled e0 x) (scaled e0 y)

/-- A finite value rounded to an integer by RM, with `n` random bits (R105, R110). -/
def toInteger (rm : Rm) (rand n : Nat) : Val → Int
  | .fin neg m e =>
    let (t, _) := roundAt rm neg m e 0 rand n
    if neg then -(t : Int) else t
  | _ => 0

/-- Whether a finite value is an integer. -/
def isInteger : Val → Bool
  | .fin _ m e => (cut m e 0).2.1 = 0
  | _ => false

/-- OntoGrid (R83): the integer q and the exceptions. -/
def ontoGrid (v : Val) (k : Int) : BitVec 64 × Exc :=
  match v with
  | .fin neg m e =>
    let (t, ch) := roundAt .rn neg m e k 0 32
    let n : Int := if neg then -(t : Int) else t
    if (2 : Int) ^ 63 - 1 < n then (BitVec.ofNat 64 (2 ^ 63 - 1), ovf ||| nx)
    else if n < -(2 : Int) ^ 63 then (BitVec.ofNat 64 (2 ^ 63), ovf ||| nx)
    else (BitVec.ofInt 64 n, if ch then nx else 0#5)
  | _ => (0, nv)

/-- The value q × 2^k of an FX64 word (R82). -/
def gridVal (q : BitVec 64) (k : Int) : Val := ofInt q.toInt k

/-- Draining an FX64 value into a format (R85). -/
def drainF (f : Fmt) (r : Rnd) (q : BitVec 64) (k : Int) : Nat × Exc :=
  let v := gridVal q k
  let (x, c) := if v.isZero then (f.zero false, 0#5) else resultF f r [] v
  (x, if q.getLsbD 63 != q.getLsbD 62 then c ||| ovf else c)

/-- A narrow format as its nf register holds it (R76). -/
structure NFmt where
  s : Nat
  e : Nat
  m : Nat
  bias : Int
  pol : Nat
  deriving DecidableEq, Repr

def nfOf (nf : Word) : NFmt :=
  { s := bitsAt nf 0 1, e := bitsAt nf 1 3, m := bitsAt nf 4 3, bias := sx 8 (bitsAt nf 8 8), pol := bitsAt nf 16 2 }

def NFmt.w (f : NFmt) : Nat := f.s + f.e + f.m

/-- An nf register that the command processor accepts (R77). -/
def nfOk (nf : Word) : Bool :=
  let f := nfOf nf
  f.w != 0 && f.w ≤ 8 && f.pol != 3 && bitsAt nf 7 1 = 0 && bitsAt nf 18 14 = 0
    && !(f.pol = 0 && (f.e < 2 || f.m < 1))

/-- The NaN code of policy 1 (R78). -/
def NFmt.nanCode (f : NFmt) : Nat := if f.e = 0 && f.s = 1 then 2 ^ (f.w - 1) else 2 ^ f.w - 1

/-- DecodeNF (R78). -/
def decodeNF (f : NFmt) (c : Nat) : Val :=
  let c := c % 2 ^ f.w
  if f.e = 0 then
    if f.pol = 1 && c = f.nanCode then .cnan
    else
      let n : Int := if f.s = 1 && 2 ^ (f.w - 1) ≤ c then (c : Int) - 2 ^ f.w else c
      .fin (decide (n < 0)) n.natAbs (-f.bias)
  else
    let s := f.s = 1 && c.testBit (f.w - 1)
    let e := (c / 2 ^ f.m) % 2 ^ f.e
    let m := c % 2 ^ f.m
    if f.pol = 0 && e = 2 ^ f.e - 1 then (if m = 0 then .inf s else .cnan)
    else if f.pol = 1 && c = 2 ^ f.w - 1 then .cnan
    else if e = 0 then .fin s m (1 - f.bias - f.m)
    else .fin s (2 ^ f.m + m) (e - f.bias - f.m)

/-- The largest finite magnitude of a sign, as the code that holds it (R79). A one-bit signed format of policy 1
holds 0 beside its NaN code, so that max− is 0. -/
def NFmt.maxCode (f : NFmt) (neg : Bool) : Nat :=
  if f.e = 0 then
    if neg then (if f.pol = 1 then (if f.w = 1 then 0 else 2 ^ (f.w - 1) + 1) else 2 ^ (f.w - 1))
    else if f.s = 1 then 2 ^ (f.w - 1) - 1
    else if f.pol = 1 then 2 ^ f.w - 2 else 2 ^ f.w - 1
  else
    let sgn := if neg then 2 ^ (f.w - 1) else 0
    let top := 2 ^ (f.e + f.m) - 1
    if f.pol = 0 then sgn + (2 ^ f.e - 2) * 2 ^ f.m + (2 ^ f.m - 1)
    else if f.pol = 1 && (neg || f.s = 0) then sgn + top - 1
    else sgn + top

/-- Ulp's exponent of the format's grid at m × 2^e (R73, R79). -/
def NFmt.ulp (f : NFmt) (m : Nat) (e : Int) : Int :=
  if f.e = 0 then -f.bias else max (topExp m e) (1 - f.bias) - f.m

/-- The code of a value t × 2^q of the grid, within the format's range. -/
def NFmt.code (f : NFmt) (neg : Bool) (t : Nat) (q : Int) : Nat :=
  if t = 0 then (if neg && f.s = 1 && f.e != 0 then 2 ^ (f.w - 1) else 0)
  else if f.e = 0 then
    let n := (cut t q (-f.bias)).1
    if neg then 2 ^ f.w - n else n
  else
    let sgn := if neg then 2 ^ (f.w - 1) else 0
    let emin := 1 - f.bias
    if topExp t q < emin then sgn + (cut t q (emin - f.m)).1
    else
      let x := topExp t q
      sgn + (x + f.bias).toNat * 2 ^ f.m + ((cut t q (x - f.m)).1 - 2 ^ f.m)

/-- Encoding into a narrow format (R79), under MODE.NSAT. The overflow of an infinity raises inexact too:
R87 names the drain warning as the one overflow that does not. DEDUCED, log entry 11. A NaN code under POL 0 has sign 0: DESIGN
CHOICE, log entry 88. -/
def encodeNF (f : NFmt) (nsat : Bool) (rm : Rm) (rand : Nat) (v : Val) : Nat × Exc :=
  match v with
  | .nan _ _ _ =>
    let s := if v.isSnan then nv else 0#5
    if f.pol = 0 then ((2 ^ f.e - 1) * 2 ^ f.m + 2 ^ (f.m - 1), s)
    else if f.pol = 1 then (f.nanCode, s)
    else (0, nv)
  | .inf neg =>
    if neg && f.s = 0 then (0, nv)
    else if f.pol = 0 then ((if neg then 2 ^ (f.w - 1) else 0) + (2 ^ f.e - 1) * 2 ^ f.m, 0#5)
    else if f.pol = 1 && !nsat then (f.nanCode, nv)
    else (f.maxCode neg, ovf ||| nx)
  | .fin neg m e =>
    if m = 0 then (f.code neg 0 0, 0#5)
    else
      let q := f.ulp m e
      let (t, ch) := roundAt rm neg m e q rand 32
      if neg && f.s = 0 && t != 0 then (0, nv)
      else
        let big : Bool :=
          match decodeNF f (f.maxCode neg) with
          | .fin _ mm me => t != 0 && cmp (.fin false mm me) (.fin false t q) = .lt
          | _ => false
        if big then
          let toMax := f.pol = 2 || nsat || (f.pol = 0 && (rm = .rz || (rm = .ru && neg) || (rm = .rd && !neg)))
          if toMax then (f.maxCode neg, ovf ||| nx)
          else if f.pol = 1 then (f.nanCode, ovf ||| nx)
          else ((if neg then 2 ^ (f.w - 1) else 0) + (2 ^ f.e - 1) * 2 ^ f.m, ovf ||| nx)
        else
          let tiny := f.e != 0 && decide (topExp m e < 1 - f.bias)
          let (u, _) := roundAt rm neg m e (topExp m e - f.m) rand 32
          let under := ch && tiny && (u = 0 || decide (topExp u (topExp m e - f.m) < 1 - f.bias))
          (f.code neg t q, (if ch then nx else 0#5) ||| (if under then unf else 0#5))

/-- Whether an exact value lies below the smallest normal of a narrow format (R75, R79); with E = 0 there is none. -/
def NFmt.belowNormal (f : NFmt) : Val → Bool
  | .fin _ m e => m != 0 && f.e != 0 && decide (topExp m e < 1 - f.bias)
  | _ => false

/-- A block scale E8M8 (R80). -/
def scaleVal (x : Nat) : Val :=
  let e := (x / 256) % 256
  let m := x % 256
  if e = 255 then .cnan
  else if e = 0 then .fin false m (-134)
  else .fin false (256 + m) ((e : Int) - 135)

/-- An element under a scale (R81): its value and the exceptions of the read. Under a NaN scale every element
reads the canonical quiet NaN. -/
def scaleBy (v s : Val) : Val × Exc :=
  match s, v with
  | .nan _ _ _, _ => (.cnan, 0#5)
  | _, .nan n a b => (.nan n a b, 0#5)
  | s, v => if mulInvalid v s then (.cnan, nv) else (mul v s, 0#5)

end Sys2Proof.Num
end

