-- ==== Sys2Proof/Machine/State.lean ====
section
/-!
DEFINITION. The state of the machine as plain data, the reasons a step can stop, and the state after
reset. Times are cycles of one clock `now`, from which each die's CYC is counted.
-/
namespace Sys2Proof.Machine
open Sys2Proof

/-- Why the machine stops with a fault. -/
inductive Fault where
  /-- Raised by the meaning of an instruction word when no warp stands inside a clause, so that
  nothing issues it. Safe: no such issue exists on the part. -/
  | noWarpAtIssue
  /-- Raised by an event of the part whose condition does not hold in the state, so that the part
  has no such event there. Safe. -/
  | notEnabled
  deriving DecidableEq, Repr

/-- Why the machine has no meaning for what it is asked to run. -/
inductive Refusal where
  /-- An instruction of the opcode table that has no meaning yet. Safe. -/
  | notModelled (mnemonic : String)
  /-- Raised by the step when the fetched word is no legal instruction. The scanner keeps such words
  out of executable granules (03_encoding.md R60, R62), so no run of the part meets one. Safe. -/
  | undecodableWord
  deriving DecidableEq, Repr

/-- CAPS: the capability word (00_scope.md R2). -/
structure Caps where
  nstack : BitVec 4
  goss   : Bool
  mx64   : Bool
  fldu   : Bool
  ueport : BitVec 5
  klink  : BitVec 6
  prev   : BitVec 8
  deriving DecidableEq, Repr

/-- A PC slot; it is empty when its mask is zero (02_warp_state.md R16, R21). -/
structure PcSlot where
  pc   : BitVec 57
  mask : Mask
  deriving DecidableEq, Repr

/-- An entry of the reconvergence stack (R21). -/
structure StackEntry where
  rpc  : BitVec 57
  mask : Mask
  deriving DecidableEq, Repr

/-- What an instruction writes: `n` registers from `dest`, in the lanes of `mask`. `vals` is keyed
by 64 × register offset + lane. Predicates are (number, lanes that become true) under `mask`. -/
structure Result where
  dest  : Option Operand
  n     : Nat
  wt    : Bool
  mask  : Mask
  vals  : FMap 32
  preds : List (Nat × Mask)
  flags : BitVec 5
  deriving DecidableEq, Repr

/-- A fixed-latency result not yet written: its write cycle and its place in issue order (R31). -/
structure Pend where
  at_ : Nat
  seq : Nat
  /-- The result enters the latches (R32). -/
  latch : Bool
  r   : Result
  /-- FLAGS bits cleared in that cycle (06_isa_control.md R128). -/
  clr : BitVec 5
  deriving DecidableEq, Repr

/-- A memory space of LD, ST and the atomics (07_core_memory.md R147). -/
inductive Space where
  | g | s | c | a
  deriving DecidableEq, Repr

/-- One lane's access: its address as formed, and its place after translation. `key` is a byte of the
package's DRAM for .g, a scratchpad or constant offset, or an aperture address. -/
structure LaneAcc where
  lane : Nat
  addr : Nat
  keys : List Nat
  data : List Byte
  data2 : List Byte
  deriving DecidableEq, Repr

/-- The read-modify-write operations at a location (07_core_memory.md R166). -/
inductive RmwOp where
  | xchg
  | cas
  | add
  | mnmx (sub : BitVec 2)
  | lop (sub : BitVec 2)
  | gadd (k : BitVec 8)
  | inc
  deriving DecidableEq, Repr

/-- An entry of a warp's store queue (07_core_memory.md R156). -/
inductive QKind where
  | store (acc : List LaneAcc)
  | atomic (op : Nat) (rmw : RmwOp) (size : Nat) (mq red : Bool) (acc : List LaneAcc) (old : List (Nat × Nat))
  deriving DecidableEq, Repr

structure QEntry where
  seq   : Nat
  space : Space
  rel   : Bool
  acq   : Bool
  scope : Nat
  kind  : QKind
  deriving DecidableEq, Repr

/-- What a fault of an operation or of a warp carries into the trap frame (18_traps.md R340). -/
structure FaultInfo where
  cause : Nat
  ia    : Nat
  fmask : Mask
  faddr : DWord
  xcode : Word
  lane  : Nat
  slot  : Nat
  deriving DecidableEq, Repr

/-- A field descriptor, as its 24 words (08_field_unit.md R174). -/
abbrev FieldDesc := List Word

/-- What a variable-latency operation still has to do, with the operands it read at issue. -/
inductive Payload where
  /-- Its result, to be written in every lane that it writes (02_warp_state.md R23). -/
  | result (r : Result)
  /-- A store or .red atomic, or any other operation that no longer depends on its sources: the words
  that it folds into SHASH, and the exceptions that it raised (02_warp_state.md R29, 04_numbers.md R90). -/
  | sourcesRead (xs : List Word) (flags : BitVec 5)
  /-- A returning atomic: its result and the words that it folds, once every group has performed. -/
  | atomicResult (done : Bool) (r : Result) (xs : List Word)
  /-- Copies of the cycle counter's register (S2V of CYC). -/
  | readCyc (r : Result)
  /-- An operation that completes once a cycle has come (11_async_armature.md R245). -/
  | after (due : Nat)
  /-- FENCE: its kind and scope. -/
  | fence (kind scope : Nat)
  /-- A load or a barrier operation that waits for earlier accesses of its warp (07_core_memory.md R156,
  R161, R163), or a memory access stopped at a fault: all that its execution or re-execution needs. -/
  | retry (i : Instr) (a b c : FMap 32)
  /-- FBIND, FLD, FLDG, FWT: the source registers as read at issue. -/
  | field (i : Instr) (a b : FMap 32)
  /-- FST, FSTG, FDRN, FCLR: the descriptors taken at the start, and the exceptions raised so far. -/
  | splat (i : Instr) (a b : FMap 32) (desc src : FieldDesc) (started : Bool) (flags : BitVec 5)
  /-- A matrix instruction: its operands as read at issue; for an MMA.g that waits at its rendezvous, the
  format-block and the scales that it read on entering the engine (10_matrix.md R202, R212). -/
  | matrix (i : Instr) (a b c : FMap 32) (fb : List Word) (arrived : Bool)
  /-- A copy: bytes to move from and to, the barrier, the source bytes once read, the pieces not yet
  landed as (offset, length). -/
  | copy (dir : Nat) (dst src n : Nat) (bar : Option Nat) (data : Option (List Byte))
      (pieces : List (Nat × Nat)) (landed : Bool)
  /-- A bulk transfer, by its number in the package's table, and whether its source lies in this package. -/
  | bulk (x : Nat) (here : Bool)
  /-- BWAIT: the batches it still waits for, and the faulted ones among those retired, oldest first, with the fault
  of each (R230). -/
  | bwait (cls : Nat) (batches : List Nat) (faults : List (Nat × FaultInfo))
  /-- BAR and CBAR that wait: global or scratchpad, the word's place, the phase bit waited away from. -/
  | barWait (global : Bool) (key : Nat) (phase : Bool) (met : Bool)
  /-- SLEEP: the word's place, the compare value, the cycle of its timeout, and whether it is over. -/
  | sleep (space : Space) (key addr : Nat) (cmp : Word) (due : Option Nat) (acq : Bool) (scope : Nat)
      (dest : Operand) (past : Bool)
  | wake (mask : DWord)
  /-- GADD, GSYNC, GRD and the other gossip operations: the operands as read at issue. -/
  | gossip (i : Instr) (a b c : FMap 32)
  /-- A GADD whose flag has completed: the addresses in its slot's region and the terms that it still has to add (21_fabric.md
  R381, R384). -/
  | terms (rgn : Nat) (xs : List (Nat × DWord))
  /-- COLL: the operands as read at issue. -/
  | coll (i : Instr) (a b c : FMap 32) (inst : Nat)
  /-- CTXSV: the context, and the number of the save that it waits for, plus one (18_traps.md R349). -/
  | sys (i : Instr) (ctx save : Nat)
  deriving DecidableEq, Repr

/-- A variable-latency operation in flight (02_warp_state.md R23, R24). -/
structure Op where
  seq      : Nat
  flag     : Option Nat
  batch    : Option (Nat × Nat)
  ia       : Nat
  slot     : Nat
  mask     : Mask
  payload  : Payload
  /-- The flag count has fallen. -/
  flagDone : Bool
  /-- The operation is complete for its batch (11_async_armature.md R227). -/
  batchDone : Bool
  fault    : Option FaultInfo
  /-- The fault has been reported (R24, R170). -/
  reported : Bool
  /-- The word of the operation, for a resumption (18_traps.md R343). -/
  word     : Option Instr
  deriving DecidableEq, Repr

/-- A fold of SHASH that waits its turn (02_warp_state.md R29): the values to fold, or the value to
set (17_package.md R333), once known. One whose operation stands at a translation fault is absent. -/
inductive Fold where
  | waiting (op : Nat)
  | absent (op : Nat)
  | ready (xs : List Word)
  | set (x : Word)
  deriving DecidableEq, Repr

/-- The batches of one engine class (11_async_armature.md R228, R229). -/
structure Batches where
  open_ : BitVec 16
  out   : Nat
  /-- The fault marks of batches that have retired: a faulted operation's number, its batch and its fault (R229, R230). -/
  bad   : Tbl (Nat × FaultInfo)
  deriving DecidableEq, Repr

/-- The uniform state of a block (11_async_armature.md R243). -/
structure Arm where
  s     : FMap 32
  owner : Tbl Nat
  /-- Shape records: M, N, K and the tile depth code, packed as SHPW.wr reads them. -/
  shapes : Tbl (Word × Word)
  ls    : Word
  gcnt  : Word
  ovf   : BitVec 5
  deriving DecidableEq, Repr

/-- A write of the armature that waits for its visibility (R245). -/
inductive ArmWrite where
  | sreg (n : Nat) (x : Word)
  | own (base cnt : Nat) (w : Option Nat)
  | shape (r : Nat) (a b : Word)
  | scale (ls gcnt : Word)
  | ovfOr (x : BitVec 5)
  | ovfClr (x : BitVec 5)
  deriving DecidableEq, Repr

structure ArmPend where
  at_  : Nat
  warp : Nat
  wr   : ArmWrite
  deriving DecidableEq, Repr

/-- One instruction of a clause's pattern: the cycles it occupies and what R261 compares. -/
structure Beat where
  first : Nat
  issue : Nat
  op    : Nat
  fn    : Nat
  regs  : List Nat
  deriving DecidableEq, Repr

/-- A started clause (03_encoding.md R57). -/
structure Clause where
  hdr   : Header
  head  : Nat
  slot  : Nat
  pos   : Nat
  /-- The cycle in which the next instruction's first occupied cycle may fall. -/
  next  : Nat
  /-- Instructions still skipped by SBR (11_async_armature.md R249). -/
  skip  : Nat
  arm   : Arm
  beats : List Beat
  deriving DecidableEq, Repr

/-- How and why a warp has stopped (12_core_scheduling.md R268 to R271). -/
structure Stop where
  /-- 0 by its own failure, 1 by broadcast, 2 by pre-emption. -/
  how   : Nat
  cycle : Nat
  cause : Nat
  /-- 0 precise trap, 1 fault bit of a flag, 2 a fault that named no flag. -/
  kind  : Nat
  info  : FaultInfo
  rhdr  : Nat
  pos   : Nat
  skid  : Nat
  deriving DecidableEq, Repr

/-- The trap shadow (18_traps.md R341). -/
structure Shadow where
  s0     : PcSlot
  s1     : PcSlot
  turn   : Nat
  nextFirst : Bool
  stack  : List StackEntry
  spilled : List StackEntry
  map    : FMap 9
  h0     : Option (FMap 64)
  h1     : Option (FMap 64)
  buf    : FMap 32
  deadB  : BitVec 16
  counts : FMap 6
  bits   : BitVec 12
  stop   : Stop
  clause : Option Clause
  /-- The number of the first operation issued after the handler's entry. -/
  mark   : Nat
  deriving DecidableEq, Repr

/-- A warp (02_warp_state.md R16). -/
structure Warp where
  v      : FMap 32
  buf    : FMap 32
  map    : FMap 9
  deadV  : BitVec 256
  deadB  : BitVec 16
  h0     : Option (FMap 64)
  h1     : Option (FMap 64)
  preds  : FMap 64
  s0     : PcSlot
  s1     : PcSlot
  /-- The PC slot that starts the next clause when both can (06_isa_control.md R141). -/
  turn   : Nat
  /-- After a divergent BRA the next clause comes from that slot, whether or not it can start yet (R141). -/
  nextFirst : Bool
  stack  : List StackEntry
  /-- Entries that the part has spilled, most recent first (R22). -/
  spilled : List StackEntry
  counts : FMap 6
  bits   : BitVec 12
  batches : Tbl Batches
  flags  : Word
  pix    : Word
  wprio  : BitVec 4
  shash  : Word
  exm    : Mask
  gang   : DWord
  wake   : Bool
  shadow : Option Shadow
  clause : Option Clause
  /-- The earliest cycle of the next clause's start (R33, R54). -/
  free   : Nat
  /-- The cycle after the last one that an instruction of the warp has occupied (12_core_scheduling.md R260). -/
  issuedTo : Nat
  pend   : List Pend
  /-- The register rows that results have written of late: the cycle, the register and the lanes (R38). -/
  fresh  : List (Nat × Nat × Mask)
  seq    : Nat
  queue  : List QEntry
  ops    : Tbl Op
  nextOp : Nat
  folds  : List Fold
  /-- Operation numbers in the matrix engine and the field unit, oldest first. -/
  matQ   : List Nat
  fieldQ : List Nat
  /-- A standing matrix fault: its operation and cause (10_matrix.md R226). -/
  matFault : Option (Nat × FaultInfo)
  /-- The SLEEPs that have not completed (11_async_armature.md R241). -/
  sleeping : List Nat
  /-- A reported fault that named no flag (07_core_memory.md R170). -/
  noFlag : Option FaultInfo
  /-- A change of WPRIO one cycle after issue (06_isa_control.md R129). -/
  prioAt : Option (Nat × BitVec 4)
  ended  : Bool
  /-- The warp slot has been freed (06_isa_control.md R138). -/
  freed  : Bool
  stop   : Option Stop
  /-- Instructions issued since a stop of the block was broadcast (12_core_scheduling.md R269). -/
  skid   : Nat
  /-- YP of the clause that ended last (02_warp_state.md R36). -/
  yp     : Bool
  /-- An unspent yield and the issue cycle it dates from (12_core_scheduling.md R264). -/
  yield_ : Option Nat
  /-- Consecutive cycles, but for withheld ones, in which the warp has been ready without starting a clause
  (12_core_scheduling.md R265, 23_physical.md R398). -/
  readyFor : Nat
  urgent : Bool
  /-- MMA.g issued under each gang mask (10_matrix.md R212). -/
  gangs  : Tbl Nat
  deriving DecidableEq, Repr

/-- A block (07 to 14). -/
structure Block where
  launch : Nat
  ctx    : Nat
  part   : Nat
  core   : Nat
  half   : Nat
  b      : Nat
  x      : Nat
  y      : Nat
  z      : Nat
  /-- Its placement order on the core (12_core_scheduling.md R258). -/
  age    : Nat
  width  : Nat
  warpCount : Nat
  win    : Nat
  uni    : Nat
  acc    : Nat
  bst    : Nat
  scr    : Nat
  prod   : Nat
  warps  : Tbl Warp
  scratch : FMap 8
  fslots : Tbl FieldDesc
  tiles  : FMap 32
  tags   : FMap 16
  bstage : FMap 8
  hist   : FMap 32
  drains : FMap 32
  /-- Gang masks that GANG_BROKEN has ended, with the count of MMA.g met under each. -/
  broken : List DWord
  arm    : Arm
  armPend : List ArmPend
  /-- The stop has been broadcast and every warp has stopped (12_core_scheduling.md R269). -/
  halted : Bool
  /-- The block stands outside a running context: pre-empted or switched out. -/
  out    : Bool
  /-- The block has ended: every warp slot is freed and every operation is over; its resources are released. -/
  past   : Bool
  /-- The resident position of each pack (12_core_scheduling.md R256). -/
  pos    : List Nat
  primary : Option Nat
  /-- The primary cause of the halt (18_traps.md R337, R350). -/
  primaryCause : Nat
  /-- Faults that operations reported after the halt: (warp, cause) (12_core_scheduling.md R270). -/
  late   : List (Nat × Nat)
  /-- The halt record stands in the record area (18_traps.md R338). -/
  recorded : Bool
  /-- The halt's causes have been routed (18_traps.md R337). -/
  routed : Bool
  /-- The route-S causes that stand have been noticed (18_traps.md R344). -/
  noticed : Bool
  /-- The warp that runs the trap handler, and the warps that still await theirs (18_traps.md R341). -/
  handler : Option Nat
  await  : List Nat
  /-- Translation faults not yet covered by a TLBINV: (warp, faulting address) (R343). -/
  uncovered : List (Nat × Nat)
  /-- The cycle by which a covering TLBINV must have completed. -/
  noticeDue : Option Nat
  deriving DecidableEq, Repr

/-- An issue slot of a core (12_core_scheduling.md R258 to R265). -/
structure SlotSt where
  /-- Active packs and the cycle from which each may start a clause (R259). -/
  active : List (PackId × Nat)
  /-- The warp that started the most recent clause, and its place in round-robin order (R262). -/
  last   : Option (Nat × Nat)
  lastAt : Option (Nat × Nat)
  /-- CSCHED has been written since (13_program_issue_trace.md R273). -/
  fresh  : Bool
  /-- Refills: first cycle and length (R259). -/
  refill : List (Nat × Nat)
  deriving DecidableEq, Repr

/-- An L1 line: the core whose rows hold it, the line's number in the package's DRAM, the context
that filled it and its bytes (15_cluster.md R278). -/
structure L1Line where
  core : Nat
  line : Nat
  ctx  : Nat
  data : List Byte
  deriving DecidableEq, Repr

/-- A translation held by a TLB: the first page frame byte, the page size and the permissions
(16_die.md R294, R296). -/
structure TlbEntry where
  ctx  : Nat
  va   : Nat
  size : Nat
  pa   : Nat
  w    : Bool
  x    : Bool
  deriving DecidableEq, Repr

/-- An entry of a partition's execute table, by physical granule (17_package.md R308). -/
structure ExecEntry where
  win   : Nat
  uni   : Nat
  width : Nat
  deriving DecidableEq, Repr

/-- A partition (17_package.md R315, R317). -/
structure Part where
  cores : List Nat
  split : Bool
  ftid  : Nat
  cht   : List Nat
  key   : Word
  exec  : Tbl ExecEntry
  /-- Granules that running code maps protect, with the context of each (17_package.md R308). -/
  guarded : List (Nat × Nat)
  /-- Zeroisation in progress: resources handed over (01_device.md R13). -/
  zeroing : Bool
  /-- PART_CLEAR waits for the kills of its contexts. -/
  clearing : Bool
  /-- Next position in the run list's circular order. -/
  turn  : Nat
  deriving DecidableEq, Repr

/-- A launch (17_package.md R310). -/
structure Launch where
  ctx    : Nat
  part   : Nat
  pkt    : Nat
  fuse   : Bool
  mqm    : Nat
  width  : Nat
  warps  : Nat
  win    : Nat
  uni    : Nat
  prod   : Nat
  acc    : Nat
  bst    : Nat
  pcls   : Nat
  scr    : Nat
  nx     : Nat
  ny     : Nat
  nz     : Nat
  code   : Nat
  codeLen : Nat
  mode   : Word
  param  : List Byte
  spd    : Nat
  spb    : Nat
  hndl   : Nat
  mqlog  : Nat
  mqlen  : Nat
  patr   : Nat
  nf     : List Word
  tag    : DWord
  entry  : Nat
  sig    : List Word
  /-- The next block to place, and the core that received the previous one (R255). -/
  nextB  : Nat
  lastCore : Option Nat
  mqst   : BitVec 2
  /-- Replay: groups left of each slice's current entry and the entry's number (R330). -/
  gates  : Tbl (Nat × Nat)
  /-- Record: bytes of entries written per slice; the last entry's warp and count (R329). -/
  logPos : Tbl (Nat × Nat × Nat × Nat)
  deriving DecidableEq, Repr

/-- A completion record or notice that waits to be written (17_package.md R312, 18_traps.md R344). -/
structure Rec where
  /-- Bytes 0x08 to 0x3F. -/
  body  : List Byte
  /-- The record of the ring's running packet. -/
  own   : Bool
  /-- 0 waiting, 1 its body is being written, 2 its SEQ is being written. -/
  stage : Nat
  deriving DecidableEq, Repr

/-- A packet that the command processor has read (R305). -/
structure Packet where
  num   : Nat
  bytes : List Byte
  /-- A code map has protected its granules, or a PART_CLEAR its kills (R308, R315). -/
  begun : Bool
  /-- Its work is done and its record stands among the ring's records. -/
  ended : Bool
  deriving DecidableEq, Repr

/-- A ring's counts, its running packet and its records (17_package.md R305, R306, R312). -/
structure Ring where
  wc      : DWord
  rc      : DWord
  /-- Stopped with QUEUE_OVERRUN (R306). -/
  stopped : Bool
  /-- Stopped by a kill of its context (R324), until the context is set up again. -/
  dead    : Bool
  seq     : DWord
  packet  : Option Packet
  recs    : List Rec
  deriving DecidableEq, Repr

/-- A pre-emption of a context on one die (17_package.md R319). -/
structure Preempt where
  die   : Nat
  /-- 1 soft request, 2 forced halt, 3 switched. -/
  step  : Nat
  grace : Nat
  killt : Nat
  deriving DecidableEq, Repr

/-- The state that the body of a saved image holds (17_package.md R321). -/
structure Image where
  ctx   : Nat
  blocks : Tbl Block
  launches : Tbl Launch
  /-- VALID has been set at the save's end (R322). -/
  whole : Bool
  deriving DecidableEq, Repr

/-- A gossip slot of a context (21_fabric.md R370 to R385). -/
structure Gossip where
  desc    : List Word
  stopped : Bool
  /-- GCTL.stop.unb has been issued (R385). -/
  unbinding : Bool
  rate    : Word
  /-- Free-running position: pass and chunk, and the cycle of the next start (R374). -/
  pass    : Nat
  chunk   : Nat
  due     : Nat
  /-- The sequence number of the next message. -/
  msgs    : Nat
  /-- The counters TOTV, TOTW, HELDV, HELDW, HELDN, GADDV, REFN (R379). -/
  mass    : List DWord
  /-- The translations kept at binding: virtual 64 KiB granule and physical address (R371). -/
  pins    : Tbl Nat
  deriving DecidableEq, Repr

/-- A gossip message whose decision the sender has not learned (21_fabric.md R373), and the GCTL.step
that waits for it. -/
structure GMsg where
  ctx   : Nat
  rgn   : Nat
  nbr   : Nat
  msg   : GossipMsg
  /-- The cycle of its sending or of the last enquiry. -/
  sent  : Nat
  /-- The link that carries it, and whether that link has gone down since then. -/
  link  : Nat
  cut   : Bool
  step  : Option (Nat × Nat × Nat)
  deriving DecidableEq, Repr

/-- A context (17_package.md R313). -/
structure Ctx where
  words   : List Word
  ring    : Ring
  preempt : List Preempt
  gossip  : Tbl Gossip
  /-- A save in progress: the number of its image and the steps made (R322). -/
  saving  : Option (Nat × Nat)
  /-- Engines that have not yet reported drained during a kill (R324), and its cause and status. -/
  engines : List Nat
  killCause : Nat
  killStatus : Nat
  /-- The cycle in which the kill began (16_die.md R303). -/
  killAt : Nat
  /-- When the context last ran (R318). -/
  ran     : Nat
  sliceEnd : Nat
  /-- The half that its image occupies. -/
  half    : Option Nat
  deriving DecidableEq, Repr

/-- A bulk transfer of the block-transfer engine (11_async_armature.md R235, R236). -/
structure Bulk where
  ctx    : Nat
  blk    : Nat
  warp   : Nat
  op     : Nat
  dst    : Nat
  src    : Nat
  dstT   : Nat
  srcT   : Nat
  count  : Nat
  tag    : Word
  ring   : Nat
  data   : Option (List Byte)
  moved  : Nat
  status : Nat
  cause  : Nat
  /-- It has finished or has stopped; `fin` is its place in the order of finishing. -/
  done   : Bool
  fin    : Nat
  start  : Nat
  deriving DecidableEq, Repr

/-- An RMA transfer that the part issued and whose completion the transport reports (R312). -/
inductive HostRma where
  /-- The body of a completion record of a context's ring, or of the package's own ring 256. -/
  | record (ring : Nat) (off : Nat) (bytes : List Byte)
  | seqWrite (ring : Nat) (off : Nat) (bytes : List Byte)
  | bulkWrite (x : Nat) (off : Nat) (bytes : List Byte)
  | bulkRead (x : Nat) (off : Nat) (count : Nat)
  deriving DecidableEq, Repr

/-- The host's endpoint and memory key that a transfer addresses: HEP and HKEY (17_package.md R304, R313). -/
structure HostEnd where
  hep  : DWord
  hkey : Word
  deriving DecidableEq, Repr

/-- A die's own registers (16_die.md R303, 23_physical.md R398, R399). -/
structure Die where
  cecnt : BitVec 16
  uecnt : BitVec 8
  uech  : BitVec 5
  uesrc : BitVec 2
  ilim  : BitVec 12
  /-- Starts are withheld for the current (23_physical.md R398). -/
  thr   : Bool
  hot   : Bool
  off   : Bool
  tj    : BitVec 8
  /-- Seven in eight starts are withheld (23_physical.md R399). -/
  seven : Bool
  /-- The cycle at which the current sample held THR. -/
  sample : Nat
  /-- The cycle from which the junction has stood at 105 °C or above. -/
  hotSince : Option Nat
  /-- The cycle from which CYC counts (06_isa_control.md R127). -/
  base  : Nat
  deriving DecidableEq, Repr

/-- A cluster's status register CLSTAT (15_cluster.md R283). -/
structure Cluster where
  fusep : BitVec 16
  terr  : BitVec 8
  derr  : BitVec 8
  deriving DecidableEq, Repr

/-- A channel's record and its soft errors (16_die.md R291, R301). -/
structure Channel where
  own : BitVec 4
  v   : Bool
  ret : Bool
  deriving DecidableEq, Repr

/-- A dirty home-slice line: the context tag and the bytes that DRAM still holds (16_die.md R289). -/
structure DirtyLine where
  ctx : Nat
  old : List Byte
  deriving DecidableEq, Repr

/-- The COLLs accepted so far of a context and TAG (21_fabric.md R366). -/
structure Coll where
  ctx : Nat
  tag : Word
  count : Nat
  deriving DecidableEq, Repr

/-- A rate controller: its rate as a fraction of the link rate, and the cycles of its last mark and of its last
rise (21_fabric.md R362). -/
structure Rate where
  num  : Nat
  den  : Nat
  mark : Option Nat
  rise : Nat
  deriving DecidableEq, Repr

/-- One direction of a link (21_fabric.md R360): the sequence number that its receiver expects next, which is that of the first
flit not acknowledged; whether its sender is sending again from there; the failed retransmissions since a flit was last
taken; and the cycle in which that was. -/
structure LinkEnd where
  next  : Nat
  again : Bool
  fails : Nat
  moved : Nat
  deriving DecidableEq, Repr

/-- A machine-check record that the system controller has sent to system software (16_die.md R300, R302, R303): the
contexts killed, the causes, and the channel and line of lost data. No layout is stated. -/
structure MachineCheck where
  ctxs   : List Nat
  causes : List Nat
  line   : Option (Nat × Nat)
  deriving DecidableEq, Repr

/-- Everything of the package but CAPS and the clock. -/
structure Mach where
  /-- DRAM bytes by (channel number) × 2^31 + channel address, as the home slices hold them. -/
  mem     : FMap 8
  dirty   : Tbl DirtyLine
  /-- 32-byte granules whose data is uncorrectable, and those of them whose error is in a home slice. -/
  bad     : List Nat
  badL2   : List Nat
  /-- Machine-check records sent, newest first. -/
  checks  : List MachineCheck
  l1      : List L1Line
  /-- Per core: the µTLB's entries; per cluster: the cluster TLB's; newest first. -/
  utlb    : Tbl (List TlbEntry)
  ctlb    : Tbl (List TlbEntry)
  channels : Tbl Channel
  clusters : Tbl Cluster
  dies    : Tbl Die
  csched  : Tbl Nat
  /-- Quota words q0 to q4 by partition × 512 + core, and word. -/
  quota   : Tbl (List Word)
  slots   : Tbl SlotSt
  parts   : Tbl Part
  ctxs    : Tbl Ctx
  launches : Tbl Launch
  blocks  : Tbl Block
  nextId  : Nat
  /-- The number of placements so far: blocks' ages. -/
  ages    : Nat
  admin   : FMap 8
  adminRing : Ring
  runlist : List DWord
  bulks   : Tbl Bulk
  rma     : Tbl (HostEnd × HostRma)
  rmaSent : Nat
  gmsgs   : Tbl GMsg
  colls   : List Coll
  /-- Decisions taken on gossip messages received: (sender, context, slot, sequence) and the verdict. -/
  verdicts : List ((Nat × Nat × Nat × Nat) × Bool)
  /-- Answers to transfers of other packages, newest first: the sender and what it is told (21_fabric.md R363). -/
  answers : List (Nat × FarReply)
  /-- The links that are down (21_fabric.md R360). -/
  links   : Tbl Bool
  /-- The cycle since which every link has been down. -/
  cutSince : Option Nat
  rates   : Tbl Rate
  /-- The directions of the links: 0 to 31 bring flits to this package, and 32 + l takes those of link l away from it. -/
  flits   : Tbl LinkEnd
  pkg     : BitVec 12
  rails   : Nat
  /-- The cycle in which the rail that starts next has started (23_physical.md R394). -/
  railAt  : Option Nat
  railFail : Option Nat
  boot    : Nat
  recovery : Bool
  banks   : List (List Byte)
  /-- The active flash bank, and the bank that becomes active at the next reset. -/
  active  : Nat
  fresh   : Nat
  /-- The digests of firmware stages 1 and 2 that run (23_physical.md R395). -/
  digests : List (List Byte)
  /-- The granules of the system controller's own code that are executable, by number (03_encoding.md R60). -/
  sysExec : Tbl ExecEntry
  /-- Images saved so far, by number (17_package.md R321). -/
  images  : Tbl Image
  /-- Free values drawn so far. -/
  free    : Nat
  /-- Events that come next, before any of the machine's own schedule. -/
  inbox   : List Instr
  focus   : Option (Nat × Nat)
  deriving DecidableEq, Repr

/-- The machine. CAPS does not change after reset (00_scope.md R2), and the clock never falls (R127). -/
structure State where
  caps : Caps
  now  : Nat
  m    : Mach
  deriving DecidableEq, Repr

/-- An empty command ring (17_package.md R305). -/
def Ring.init : Ring := { wc := 0, rc := 0, stopped := false, dead := false, seq := 0, packet := none, recs := [] }

/-- The package after reset. A record that a table does not list has its reset value, which the
reading operations of Machine/Ops.lean give. -/
def Mach.reset : Mach :=
  { mem := [], dirty := [], bad := [], badL2 := [], checks := [], l1 := [], utlb := [], ctlb := [], channels := [], clusters := [],
    dies := [], csched := [], quota := [], slots := [], parts := [], ctxs := [], launches := [], blocks := [],
    nextId := 0, ages := 0, admin := [], adminRing := .init, runlist := [], bulks := [], rma := [],
    rmaSent := 0, gmsgs := [], colls := [], verdicts := [], answers := [], links := [], cutSince := none, rates := [], flits := [], pkg := 0,
    rails := 5, railAt := none, railFail := none, boot := 0, recovery := false, banks := [[], []], active := 0, fresh := 0,
    digests := [], sysExec := [], images := [], free := 0, inbox := [], focus := none }

/-- CAPS of the OBL-T980 (00_scope.md R2); PREV is per stepping (DESIGN CHOICE, log entry 2). -/
def Caps.reset : Caps :=
  { nstack := 8, goss := true, mx64 := true, fldu := true, ueport := 16, klink := 32, prev := Config.prev }

/-- CAPS of the OBL-T940: four stacks, eight Ultra Ethernet ports, four on each I/O die, neither gossip nor the FP64 matrix path
(00_scope.md R2, 01_device.md R9). -/
def Caps.t940 : Caps :=
  { nstack := 4, goss := false, mx64 := false, fldu := true, ueport := 8, klink := 32, prev := Config.prev }

/-- The machine right after reset: an OBL-T980. -/
def State.reset : State := { caps := .reset, now := 0, m := .reset }

/-- An OBL-T940 right after reset. -/
def State.resetT940 : State := { caps := .t940, now := 0, m := .reset }

end Sys2Proof.Machine
end

