-- ==== Sys2Proof/Machine/Operands.lean ====
section
/-!
DEFINITION. Operands: what an instruction at issue sees, reading a source at each level
(03_encoding.md R50 to R53, 05_isa_arithmetic.md R93), writing a destination (02_warp_state.md R20, R34),
latches, dead bits (R41) and bank conflicts (R42).
-/
namespace Sys2Proof.Machine
open Sys2Proof

/-- The launch of a block whose launch is not in the table: every field zero. -/
def Launch.none : Launch :=
  { ctx := 0, part := 0, pkt := 0, fuse := false, mqm := 0, width := 0, warps := 0, win := 0, uni := 0,
    prod := 0, acc := 0, bst := 0, pcls := 0, scr := 0, nx := 0, ny := 0, nz := 0, code := 0, codeLen := 0,
    mode := 0, param := [], spd := 0, spb := 0, hndl := 0, mqlog := 0, mqlen := 0, patr := 0, nf := [],
    tag := 0, entry := 0, sig := [], nextB := 0, lastCore := .none, mqst := 0, gates := [], logPos := [] }

/-- An instruction at issue: the machine, its warp and clause, the issue cycle and the admitted lanes
(03_encoding.md R47). `w` and `blk` are the working copies that `Cx.close` puts back. -/
structure Cx where
  caps : Caps
  m    : Mach
  t    : Nat
  bid  : Nat
  wid  : Nat
  blk  : Block
  w    : Warp
  cl   : Clause
  la   : Launch
  i    : Instr
  f    : Fields
  sh   : Shape
  adm  : Mask
  /-- The instruction is skipped by an SBR (11_async_armature.md R249). -/
  skipped : Bool
  /-- The PC slots already stand where the clause's end leaves them. -/
  ctl  : Bool
  deriving DecidableEq, Repr

/-- CAPS as a register (00_scope.md R2). -/
def Caps.word (c : Caps) : Word :=
  let b (x : Bool) (n : Nat) : Nat := if x then 2 ^ n else 0
  BitVec.ofNat 32 (c.nstack.toNat + b c.goss 4 + b c.mx64 5 + b c.fldu 6 + c.ueport.toNat * 2 ^ 8
    + 2 ^ 16 * c.klink.toNat + 2 ^ 24 * c.prev.toNat)

/-- The mask of all lanes of a width. -/
def widthMask (width : Nat) : Mask := BitVec.ofNat 64 (2 ^ width - 1)

/-- The predicate pN, a mask over the lanes; p7 reads true (02_warp_state.md R20). -/
def Warp.pred (w : Warp) (p : Nat) : Mask := if p = 7 then BitVec.allOnes 64 else w.preds.get p

/-- Writes pN in the lanes of `mask`; a write to p7 is discarded (R20). -/
def Warp.setPred (w : Warp) (p : Nat) (mask val : Mask) : Warp :=
  if p = 7 then w else { w with preds := w.preds.set p ((w.preds.get p &&& ~~~mask) ||| (val &&& mask)) }

/-- The lanes in which a guard holds (03_encoding.md R47). -/
def Warp.guardMask (w : Warp) (g : Guard) : Mask :=
  if g.neg then ~~~(w.pred g.p.toNat) else w.pred g.p.toNat

/-- A PC slot by number. -/
def Warp.slot (w : Warp) (s : Nat) : PcSlot := if s = 0 then w.s0 else w.s1
def Warp.setSlot (w : Warp) (s : Nat) (p : PcSlot) : Warp := if s = 0 then { w with s0 := p } else { w with s1 := p }
def PcSlot.empty : PcSlot := { pc := 0, mask := 0 }
def PcSlot.live (p : PcSlot) : Bool := p.mask != 0

/-- The key of a register lane in `Warp.v` and of a buffer lane in `Warp.buf`. -/
def regKey (r lane : Nat) : Nat := r * 64 + lane

/-- A main-file register as its row holds it; a dead one reads zero (R41). -/
def Warp.reg (w : Warp) (r lane : Nat) : Word := if w.deadV.getLsbD r then 0 else w.v.get (regKey r lane)

/-- A buffer entry; a dead one reads zero (R41). -/
def Warp.bufVal (w : Warp) (k lane : Nat) : Word := if w.deadB.getLsbD k then 0 else w.buf.get (regKey k lane)

/-- The main-file register that a buffer entry maps (R35). -/
def Warp.mapOf (w : Warp) (k : Nat) : Option Nat :=
  let e := w.map.get k
  if e.getLsbD 8 then some (bitsAt e 0 8) else none

/-- The buffer entries that map a register. -/
def Warp.mappers (w : Warp) (r : Nat) : List Nat := (List.range 16).filter (fun k => w.mapOf k = some r)

/-- Writes one lane of a register, and of every buffer entry that maps it (R34). -/
def Warp.setReg (w : Warp) (r lane : Nat) (x : Word) : Warp :=
  let ks := w.mappers r
  { w with
    v := w.v.set (regKey r lane) x
    deadV := w.deadV &&& ~~~(1#256 <<< r)
    buf := ks.foldl (fun b k => b.set (regKey k lane) x) w.buf
    deadB := ks.foldl (fun d k => d &&& ~~~(1#16 <<< k)) w.deadB }

/-- Writes one lane of a buffer entry. -/
def Warp.setBuf (w : Warp) (k lane : Nat) (x : Word) : Warp :=
  { w with buf := w.buf.set (regKey k lane) x, deadB := w.deadB &&& ~~~(1#16 <<< k) }

/-- Writes one lane of register number `off` of a destination; `wt` is write-through (R34). -/
def Warp.setDest (w : Warp) (d : Operand) (wt : Bool) (off lane : Nat) (x : Word) : Warp :=
  match d with
  | .v n => w.setReg (n.toNat + off) lane x
  | .b k =>
    let w := w.setBuf k.toNat lane x
    if wt then
      match w.mapOf k.toNat with
      | some r => w.setReg r lane x
      | none => w
    else w
  | _ => w

/-- The key of a result's value: register offset and lane. -/
def resKey (off lane : Nat) : Nat := 64 * off + lane

/-- Writes a result's registers in its lanes (R20). -/
def Warp.writeRegs (w : Warp) (r : Result) : Warp :=
  match r.dest with
  | none => w
  | some d =>
    (lanesOf r.mask 64).foldl (fun w l =>
      (List.range r.n).foldl (fun w o => w.setDest d r.wt o l (r.vals.get (resKey o l))) w) w

/-- Writes a result's predicates in its lanes (R20). -/
def Warp.writePreds (w : Warp) (r : Result) : Warp :=
  r.preds.foldl (fun w e => w.setPred e.1 r.mask e.2) w

/-- ORs exceptions into FLAGS (R26). -/
def Warp.orFlags (w : Warp) (x : BitVec 5) : Warp := { w with flags := w.flags ||| x.zeroExtend 32 }

/-- Writes a whole result. -/
def Warp.writeResult (w : Warp) (r : Result) : Warp := ((w.writeRegs r).writePreds r).orFlags r.flags

/-- What a result leaves in a latch: its low two words, zero in lanes that it does not write (R32). -/
def Result.latch (r : Result) : FMap 64 :=
  (lanesOf r.mask 64).foldl (fun f l =>
    f.set l (r.vals.get (resKey 1 l) ++ r.vals.get (resKey 0 l))) []

/-- The main-file registers that a result writes. -/
def Warp.rowsOf (w : Warp) (r : Result) : List Nat :=
  match r.dest with
  | some (.v n) => (List.range r.n).map (fun o => n.toNat + o)
  | some (.b k) => if r.wt then (w.mapOf k.toNat).toList else []
  | _ => []

/-- Notes the rows that a result writes in cycle `t`; none of a cycle that no event can still fall in is kept. -/
def Warp.note (w : Warp) (t : Nat) (r : Result) : Warp :=
  { w with fresh := (w.rowsOf r).map (fun n => (t, n, r.mask)) ++ w.fresh.filter (fun e => t ≤ e.1 + 8) }

/-- Whether a result of cycle `t` or later has written a register lane: it is kept (R38). -/
def Warp.kept (w : Warp) (t r lane : Nat) : Bool := w.fresh.any (fun e => t ≤ e.1 && e.2.1 = r && e.2.2.getLsbD lane)

/-- One result's write cycle: FLAGS bits cleared, the latches (R31), then the writes. -/
def Warp.land (w : Warp) (p : Pend) : Warp :=
  let w := { w with flags := w.flags &&& ~~~(p.clr.zeroExtend 32) }
  let w := if p.latch then { w with h1 := w.h0, h0 := some p.r.latch } else w
  (w.writeResult p.r).note p.at_ p.r

/-- Whether one pending result lands before another: by cycle, clears before sets in one cycle
(06_isa_control.md R96, 04_numbers.md R90), then by issue. -/
def Pend.before (a b : Pend) : Bool :=
  a.at_ < b.at_ || (a.at_ = b.at_ && (a.clr != 0 && b.clr = 0 || (a.clr != 0 || b.clr = 0) && a.seq < b.seq))

/-- Puts a result among the pending ones. -/
def insertPend (p : Pend) : List Pend → List Pend
  | [] => [p]
  | q :: qs => if p.before q then p :: q :: qs else q :: insertPend p qs

/-- Lands every pending result of cycle `t` or earlier, and a due change of WPRIO (R129). -/
def Warp.settle (w : Warp) (t : Nat) : Warp :=
  let due := w.pend.filter (fun p => p.at_ ≤ t)
  let w := due.foldl Warp.land { w with pend := w.pend.filter (fun p => !decide (p.at_ ≤ t)) }
  match w.prioAt with
  | some (c, x) => if c ≤ t then { w with wprio := x, prioAt := none } else w
  | none => w

/-- The inline constants 0 to 31, integers (03_encoding.md R53). -/
def constInts : List Int :=
  [0, 1, 2, 3, 4, 5, 6, 7] ++
  [8, 9, 10, 12, 15, 16, 24, 31] ++
  [32, 48, 63, 64, 127, 128, 255, 256] ++
  [-1, -2, -4, -8, -16, -32, -128, -256]

/-- The inline constants 32 to 63, as binary32 patterns (R53). -/
def constPats : List Nat :=
  [0x80000000, 0x3F000000, 0xBF000000, 0x3E800000, 0xBE800000, 0x3E000000, 0xBE000000, 0x3D800000] ++
  [0x3D000000, 0x3F400000, 0xBF400000, 0x3FC00000, 0xBFC00000, 0x3FA00000, 0x3FE00000, 0x40200000] ++
  [0x40600000, 0x3EC00000, 0x3F200000, 0x44800000, 0xC4800000, 0x45000000, 0x45800000, 0x47000000] ++
  [0x3B800000, 0x3A800000, 0x38800000, 0x37800000, 0x33800000, 0x7F800000, 0xFF800000, 0x7FC00000]

/-- A constant's 32-bit pattern. -/
def constWord (c : Nat) : Word :=
  if c < 32 then BitVec.ofInt 32 (constInts.getD c 0) else BitVec.ofNat 32 (constPats.getD (c - 32) 0)

/-- A constant's value as a floating-point operand (R53). -/
def constVal (c : Nat) : Num.Val :=
  if c < 32 then Num.ofInt (constInts.getD c 0) 0 else Num.decodeF Num.f32 (constPats.getD (c - 32) 0)

/-- A constant in a floating-point type. -/
def constFp (f : Num.Fmt) (c : Nat) : Nat :=
  match constVal c with
  | .nan .. => f.qnan
  | .inf neg => f.inf neg
  | .fin neg m e => Num.encodeF f neg m e

/-- The PC slot that issues. -/
def Cx.slot (c : Cx) : PcSlot := c.w.slot c.cl.slot

/-- The address of the instruction's word. -/
def Cx.ia (c : Cx) : Nat := c.cl.head + 12 * (c.cl.pos + 1)

/-- A special source in a lane (R52). -/
def Cx.special (c : Cx) (n lane : Nat) : Word :=
  let nat (x : Nat) : Word := BitVec.ofNat 32 x
  match n with
  | 0x01 => BitVec.allOnes 32
  | 0x02 => nat lane
  | 0x03 => nat c.wid
  | 0x04 => nat c.blk.width
  | 0x05 => nat ((List.range 8).foldl (fun a p => if (c.w.pred p).getLsbD lane then a + 2 ^ p else a) 0)
  | 0x06 => nat (c.slot.mask.toNat % 2 ^ 32)
  | 0x07 => nat (c.slot.mask.toNat / 2 ^ 32)
  | 0x08 => nat c.blk.x
  | 0x09 => nat c.blk.y
  | 0x0A => nat c.blk.z
  | 0x0B => nat c.la.nx
  | 0x0C => nat c.la.ny
  | 0x0D => nat c.la.nz
  | 0x0E => nat (c.blk.core % 64)
  | 0x0F => nat (c.blk.core % 64 / 4)
  | 0x10 => nat (c.blk.core / 64)
  | 0x11 => nat c.m.pkg.toNat
  | 0x12 => nat c.blk.ctx
  | 0x13 => c.caps.word
  | _ => 0

/-- A latch in a lane: free while the latch is invalid (02_warp_state.md R33). -/
def Cx.latch (c : Cx) (h lane : Nat) : DWord :=
  match (if h = 0 then c.w.h0 else c.w.h1) with
  | some f => f.get lane
  | none => Config.freeLatch c.t c.bid c.wid lane h

/-- Word `off` of an integer operand in a lane (05_isa_arithmetic.md R93, 03_encoding.md R53). -/
def Cx.rd (c : Cx) (o : Operand) (off lane : Nat) : Word :=
  match o with
  | .v n => c.w.reg (n.toNat + off) lane
  | .b k => if off = 0 then c.w.bufVal k.toNat lane else 0
  | .h i => BitVec.ofNat 32 (bitsAt (c.latch i.toNat lane) (32 * off) 32)
  | .s n => c.cl.arm.s.get (n.toNat + off)
  | .special n => if off = 0 then c.special n.toNat lane else 0
  | .const k =>
    if off = 0 then constWord k.toNat
    else if k.toNat < 32 && (constWord k.toNat).getLsbD 31 then BitVec.allOnes 32 else 0

/-- A 32-bit operand as a number. -/
def Cx.rd32 (c : Cx) (o : Operand) (lane : Nat) : Nat := (c.rd o 0 lane).toNat

/-- A 64-bit operand: the low word comes first (02_warp_state.md R19). -/
def Cx.rd64 (c : Cx) (o : Operand) (lane : Nat) : DWord := c.rd o 1 lane ++ c.rd o 0 lane

/-- A floating-point operand's pattern in its type; a constant takes its value in that type, in both
elements of a packed one (R53). -/
def Cx.rdF (c : Cx) (f : Num.Fmt) (o : Operand) (lane : Nat) : Nat :=
  match o with
  | .const k =>
    let x := constFp f k.toNat
    if f.bits = 16 then x + 2 ^ 16 * x else x
  | o => if f.bits = 64 then (c.rd64 o lane).toNat else c.rd32 o lane

/-- The source operands with the number of registers that each uses (R41, R42): A, B, C, and D where
D is read (05_isa_arithmetic.md R105, 07_core_memory.md R158). -/
def srcUses (sh : Shape) (f : Fields) : List (Operand × Nat × Bool) :=
  let use (r : Role) (o : Operand) : List (Operand × Nat × Bool) :=
    match r with
    | .srcPort n => [(o, (n + 31) / 32, true)]
    | .srcRegs n port => [(o, n, port)]
    | r => if r.isSrc then [(o, r.count, false)] else []
  let d : List (Operand × Nat × Bool) :=
    match sh.d with
    | .dstSrc _ => [(f.d, 1, false)]
    | .run n => if n = 0 then [] else [(f.d, n, false)]
    | _ => []
  use sh.a f.a ++ use sh.b f.b ++ use sh.c f.c ++ d

/-- The main-file registers of an operand. -/
def opRegs (o : Operand) (n : Nat) : List Nat :=
  match o with
  | .v r => (List.range n).map (fun k => r.toNat + k)
  | _ => []

/-- The distinct registers that an instruction reads through its banks (R42): an engine's own port is
not counted (10_matrix.md R209). -/
def bankRegs (sh : Shape) (f : Fields) : List Nat :=
  ((srcUses sh f).foldr (fun u acc => if u.2.2 then acc else opRegs u.1 u.2.1 ++ acc) []).eraseDups

/-- c, the cycles that bank conflicts add (R42). -/
def bankCost (rs : List Nat) : Nat :=
  (List.range 4).foldl (fun a b => a + ((rs.filter (fun r => r % 4 = b)).length - 1)) 0

/-- Whether an instruction reads a dead register or a dead buffer entry (R41). -/
def Warp.readsDead (w : Warp) (sh : Shape) (f : Fields) : Bool :=
  (srcUses sh f).any (fun u =>
    (opRegs u.1 u.2.1).any (fun r => w.deadV.getLsbD r) ||
    (match u.1 with
     | .b k => w.deadB.getLsbD k.toNat
     | _ => false))

/-- Marks an operand dead in every lane (R41). -/
def Warp.killOp (w : Warp) (o : Operand) (n : Nat) : Warp :=
  match o with
  | .v _ => { w with deadV := (opRegs o n).foldl (fun d r => d ||| (1#256 <<< r)) w.deadV }
  | .b k =>
    let w := { w with deadB := w.deadB ||| (1#16 <<< k.toNat) }
    match w.mapOf k.toNat with
    | some r => { w with deadV := w.deadV ||| (1#256 <<< r) }
    | none => w
  | _ => w

/-- Applies KA, KB and KC (R41, R54). -/
def Warp.kill (w : Warp) (sh : Shape) (f : Fields) : Warp :=
  let k (b : Bool) (r : Role) (o : Operand) (w : Warp) : Warp := if b then w.killOp o r.count else w
  k f.hint.kc sh.c f.c (k f.hint.kb sh.b f.b (k f.hint.ka sh.a f.a w))

end Sys2Proof.Machine
end

