-- ==== Sys2Proof/Machine/Flags.lean ====
section
/-!
DEFINITION. MODE, FLAGS and the arithmetic exceptions (04_numbers.md R86 to R89, 02_warp_state.md R26).
-/
namespace Sys2Proof.Machine
open Sys2Proof

/-- MODE bits (R86). -/
def modeRnd (mode : Word) : Nat := bitsAt mode 0 2
def modeFtz (mode : Word) : Bool := mode.getLsbD 2
def modeNsat (mode : Word) : Bool := mode.getLsbD 3
def modeZskip (mode : Word) : Bool := mode.getLsbD 4
def modeDchk (mode : Word) : Bool := mode.getLsbD 5
def modeCnan (mode : Word) : Bool := mode.getLsbD 6
/-- The trap enables TNV, TDZ, TOF, TUF and TNX, in FLAGS order. -/
def modeTraps (mode : Word) : BitVec 5 := mode.extractLsb' 8 5
/-- A MODE with a reserved bit set, which rejects its launch packet (R86). -/
def modeOk (mode : Word) : Bool := mode.getLsbD 7 = false && bitsAt mode 13 19 = 0

/-- The trap cause of exceptions under MODE: the first enabled of invalid, division by zero, overflow,
underflow and inexact, as codes 0x01 to 0x05 (R88, 18_traps.md R350). -/
def excCause (mode : Word) (x : Num.Exc) : Option Nat :=
  let e := x &&& modeTraps mode
  if e.getLsbD 0 then some 1
  else if e.getLsbD 1 then some 2
  else if e.getLsbD 2 then some 3
  else if e.getLsbD 3 then some 4
  else if e.getLsbD 4 then some 5
  else none

/-- The rounding of an operation from its RM and GR fields and MODE (R72 to R75). -/
def roundingOf (mode : Word) (rm : Nat) (gr : Bool) (rand : Nat) : Num.Rnd :=
  { rm := Num.rmOf rm (modeRnd mode), gr := gr, ftz := modeFtz mode, cnan := modeCnan mode, rand := rand,
    grand := none }

/-- The exceptions raised in any of a list of lanes. -/
def orExc (xs : List Num.Exc) : Num.Exc := xs.foldl (fun a x => a ||| x) 0#5

/-- The first lane of a list whose exceptions trap under MODE (R89). -/
def firstTrapLane (mode : Word) (cause : Nat) (xs : List (Nat × Num.Exc)) : Option Nat :=
  (xs.find? (fun e => e.2.getLsbD (cause - 1) && (modeTraps mode).getLsbD (cause - 1))).map (·.1)

end Sys2Proof.Machine
end

