-- ==== Sys2Proof/Machine/Translate.lean ====
section
/-!
DEFINITION. Physical memory behind the home slices, and translation (16_die.md R289 to R297,
17_package.md R309): the tenant interleave, page walks, the TLBs and the execute table.
-/
namespace Sys2Proof.Machine
open Sys2Proof

/-- A context record at reset: KILLT is 2 (17_package.md R313). -/
def Ctx.init : Ctx :=
  { words := [0x00020000#32, 0, 0, 0, 0, 0, 0, 0] ++ [0, 0, 0, 0, 0, 0, 0, 0], ring := .init, preempt := [],
    gossip := [], saving := none, engines := [], killCause := 0, killStatus := 0, killAt := 0, ran := 0, sliceEnd := 0,
    half := none }

/-- A partition that is not set up. -/
def Part.init : Part :=
  { cores := [], split := false, ftid := 0, cht := [], key := 0, exec := [], guarded := [],
    zeroing := false, clearing := false, turn := 0 }

def Mach.ctx (m : Mach) (c : Nat) : Ctx := (m.ctxs.find c).getD .init
def Mach.part (m : Mach) (p : Nat) : Part := (m.parts.find p).getD .init
def Mach.setCtx (m : Mach) (c : Nat) (x : Ctx) : Mach := { m with ctxs := m.ctxs.put c x }
def Mach.setPart (m : Mach) (p : Nat) (x : Part) : Mach := { m with parts := m.parts.put p x }

/-- Word k of a context record, and pairs of words (R313). -/
def Ctx.word (c : Ctx) (k : Nat) : Word := c.words.getD k 0
def Ctx.pair (c : Ctx) (k : Nat) : Nat := (c.word k).toNat + 2 ^ 32 * (c.word (k + 1)).toNat
def Ctx.setWord (c : Ctx) (k : Nat) (x : Word) : Ctx := { c with words := c.words.set k x }
def Ctx.v (c : Ctx) : Bool := (c.word 0).getLsbD 0
def Ctx.state (c : Ctx) : Nat := bitsAt (c.word 0) 1 3
def Ctx.part (c : Ctx) : Nat := bitsAt (c.word 0) 4 4
def Ctx.killt (c : Ctx) : Nat := bitsAt (c.word 0) 16 16
def Ctx.root (c : Ctx) : Nat := c.pair 1
def Ctx.setState (c : Ctx) (st : Nat) : Ctx :=
  c.setWord 0 ((c.word 0 &&& ~~~(0xE#32)) ||| BitVec.ofNat 32 (st * 2))

/-- The partition of a context. -/
def Mach.ctxPart (m : Mach) (c : Nat) : Nat := (m.ctx c).part

/-- The place in the package's DRAM of a partition's physical address (R292): channel number × 2^31 +
channel address; none at or beyond n × 2^31. -/
def Part.place (p : Part) (pa : Nat) : Option Nat :=
  let n := p.cht.length
  if pa < 2 ^ 31 * n then
    let g := pa / 4096
    some (2 ^ 31 * p.cht.getD (g % n) 0 + 4096 * (g / n) + pa % 4096)
  else none

/-- The places of `c` bytes from a physical address on; an address that names nothing has none (R292). -/
def Part.places (p : Part) (pa : Nat) : Nat → List Nat
  | 0 => []
  | c + 1 => (p.place pa).toList ++ Part.places p (pa + 1) c

/-- The value that the home slices hold (R290). -/
def Mach.bytes (m : Mach) (keys : List Nat) : List Byte := keys.map (fun k => m.mem.get k)

/-- Bytes of a partition's physical memory. -/
def Mach.readPA (m : Mach) (part pa n : Nat) : List Byte := m.bytes ((m.part part).places pa n)

/-- Whether any byte lies in a granule whose data is uncorrectable (R301). -/
def Mach.anyBad (m : Mach) (keys : List Nat) : Bool := keys.any (fun k => m.bad.contains (k / 32))

/-- A write consumes a bad granule unless it writes all of it (R301). -/
def Mach.consumesBad (m : Mach) (keys : List Nat) : Bool :=
  keys.any (fun k => m.bad.contains (k / 32) &&
    !((List.range 32).all (fun j => keys.contains (k / 32 * 32 + j))))

/-- Whether a line holds a granule whose data is uncorrectable. -/
def Mach.lineBad (m : Mach) (line : Nat) : Bool := m.bad.any (fun g => g / 4 = line)

/-- The lines of a home slice: 4 MiB of 128 bytes (01_device.md R8, R10). -/
def sliceLines : Nat := 32768

/-- A home slice that holds nothing but dirty lines writes one back for a new one: a free value picks it among those whose
data is good (R289, DESIGN CHOICE, log entry 77). -/
def Mach.makeRoom (m : Mach) (line : Nat) : Mach :=
  let here := m.dirty.filter (fun e => e.1 / 2 ^ 24 = line / 2 ^ 24)
  if here.length < sliceLines then m
  else
    let good := here.filter (fun e => !m.lineBad e.1)
    match good.drop (Config.l2Victim m.free % good.length) with
    | [] => m
    | v :: _ => { m with free := m.free + 1, dirty := m.dirty.del v.1 }

/-- A lookup hits only under the context of the line's tag: an access of another context finds the line once it has been
written back (R289). A line with uncorrectable data stays dirty and takes the tag of the access (DESIGN CHOICE, log entry 77). -/
def Mach.claimLine (m : Mach) (ctx line : Nat) : Mach :=
  match m.dirty.find line with
  | some d =>
    if d.ctx = ctx then m
    else { m with dirty := if m.lineBad line then m.dirty.put line { d with ctx := ctx } else m.dirty.del line }
  | none => m

/-- An access of a context looks its lines up at their home slices. -/
def Mach.claim (m : Mach) (ctx : Nat) (keys : List Nat) : Mach :=
  if m.dirty.isEmpty then m else keys.foldl (fun m k => m.claimLine ctx (k / 128)) m

/-- Marks the lines of a write dirty under its context; DRAM keeps the bytes that it held (R289). -/
def Mach.touch (m : Mach) (ctx : Nat) (keys : List Nat) : Mach :=
  keys.foldl (fun m k =>
    let m := m.claimLine ctx (k / 128)
    match m.dirty.find (k / 128) with
    | some _ => m
    | none =>
      let m := m.makeRoom (k / 128)
      let old := m.mem.getList (k / 128 * 128) 128
      { m with dirty := m.dirty.put (k / 128) { ctx := ctx, old := old } }) m

/-- Performs a write at the home slices. A bad granule that is written whole is good again. -/
def Mach.write (m : Mach) (ctx : Nat) (keys : List Nat) (data : List Byte) : Mach :=
  let m := m.touch ctx keys
  let fixed := m.bad.filter (fun g => (List.range 32).all (fun j => keys.contains (g * 32 + j)))
  { m with
    mem := (keys.zip data).foldl (fun f e => f.set e.1 e.2) m.mem
    bad := m.bad.filter (fun g => !fixed.contains g)
    badL2 := m.badL2.filter (fun g => !fixed.contains g) }

/-- Writes a partition's physical memory. -/
def Mach.writePA (m : Mach) (ctx part pa : Nat) (data : List Byte) : Mach :=
  m.write ctx ((m.part part).places pa data.length) data

/-- Fault causes of translation (18_traps.md R350). -/
def pageAbsent : Nat := 0x26
def pageWrite : Nat := 0x27
def pageExec : Nat := 0x28
def pteFormat : Nat := 0x29
def paRange : Nat := 0x2A
/-- Causes of uncorrectable data met by a walk, in DRAM and in a home slice (16_die.md R300). -/
def mcWalk : Nat := 0x66
def mcDram : Nat := 0x65
def mcL2Data : Nat := 0x64

/-- Whether a cause is that of uncorrectable data in memory. -/
def isBadData (cause : Nat) : Bool := cause = mcWalk || cause = mcDram || cause = mcL2Data

/-- Where an uncorrectable granule stands: in the home slice where its error is the slice's own or its line is dirty there, else in
DRAM (R300, DEDUCED, log entry 68). -/
def Mach.badInL2 (m : Mach) (g : Nat) : Bool := m.badL2.contains g || (m.dirty.find (g / 4)).isSome

/-- The cause with which a consumer meets uncorrectable data (R300). -/
def Mach.badCause (m : Mach) (keys : List Nat) : Nat :=
  match keys.find? (fun k => m.bad.contains (k / 32)) with
  | some k => if m.badInL2 (k / 32) then mcL2Data else mcDram
  | none => mcDram

/-- Whether a cause is a translation cause. -/
def isTranslation (cause : Nat) : Bool := 0x26 ≤ cause && cause ≤ 0x2A

/-- The levels of the table tree: the index's lowest bit and its width (R294). -/
def walkLevels : List (Nat × Nat) := [(48, 9), (39, 9), (30, 9), (21, 9), (16, 5)]

/-- Whether a place lies in the DRAM of a stack that is off, which nothing reaches (23_physical.md R400). -/
def Mach.offKey (m : Mach) (k : Nat) : Bool := m.dies.any (fun d => d.1 = k / 2 ^ 36 && d.2.off)

/-- The first of a list of places that is out of reach. An access to one ends as an access beyond the partition's DRAM does, with
PA_RANGE (DESIGN CHOICE, log entry 84). -/
def Mach.offIndex (m : Mach) (keys : List Nat) : Option Nat :=
  if m.dies.all (fun d => !d.2.off) then none else indexWhere m.offKey keys 0

/-- A walk from the table at `table` down the given levels (R294, R295, R297). -/
def Mach.walkFrom (m : Mach) (part ctx va : Nat) : List (Nat × Nat) → Nat → Except Nat TlbEntry
  | [], _ => .error pteFormat
  | (lo, n) :: rest, table =>
    let p := m.part part
    let size := 8 * 2 ^ n
    if 2 ^ 31 * p.cht.length < table + size then .error paRange
    else
      let at_ := table + 8 * ((va >>> lo) % 2 ^ n)
      let e := leNat (m.readPA part at_ 8)
      let leaf := e.testBit 1
      let addr := e / 2 ^ 8 % 2 ^ 44 * 2 ^ 8
      let last := rest.isEmpty
      let nextSize := match rest with
        | (_, k) :: _ => 8 * 2 ^ k
        | [] => 1
      if (m.offIndex (p.places at_ 8)).isSome then .error paRange
      else if m.anyBad (p.places at_ 8) then .error mcWalk
      else if !e.testBit 0 then .error pageAbsent
      else if e / 2 ^ 4 % 16 != 0 || e / 2 ^ 52 != 0 || (leaf && 30 < lo) || (!leaf && last)
          || addr % (if leaf then 2 ^ lo else nextSize) != 0 || (leaf && e.testBit 2 && e.testBit 3) then
        .error pteFormat
      else if leaf then
        if 2 ^ 31 * p.cht.length < 2 ^ lo + addr then .error paRange
        else .ok { ctx := ctx, va := va / 2 ^ lo * 2 ^ lo, size := 2 ^ lo, pa := addr, w := e.testBit 2, x := e.testBit 3 }
      else m.walkFrom part ctx va rest addr

/-- The places of the entries that a walk reads, in its order. -/
def Mach.entriesFrom (m : Mach) (part va : Nat) : List (Nat × Nat) → Nat → List (List Nat)
  | [], _ => []
  | (lo, n) :: rest, table =>
    let p := m.part part
    let ks := p.places (table + 8 * ((va >>> lo) % 2 ^ n)) 8
    if 2 ^ 31 * p.cht.length < table + 8 * 2 ^ n || (m.offIndex ks).isSome then []
    else
      let e := leNat (m.bytes ks)
      ks :: (if !m.anyBad ks && e.testBit 0 && !e.testBit 1 then m.entriesFrom part va rest (e / 2 ^ 8 % 2 ^ 44 * 2 ^ 8) else [])

/-- The places of the entries that a context's walk reads, and of the one that it finds uncorrectable; none where it finds none. -/
def Mach.entries (m : Mach) (ctx va : Nat) : List (List Nat) := m.entriesFrom (m.ctxPart ctx) va walkLevels (m.ctx ctx).root
def Mach.badEntry (m : Mach) (ctx va : Nat) : List Nat := ((m.entries ctx va).find? m.anyBad).getD []

/-- A page walk of a context's address space. -/
def Mach.walk (m : Mach) (ctx va : Nat) : Except Nat TlbEntry :=
  m.walkFrom (m.ctxPart ctx) ctx va walkLevels (m.ctx ctx).root

/-- Whether a translation covers an address of a context. -/
def TlbEntry.covers (e : TlbEntry) (ctx va : Nat) : Bool := e.ctx = ctx && e.va ≤ va && va < e.va + e.size

/-- Whether a physical granule is in the partition's execute table or protected by a running code map (R309). -/
def Part.protectedPA (p : Part) (pa : Nat) : Bool :=
  (p.exec.find (pa / 2 ^ 16)).isSome || p.guarded.any (fun g => g.2 = pa / 2 ^ 16)

/-- The permission check of a leaf that passed the walk (R297): the physical address, or the cause. A held translation may
name an address beyond the partition's DRAM (R292). -/
def Mach.permit (m : Mach) (e : TlbEntry) (va : Nat) (acc : Access) : Except Nat Nat :=
  let pa := e.pa + (va - e.va)
  let p := m.part (m.ctxPart e.ctx)
  if 2 ^ 31 * p.cht.length ≤ pa || (m.offIndex (p.places pa 1)).isSome then .error paRange
  else
  match acc with
  | .read => .ok pa
  | .write => if !e.w || p.protectedPA pa then .error pageWrite else .ok pa
  | .fetch => if !e.x || (p.exec.find (pa / 2 ^ 16)).isNone then .error pageExec else .ok pa

/-- The translation that a core holds for an address: its µTLB, then its cluster's TLB (R296). -/
def Mach.tlbHit (m : Mach) (core ctx va : Nat) : Option TlbEntry :=
  let f (l : List TlbEntry) := l.find? (fun e => e.covers ctx va)
  match f ((m.utlb.find core).getD []) with
  | some e => some e
  | none => f ((m.ctlb.find (core / 4)).getD [])

/-- Enters a translation in the TLBs of a core and its cluster; the oldest entry goes when one is full. -/
def Mach.tlbFill (m : Mach) (core : Nat) (e : TlbEntry) : Mach :=
  let add (n : Nat) (l : List TlbEntry) := ((if l.contains e then l else e :: l)).take n
  { m with
    utlb := m.utlb.put core (add 64 ((m.utlb.find core).getD []))
    ctlb := m.ctlb.put (core / 4) (add 2048 ((m.ctlb.find (core / 4)).getD [])) }

/-- What an access of a core translates to, TLBs first, without changing them. -/
def Mach.look (m : Mach) (core ctx va : Nat) (acc : Access) : Except Nat (Nat × TlbEntry) :=
  let r : Except Nat TlbEntry :=
    match m.tlbHit core ctx va with
    | some e => .ok e
    | none => m.walk ctx va
  match r with
  | .error c => .error c
  | .ok e =>
    match m.permit e va acc with
    | .error c => .error c
    | .ok pa => .ok (pa, e)

/-- A walk looks its entries' lines up (R289). -/
def Mach.walked (m : Mach) (ctx va : Nat) : Mach := if m.dirty.isEmpty then m else (m.entries ctx va).foldl (fun m ks => m.claim ctx ks) m

/-- Translates an access of a core, filling the TLBs; a walk that ends in a fault leaves nothing (R295). -/
def Mach.translate (m : Mach) (core ctx va : Nat) (acc : Access) : Mach × Except Nat Nat :=
  let seen := if (m.tlbHit core ctx va).isNone then m.walked ctx va else m
  match m.look core ctx va acc with
  | .error c => (seen, .error c)
  | .ok (pa, e) => (seen.tlbFill core e, .ok pa)

/-- Translates an access of the package's own engines, which hold no TLB of a core. -/
def Mach.translateEngine (m : Mach) (ctx va : Nat) (acc : Access) : Except Nat Nat :=
  match m.walk ctx va with
  | .error c => .error c
  | .ok e => m.permit e va acc

/-- The physical address of a place in a partition's DRAM (16_die.md R292). -/
def Part.paOf (p : Part) (key : Nat) : Option Nat :=
  match indexWhere (fun ch => ch = key / 2 ^ 31) p.cht 0 with
  | some j => some (4096 * (key % 2 ^ 31 / 4096 * p.cht.length + j) + key % 4096)
  | none => none

/-! ### Bound gossip regions (21_fabric.md R370, R372) -/

/-- Word k of a region descriptor, and its fields (R370). -/
def Gossip.word (g : Gossip) (k : Nat) : Nat := (g.desc.getD k 0).toNat
def Gossip.nch (g : Gossip) : Nat := g.word 1
def Gossip.csz (g : Gossip) : Nat := g.word 2 % 256
def Gossip.kbyte (g : Gossip) : Nat := g.word 2 / 2 ^ 8 % 256
def Gossip.nn (g : Gossip) : Nat := g.word 2 / 2 ^ 16 % 256
def Gossip.gmode (g : Gossip) : Nat := g.word 2 / 2 ^ 24
def Gossip.pair (g : Gossip) (k : Nat) : Nat := g.word k + 2 ^ 32 * g.word (k + 1)
def Gossip.vbase (g : Gossip) : Nat := g.pair 4
def Gossip.wbase (g : Gossip) : Nat := g.pair 6
def Gossip.sbase (g : Gossip) : Nat := g.pair 8
def Gossip.nbr (g : Gossip) (j : Nat) : Nat := g.word (10 + j / 2) / 2 ^ (16 * (j % 2)) % 2 ^ 16
/-- V, the values of a chunk. -/
def Gossip.values (g : Gossip) : Nat := if g.csz = 0 then 64 else if g.csz = 1 then 512 else 4096

/-- The three storage ranges of a region: base and length. -/
def Gossip.ranges (g : Gossip) : List (Nat × Nat) :=
  [(g.vbase, 8 * g.values * g.nch), (g.wbase, 8 * g.nch), (g.sbase, 4 * g.nn * g.nch)]

/-- Whether a place in the package's DRAM lies in a bound region, by the translations kept at binding (R371, R372). -/
def Gossip.holds (g : Gossip) (p : Part) (key : Nat) : Bool :=
  match p.paOf key with
  | none => false
  | some pa => g.pins.any (fun e => e.2 / 2 ^ 16 = pa / 2 ^ 16 &&
      g.ranges.any (fun r => r.1 ≤ 2 ^ 16 * e.1 + pa % 2 ^ 16 && 2 ^ 16 * e.1 + pa % 2 ^ 16 < r.1 + r.2))

/-- Whether a place lies in a bound region of any context of a partition. -/
def Mach.boundKey (m : Mach) (part key : Nat) : Bool :=
  m.ctxs.any (fun c => c.2.part = part && c.2.gossip.any (fun g => g.2.holds (m.part part) key))

def gossipRange : Nat := 0xA7

/-- A write that has translated and is permitted faults at its first byte in a bound region (R372). -/
def Mach.guardBound (m : Mach) (part : Nat) (acc : Access) (va : Nat) (r : Except (Nat × Nat) (List Nat)) :
    Except (Nat × Nat) (List Nat) :=
  match acc, r with
  | .write, .ok keys =>
    match indexWhere (m.boundKey part) keys 0 with
    | some i => .error (gossipRange, va + i)
    | none => .ok keys
  | _, r => r

/-- A range cut at the 64 KiB granules it touches: no leaf maps less than one (R294). -/
def granuleChunks : Nat → Nat → Nat → List (Nat × Nat)
  | 0, _, _ => []
  | fuel + 1, va, n =>
    if n = 0 then []
    else
      let k := min n (2 ^ 16 - va % 2 ^ 16)
      (va, k) :: granuleChunks fuel (va + k) (n - k)

/-- The places of a range's chunks, or the cause and address of the first that fails. -/
def Mach.chunkKeys (m : Mach) (tr : Nat → Except Nat Nat) (part : Nat) : List (Nat × Nat) → Except (Nat × Nat) (List Nat)
  | [] => .ok []
  | (va, k) :: rest =>
    match tr va with
    | .error c => .error (c, va)
    | .ok pa =>
      let here := (m.part part).places pa k
      match m.offIndex here with
      | some i => .error (paRange, va + i)
      | none =>
        match m.chunkKeys tr part rest with
        | .error e => .error e
        | .ok ks => .ok (here ++ ks)

/-- The places of `n` bytes at virtual addresses from `va` on, for the package's engines. -/
def Mach.engineKeys (m : Mach) (ctx : Nat) (acc : Access) (va n : Nat) : Except (Nat × Nat) (List Nat) :=
  m.guardBound (m.ctxPart ctx) acc va
    (m.chunkKeys (fun a => m.translateEngine ctx a acc) (m.ctxPart ctx) (granuleChunks (n / 2 ^ 16 + 2) va n))

/-- The places of `n` bytes for a core's engine, through its TLBs. -/
def Mach.coreKeys (m : Mach) (core ctx : Nat) (acc : Access) (va n : Nat) : Except (Nat × Nat) (List Nat) :=
  m.guardBound (m.ctxPart ctx) acc va
    (m.chunkKeys (fun a => (m.look core ctx a acc).map (·.1)) (m.ctxPart ctx) (granuleChunks (n / 2 ^ 16 + 2) va n))

/-- An engine's access looks up the lines that its walks and its bytes lie in (R289). -/
def Mach.brought (m : Mach) (ctx va n : Nat) (keys : List Nat) : Mach :=
  if m.dirty.isEmpty then m
  else ((granuleChunks (n / 2 ^ 16 + 2) va n).foldl (fun m c => m.walked ctx c.1) m).claim ctx keys

/-- The words of an instruction or header at a virtual address, as the core fetches them (03_encoding.md R45). -/
def Mach.fetchWord (m : Mach) (core ctx va : Nat) : Except Nat IWord :=
  match m.look core ctx va .fetch with
  | .error c => .error c
  | .ok (pa, _) =>
    let keys := (m.part (m.ctxPart ctx)).places pa 12
    if (m.offIndex keys).isSome then .error paRange
    else if m.anyBad keys then .error (m.badCause keys)
    else .ok (BitVec.ofNat 96 (leNat (m.bytes keys)))

/-- A word of a scanned granule as the scan found it. Nothing has written it since (03_encoding.md R60), so the part knows where the
clauses lie and where the padding begins, and fetches nothing for it (R46). -/
def Mach.scannedWord (m : Mach) (core ctx va : Nat) : Except Nat Nat :=
  match m.look core ctx (2 ^ 16 * (va / 2 ^ 16)) .fetch with
  | .error c => .error c
  | .ok (pa, _) => .ok (leNat (m.readPA (m.ctxPart ctx) (pa + va % 2 ^ 16) 12))

/-- The header of the clause that directly follows a clause (03_encoding.md R46): at the next word, or at
offset 0 of the next granule where padding begins. Where the granule is no longer mapped executable, it is the next word, and the fault
is due at it. -/
def Mach.nextHeader (m : Mach) (core ctx : Nat) (head len : Nat) : Nat :=
  let a := head + 12 * (len + 2)
  let g := 2 ^ 16 * (head / 2 ^ 16 + 1)
  let inGranule := a + 12 ≤ g &&
    match m.scannedWord core ctx a with
    | .ok w => w / 2 ^ 88 = 0xF8
    | .error _ => true
  (if inGranule then a else g) % 2 ^ 57

end Sys2Proof.Machine
end

