-- ==== Sys2Proof/Machine/Ops.lean ====
section
/-!
DEFINITION. The shared operations of an issue: opening the warp that stands inside a clause, the issue
cycle, dead bits, results and operations, taking a precise trap (04_numbers.md R88, 18_traps.md R340), and
the end of a clause.
-/
namespace Sys2Proof.Machine
open Sys2Proof

/-- Every event and issue ends here: CAPS stays (00_scope.md R2) and the clock never falls (06_isa_control.md R127). -/
def State.lift (s : State) (t : Nat) (m : Mach) : State := { s with now := max s.now t, m := m }

/-- The outcome of an event or an issue: its next state, or the fault that says it does not occur here. -/
def outcome (why : Fault) : Option State → Host.Outcome State Fault Refusal
  | some s => .next s
  | none => .fault why

/-- The outcome of an event of the part. -/
def event (s : State) (r : Option (Nat × Mach)) : Host.Outcome State Fault Refusal :=
  outcome .notEnabled (r.map (fun e => s.lift e.1 e.2))

def Mach.block (m : Mach) (b : Nat) : Option Block := m.blocks.find b
def Mach.setBlock (m : Mach) (b : Nat) (x : Block) : Mach := { m with blocks := m.blocks.put b x }
def Block.warp (b : Block) (w : Nat) : Option Warp := b.warps.find w
def Block.setWarp (b : Block) (w : Nat) (x : Warp) : Block := { b with warps := b.warps.put w x }

/-- A warp of a block. -/
def Mach.warp (m : Mach) (b w : Nat) : Option (Block × Warp) :=
  match m.block b with
  | none => none
  | some blk => (blk.warp w).map (fun x => (blk, x))

/-- Puts a warp back. -/
def Mach.setWarp (m : Mach) (b w : Nat) (x : Warp) : Mach :=
  match m.block b with
  | none => m
  | some blk => m.setBlock b (blk.setWarp w x)

/-- The launch of a block. -/
def Mach.launchOf (m : Mach) (blk : Block) : Launch := (m.launches.find blk.launch).getD .none

/-- A warp that stands inside a clause and is not stopped. -/
def Warp.issuing (w : Warp) : Bool := w.clause.isSome && w.stop.isNone

/-- c of an instruction (02_warp_state.md R42). -/
def instrCost (i : Instr) : Nat :=
  match i.fields, i.shape with
  | some f, some sh => bankCost (bankRegs sh f)
  | _, _ => 0

/-- c of the word at an address of a context; zero where none is read. -/
def Mach.wordCost (m : Mach) (core ctx va : Nat) : Nat :=
  match m.fetchWord core ctx va with
  | .ok word => ((decode word).map instrCost).getD 0
  | .error _ => 0

/-- The address of the word that a warp inside a clause issues next (03_encoding.md R45). -/
def Clause.word (c : Clause) : Nat := c.head + 12 * (c.pos + 1)

/-- The warp, clause and instruction of an issue. The issue cycle is the last of the 1 + c cycles that
the instruction occupies (02_warp_state.md R42, R43); results due by then have been written (R31). -/
def openCx (i : Instr) (s : State) : Option Cx :=
  match s.m.focus, i.fields, i.shape with
  | some (b, w), some f, some sh =>
    match s.m.warp b w with
    | none => none
    | some (blk, x) =>
      match x.clause, x.stop with
      | some cl, none =>
        let t := max s.now (cl.next + bankCost (bankRegs sh f))
        let x := x.settle t
        let skipped := cl.skip != 0
        some
          { caps := s.caps, m := s.m, t := t, bid := b, wid := w, blk := blk, w := x, cl := cl,
            la := s.m.launchOf blk, i := i, f := f, sh := sh, skipped := skipped, ctl := false,
            adm := if skipped then 0 else (x.slot cl.slot).mask &&& x.guardMask f.g }
      | _, _ => none
  | _, _, _ => none

/-- The admitted lanes, rising. -/
def Cx.lanes (c : Cx) : List Nat := lanesOf c.adm 64

/-- The lowest admitted lane; lane 0 where none is admitted. -/
def Cx.lane (c : Cx) : Nat := c.lanes.headD 0

def Cx.mode (c : Cx) : Word := c.la.mode

/-- Puts the working copies back into the machine; the warp has occupied the cycles up to its issue (12_core_scheduling.md R260). -/
def Cx.flush (c : Cx) : Mach := c.m.setBlock c.bid (c.blk.setWarp c.wid { c.w with issuedTo := c.t + 1 })

/-- Takes the machine as given, with the warp's block as it stands there. -/
def Cx.reload (c : Cx) (m : Mach) : Cx :=
  match m.warp c.bid c.wid with
  | some (blk, w) => { c with m := m, blk := blk, w := w }
  | none => { c with m := m }

/-- A change of the whole machine from within an issue. -/
def Cx.viaMach (c : Cx) (f : Mach → Mach) : Cx := c.reload (f c.flush)

/-- The address of the clause that directly follows (06_isa_control.md R130). -/
def Cx.next (c : Cx) : Nat := c.m.nextHeader c.blk.core c.blk.ctx c.cl.head c.cl.hdr.len.toNat

/-- A write of the armature, at its result cycle (11_async_armature.md R245). -/
def Cx.armWrite (c : Cx) (at_ : Nat) (wr : ArmWrite) : Cx :=
  { c with blk := { c.blk with armPend := c.blk.armPend ++ [{ at_ := at_, warp := c.wid, wr := wr }] } }

/-- Exceptions set OVF in the cycle in which they set FLAGS (11_async_armature.md R243). -/
def Cx.armOvf (c : Cx) (at_ : Nat) (x : Num.Exc) : Cx := if x = 0 then c else c.armWrite at_ (.ovfOr x)

/-- A fixed-latency result, written `lat` cycles after issue (02_warp_state.md R44). -/
def Cx.fixed (c : Cx) (lat : Nat) (latch : Bool) (clr : BitVec 5) (r : Result) : Cx :=
  let p : Pend := { at_ := c.t + lat, seq := c.w.seq, latch := latch, r := r, clr := clr }
  ({ c with w := { c.w with pend := insertPend p c.w.pend } }).armOvf (c.t + lat) r.flags

/-- The flag that FS selects through the clause's header (03_encoding.md R49). -/
def Cx.flagNo (c : Cx) : Option Nat :=
  let fs := bitsAt c.f.mod 18 2
  if fs = 1 && c.cl.hdr.e1 then some c.cl.hdr.f1.toNat
  else if fs = 2 && c.cl.hdr.e2 then some c.cl.hdr.f2.toNat
  else none

/-- The batches of a class at launch (02_warp_state.md R16). -/
def Batches.init : Batches := { open_ := 0, out := 0, bad := [] }
def Warp.batch (w : Warp) (cls : Nat) : Batches := (w.batches.find cls).getD .init
def Warp.setBatch (w : Warp) (cls : Nat) (b : Batches) : Warp := { w with batches := w.batches.put cls b }

/-- Issues a variable-latency operation: its flag's count rises by one (02_warp_state.md R23), and a
batch-counted one enters the open batch of its class (11_async_armature.md R228). -/
def Cx.startTracked (c : Cx) (flag : Option Nat) (cls : Option Nat) (p : Payload) : Cx :=
  let op : Op :=
    { seq := c.w.seq, flag := flag, batch := cls.map (fun k => (k, (c.w.batch k).open_.toNat)), ia := c.ia,
      slot := c.cl.slot, mask := c.adm, payload := p, flagDone := false, batchDone := false, fault := none,
      reported := false, word := some c.i }
  let counts := match flag with
    | some k => c.w.counts.set k (c.w.counts.get k + 1)
    | none => c.w.counts
  { c with w := { c.w with ops := c.w.ops.put c.w.nextOp op, nextOp := c.w.nextOp + 1, counts := counts } }

/-- Issues an operation under the flag that FS selects. One that admits no lane completes at issue, so
that its count does not change (03_encoding.md R47). -/
def Cx.start (c : Cx) (cls : Option Nat) (p : Payload) : Cx :=
  if c.adm = 0 then c else c.startTracked c.flagNo cls p

/-- The warp once an instruction has issued: the next place in issue order, and the skid's count after a
broadcast (12_core_scheduling.md R269). -/
def Cx.counted (c : Cx) : Warp :=
  { c.w with seq := c.w.seq + 1, skid := c.w.skid + (if c.blk.primary.isSome && !c.blk.halted then 1 else 0) }

/-- A precise trap: its cause, the exceptions that set FLAGS, XCODE, FADDR, FMASK, whether the instruction
executes again on resumption (06_isa_control.md R133), the header to resume at where it is not Next, and
the machine as the instruction's own spill has left it (R131). -/
structure Trap where
  cause : Nat
  exc   : Num.Exc
  lat   : Nat
  xcode : Word
  faddr : DWord
  fmask : Option Mask
  redo  : Bool
  next  : Option Nat
  mach  : Option Mach
  deriving DecidableEq, Repr

/-- A trap that carries nothing but its cause. -/
def Trap.of (cause : Nat) : Trap :=
  { cause := cause, exc := 0, lat := 1, xcode := 0, faddr := 0, fmask := none, redo := false, next := none, mach := none }

/-- The cycle in which the warp would issue its next instruction (12_core_scheduling.md R268, 02_warp_state.md R43). -/
def Cx.stopCycle (c : Cx) : Nat :=
  c.t + 1 + c.f.hint.stall.toNat +
    (if c.cl.pos < c.cl.hdr.len.toNat then c.m.wordCost c.blk.core c.blk.ctx (c.ia + 12) else 0)

/-- The earliest cycle of the clause after one that ends: behind the last instruction's STALL and every fixed-latency
result (02_warp_state.md R33, 03_encoding.md R54). -/
def Cx.endFree (c : Cx) (w : Warp) : Nat := w.pend.foldl (fun a p => max a p.at_) (c.t + 1 + c.f.hint.stall.toNat)

/-- TAKING AN EXCEPTION: a precise trap of the instruction at issue (04_numbers.md R88, 18_traps.md R340,
12_core_scheduling.md R268). The instruction changes nothing but FLAGS; the warp stops, with the place to
resume at; the stop cycle is that of the next instruction's earliest issue. The machine then broadcasts the
stop, writes the halt record and enters the handler (Machine/Traps.lean). A trap of a clause's last instruction ends the
clause (06_isa_control.md R141). -/
def Cx.takeTrap (c : Cx) (tr : Trap) : Cx :=
  let last := c.cl.pos = c.cl.hdr.len.toNat
  let ends := last && !tr.redo
  let pos := if tr.redo then c.cl.pos else if last then 0 else c.cl.pos + 1
  let rhdr := if ends then tr.next.getD c.next else c.cl.head
  let info : FaultInfo :=
    { cause := tr.cause, ia := c.ia, fmask := tr.fmask.getD c.adm, faddr := tr.faddr, xcode := tr.xcode,
      lane := 0xFF, slot := c.cl.slot }
  let stop : Stop :=
    { how := 0, cycle := c.stopCycle, cause := tr.cause, kind := 0, info := info, rhdr := rhdr, pos := pos, skid := 0 }
  let c := { c with m := tr.mach.getD c.m }
  let c := if tr.exc = 0 then c else
    c.fixed tr.lat false 0
      { dest := none, n := 0, wt := false, mask := 0, vals := [], preds := [], flags := tr.exc }
  let w := { c.counted with stop := some stop }
  { c with w :=
    if pos = 0 then
      let w := ({ w with clause := none }).setSlot c.cl.slot { (w.slot c.cl.slot) with pc := BitVec.ofNat 57 rhdr }
      if ends then { w with free := c.endFree w, turn := 1 - c.cl.slot, yp := c.cl.hdr.yp } else w
    else
      let skip := if tr.redo then c.cl.skip else c.cl.skip - 1
      { w with clause := some { c.cl with pos := pos, next := c.t + 1 + c.f.hint.stall.toNat, skip := skip } } }

/-- The end of a clause: both latches stand until the next clause starts; the warp's next clause starts
no earlier than the last instruction's STALL and results allow (02_warp_state.md R33, 03_encoding.md R54);
the next clause comes from the other PC slot when both can start (06_isa_control.md R141). -/
def Cx.endClause (c : Cx) : Cx :=
  let w := if c.ctl then c.w else
    c.w.setSlot c.cl.slot { c.slot with pc := BitVec.ofNat 57 c.next }
  { c with w := { w with
      clause := none
      free := c.endFree w
      turn := 1 - c.cl.slot
      yp := c.cl.hdr.yp
      yield_ := if c.f.hint.y then some c.t else none } }

/-- Goes on to the clause's next instruction, or ends the clause (R43). -/
def Cx.advance (c : Cx) : Cx :=
  let c := { c with w := c.counted }
  if c.cl.pos < c.cl.hdr.len.toNat then
    let cl := { c.cl with pos := c.cl.pos + 1, next := c.t + 1 + c.f.hint.stall.toNat, skip := c.cl.skip - 1 }
    { c with cl := cl, w := { c.w with clause := some cl } }
  else c.endClause

/-- Whether the instruction needs a unit that CAPS marks absent (00_scope.md R3). -/
def Cx.unitAbsent (c : Cx) : Bool :=
  (c.i.needsGossip && !c.caps.goss) || (c.i.needsField && !c.caps.fldu)

/-- What an instruction does once its issue is under way: a changed view, or a precise trap. -/
abbrev Act := Cx → Except Trap Cx

/-- The checks that come before any instruction's own effect: an absent unit (00_scope.md R3), then a dead read (02_warp_state.md
R41). An absent unit traps by opcode, whether or not a lane is admitted (DEDUCED, log entry 13). OPF copies a dead register as
dead and never faults (07_core_memory.md R159). -/
def Cx.guarded (c : Cx) (act : Act) : Except Trap Cx :=
  if c.unitAbsent then .error (.of 0x0C)
  else if modeDchk c.mode && c.adm != 0 && c.sh.cls != .opf && c.w.readsDead c.sh c.f then .error (.of 0x06)
  else act c

/-- Carries an issue out: the effect, then the dead bits (R41) and the next instruction; or the trap. -/
def Cx.run (c : Cx) (act : Act) : Cx :=
  match c.guarded act with
  | .ok d => ({ d with w := d.w.kill d.sh d.f }).advance
  | .error tr => c.takeTrap tr

/-- The state after an issue; none where no warp stands inside a clause. -/
def issueState (i : Instr) (act : Act) (s : State) : Option State :=
  (openCx i s).map (fun c => s.lift c.t (c.run act).flush)

/-- The meaning of an instruction word: the issue of it by the warp inside its clause. -/
def issue (i : Instr) (act : Act) (s : State) : Host.Outcome State Fault Refusal :=
  outcome .noWarpAtIssue (issueState i act s)

/-- A view of the warp alone. -/
abbrev WarpAct := Cx → Except Trap (Warp × List ArmPend)

/-- An effect that reaches nothing of the machine but the warp and the armature's pending writes. -/
def Act.ofWarp (f : WarpAct) : Act := fun c =>
  match f c with
  | .ok (w, ap) => .ok { c with w := w, blk := { c.blk with armPend := ap } }
  | .error tr => .error tr

/-! ### Results -/

/-- A result with no register. -/
def Result.none : Result := { dest := .none, n := 0, wt := false, mask := 0, vals := [], preds := [], flags := 0 }

/-- The values of a result from words by lane and register. -/
def valsOf (n : Nat) (lanes : List Nat) (f : Nat → Nat → Word) : FMap 32 :=
  lanes.foldl (fun m l => (List.range n).foldl (fun m o => m.set (resKey o l) (f l o)) m) []

/-- The result of D in the admitted lanes, `n` registers from words by lane and register. -/
def Cx.resultN (c : Cx) (n : Nat) (f : Nat → Nat → Word) : Result :=
  { dest := some c.f.d, n := n, wt := c.f.hint.wt, mask := c.adm, vals := valsOf n c.lanes f, preds := [], flags := 0 }

/-- A 32-bit result by lane. -/
def Cx.result32 (c : Cx) (f : Nat → Nat) : Result := c.resultN 1 (fun l _ => BitVec.ofNat 32 (f l))

/-- A result of 32 or 64 bits by lane. -/
def Cx.resultBits (c : Cx) (bits : Nat) (f : Nat → Nat) : Result :=
  c.resultN (bits / 32) (fun l o => BitVec.ofNat 32 (f l / 2 ^ (32 * o)))

/-- A fixed-latency instruction that only computes D. -/
def fixedAct (lat : Nat) (r : Cx → Result) : Act := fun c => .ok (c.fixed lat true 0 (r c))

/-- The lanes of a mask given by a test. -/
def Cx.where_ (c : Cx) (p : Nat → Bool) : Mask := maskOf 64 (fun l => c.adm.getLsbD l && p l)

/-- A fixed-latency instruction that detects exceptions (R87, R88): it traps precisely on an enabled one,
and otherwise writes its result and sets FLAGS in its result cycle. -/
def fixedExcAct (lat : Nat) (latch : Bool) (r : Cx → Result) : Act := fun c =>
  let x := r c
  match excCause c.mode x.flags with
  | some cause => .error { Trap.of cause with exc := x.flags, lat := lat }
  | none => .ok (c.fixed lat latch 0 x)

/-- A variable-latency instruction of the warp that may raise exceptions (R89): an enabled one writes no
lane and becomes its operation's fault, which names the first lane that raised it. -/
def varExcAct (r : Cx → Result) (exc : Cx → List (Nat × Num.Exc)) : Act := fun c =>
  let x := r c
  if c.adm = 0 then .ok c
  else
    match excCause c.mode x.flags with
    | some cause =>
      let d := c.start none (.result { x with mask := 0, preds := [] })
      let info : FaultInfo :=
        { cause := cause, ia := c.ia, fmask := c.adm, faddr := 0, xcode := 0,
          lane := (firstTrapLane c.mode cause (exc c)).getD 0xFF, slot := c.cl.slot }
      .ok { d with w := { d.w with ops := d.w.ops.upd c.w.nextOp (fun o => { o with fault := some info }) } }
    | none => .ok (c.start none (.result x))

end Sys2Proof.Machine
end

