-- ==== Sys2Proof/Machine/ArmState.lean ====
section
/-!
DEFINITION. The armature's state over time (11_async_armature.md R243, R245, R246): pending writes become
visible to the clauses that begin two cycles after their result cycle.
-/
namespace Sys2Proof.Machine
open Sys2Proof

/-- The armature at block start: LS is 1.0, all else zero, no owner (R243). -/
def Arm.init : Arm := { s := [], owner := [], shapes := [], ls := 0x3F800000, gcnt := 0, ovf := 0 }

/-- Makes one write. -/
def Arm.apply (a : Arm) (wr : ArmWrite) : Arm :=
  match wr with
  | .sreg n x => { a with s := a.s.set n x }
  | .own base cnt w =>
    { a with owner := (List.range cnt).foldl (fun o i =>
        match w with
        | some k => o.put (base + i) k
        | none => o.del (base + i)) a.owner }
  | .shape r x y => { a with shapes := a.shapes.put r (x, y) }
  | .scale ls gcnt => { a with ls := ls, gcnt := gcnt }
  | .ovfOr x => { a with ovf := a.ovf ||| x }
  | .ovfClr x => { a with ovf := a.ovf &&& ~~~x }

/-- OVF bits are cleared before they are set in one cycle; the lower-numbered warp's write is made first (R243, R245). -/
def ArmPend.before (a b : ArmPend) : Bool :=
  let clr (p : ArmPend) : Nat := match p.wr with
    | .ovfClr _ => 0
    | _ => 1
  a.at_ < b.at_ || (a.at_ = b.at_ && (clr a < clr b || (clr a = clr b && a.warp < b.warp)))

def insertArm (p : ArmPend) : List ArmPend → List ArmPend
  | [] => [p]
  | q :: qs => if p.before q then p :: q :: qs else q :: insertArm p qs

/-- Pending writes in the order in which they are made. -/
def sortArm (ps : List ArmPend) : List ArmPend := ps.foldl (fun l p => insertArm p l) []

/-- The armature with every write of a result cycle up to `t`. -/
def Block.armAt (b : Block) (t : Nat) : Arm :=
  (sortArm (b.armPend.filter (fun p => p.at_ ≤ t))).foldl (fun a p => a.apply p.wr) b.arm

/-- Makes the writes of result cycles up to `t` for good. -/
def Block.settleArm (b : Block) (t : Nat) : Block :=
  { b with arm := b.armAt t, armPend := b.armPend.filter (fun p => !decide (p.at_ ≤ t)) }

/-- The registers that a warp owns, every pending write included. -/
def Block.owned (b : Block) (w : Nat) : List Nat :=
  let a := (sortArm b.armPend).foldl (fun a p => a.apply p.wr) b.arm
  (List.range 64).filter (fun n => a.owner.find n = some w)

/-- An ending warp frees everything it owns (R246). -/
def Block.freeOwned (b : Block) (t w : Nat) : Block :=
  { b with armPend := b.armPend ++ (b.owned w).map (fun n => { at_ := t + 1, warp := w, wr := .own n 1 none }) }

end Sys2Proof.Machine
end

