-- ==== Sys2Proof/Machine/Transc.lean ====
section
/-!
DEFINITION. Quotients, roots and the transcendental functions as exact values, or, where a value is not
representable, as a value whose one rounding into any format is that of the exact one (04_numbers.md R70,
05_isa_arithmetic.md R105, R106). Such a value keeps more than 150 bits and an odd last bit in place of the
rest of its expansion.
-/
namespace Sys2Proof.Num

/-- A value m × 2^e with the rest of its expansion above zero. -/
def sticky (neg : Bool) (m : Nat) (e : Int) : Val := .fin neg (2 * m + 1) (e - 1)

/-- The bits of the root below 2^k of a number, from the top bit down: the largest r with r² ≤ n. -/
def isqrtFrom (n : Nat) : Nat → Nat → Nat
  | 0, r => r
  | k + 1, r => isqrtFrom n k (if (r + 2 ^ k) * (r + 2 ^ k) ≤ n then r + 2 ^ k else r)

/-- floor(√n). -/
def isqrt (n : Nat) : Nat := isqrtFrom n (Nat.log2 n / 2 + 1) 0

/-- m1 × 2^e1 ÷ (m2 × 2^e2), both nonzero. -/
def divFin (neg : Bool) (m1 : Nat) (e1 : Int) (m2 : Nat) (e2 : Int) : Val :=
  let k := 200 + Nat.log2 m2
  let n := m1 * 2 ^ k
  let q := n / m2
  let e := e1 - e2 - k
  if n % m2 = 0 then .fin neg q e else sticky neg q e

/-- √(m × 2^e), m nonzero. -/
def sqrtFin (m : Nat) (e : Int) : Val :=
  let s : Nat := 400 + (if (e % 2) = 0 then 0 else 1)
  let n := m * 2 ^ s
  let r := isqrt n
  let h := (e - s) / 2
  if r * r = n then .fin false r h else sticky false r h

/-- 1 ÷ √(m × 2^e), m nonzero. -/
def rsqrtFin (m : Nat) (e : Int) : Val :=
  let odd := (e % 2) != 0
  let m := if odd then 2 * m else m
  let e := if odd then e - 1 else e
  let k := 220 + Nat.log2 m
  let n := 2 ^ (2 * k) / m
  let r := isqrt n
  let h := -(e / 2) - k
  if r * r * m = 2 ^ (2 * k) then .fin false r h else sticky false r h

/-- Fixed-point fraction bits of the series below. -/
def fixP : Nat := 512
/-- One in fixed point. -/
def fixOne : Int := 2 ^ fixP

/-- z + z³/3 + z⁵/5 + … in fixed point: `p` is the current power. -/
def atanhSum (z2 : Int) : Nat → Nat → Int → Int
  | 0, _, _ => 0
  | n + 1, k, p => p / k + atanhSum z2 n (k + 2) (p * z2 / fixOne)

/-- atanh of a fixed-point number below 1/3 in magnitude or equal to it. -/
def atanhFix (z : Int) : Int := atanhSum (z * z / fixOne) 180 1 z

/-- ln 2 = 2 atanh(1/3). -/
def ln2Fix : Int := 2 * atanhFix (fixOne / 3)

/-- 1 + y + y²/2! + … in fixed point: `t` is the current term and `k` its number. -/
def expSum (y : Int) : Nat → Nat → Int → Int
  | 0, _, _ => 0
  | n + 1, k, t => t + expSum y n (k + 1) (t * y / fixOne / (k + 1))

/-- 2^a for a finite a. -/
def exp2Fin (neg : Bool) (m : Nat) (e : Int) : Val :=
  if m = 0 then .one
  else if 12 < topExp m e then (if neg then .fin false 1 (-20000) else .fin false 1 20000)
  else
    let (t, r, s) := cut m e 0
    -- the fraction in fixed point, cut toward −∞
    let f : Nat := r * 2 ^ fixP / 2 ^ s
    if r = 0 then .fin false 1 (if neg then -(t : Int) else t)
    else
      let i : Int := if neg then -(t : Int) - 1 else t
      let f : Int := if neg then fixOne - 1 - f else f
      let y := f * ln2Fix / fixOne
      sticky false (expSum y 110 0 fixOne).natAbs (i - fixP)

/-- log2 of m × 2^e, m nonzero. -/
def log2Fin (m : Nat) (e : Int) : Val :=
  let k := topExp m e
  let h := Nat.log2 m
  if m = 2 ^ h then ofInt k 0
  else
    -- m = 2^h × f with 1 < f < 2; above 3/2 the fraction is taken from 2 downwards
    let up := decide (3 * 2 ^ h ≤ 2 * m)
    let k := if up then k + 1 else k
    let d : Nat := if up then 2 ^ (h + 1) else 2 ^ h
    let z : Int := ((m : Int) - d) * fixOne / ((m : Int) + d)
    let l := 2 * atanhFix z * fixOne / ln2Fix
    let r := k * fixOne + l
    sticky (decide (r < 0)) r.natAbs (-(fixP : Int))

/-- Machin's formula's arctangent of 1/n in fixed point: 1/n − 1/(3 n³) + …. -/
def atanInv (n2 : Int) : Nat → Nat → Int → Int
  | 0, _, _ => 0
  | m + 1, k, p => p / k - atanInv n2 m (k + 2) (p / n2)

/-- π = 16 atan(1/5) − 4 atan(1/239). -/
def piFix : Int := 16 * atanInv 25 120 1 (fixOne / 5) - 4 * atanInv 57121 40 1 (fixOne / 239)

/-- The alternating series of sine (k = 1, t = y) and cosine (k = 0, t = 1) in fixed point. -/
def trigSum (y2 : Int) : Nat → Nat → Int → Int
  | 0, _, _ => 0
  | n + 1, k, t => t - trigSum y2 n (k + 2) (t * y2 / fixOne / ((k + 1) * (k + 2) : Nat))

/-- sin(πa) for a finite nonzero a that is no multiple of ½; with `cos`, cos(πa). -/
def trigPi (cos neg : Bool) (m : Nat) (e : Int) : Val :=
  if topExp m e < -180 then
    if cos then sticky false (2 ^ fixP - 1) (-(fixP : Int))
    else sticky neg (piFix.natAbs * m) (e - fixP)
  else
    -- a mod 2 in fixed point: the format's grid lies above 2^−512 here
    let r : Nat := (cut m e (-(fixP : Int))).1 % 2 ^ (fixP + 1)
    let half : Nat := 2 ^ (fixP - 1)
    let q := (r / half + if cos then 1 else 0) % 4
    let t : Int := (r % half : Nat)
    let y := t * piFix / fixOne
    let y2 := y * y / fixOne
    let v := if q % 2 = 0 then trigSum y2 64 1 y else trigSum y2 64 0 fixOne
    sticky ((decide (2 ≤ q)) != (neg && !cos)) (min v.natAbs (2 ^ fixP - 1)) (-(fixP : Int))

end Sys2Proof.Num
end

