-- ==== Sys2Proof/Machine/FloatArith.lean ====
section
/-!
DEFINITION. Floating-point instructions (05_isa_arithmetic.md R104 to R108).
-/
namespace Sys2Proof.Machine
open Sys2Proof
open Sys2Proof.Num

/-- The format of FN and its elements (R104). -/
def fpFmt (fn : Nat) : Fmt := if fn = 1 then f16 else if fn = 2 then bf16 else if fn = 3 then f64 else f32
def fpElems (fn : Nat) : Nat := if fn = 1 ∨ fn = 2 then 2 else 1

/-- Element i of a packed pattern. -/
def elemOf (bits i x : Nat) : Nat := x / 2 ^ (bits * i) % 2 ^ bits

/-- A result from each lane's bits and exceptions. -/
def Cx.resultOf (c : Cx) (bits : Nat) (xs : List (Nat × Nat × Exc)) : Result :=
  { dest := some c.f.d, n := bits / 32, wt := c.f.hint.wt, mask := c.adm,
    vals := xs.foldl (fun m e => (List.range (bits / 32)).foldl (fun m o =>
      m.set (resKey o e.1) (BitVec.ofNat 32 (e.2.1 / 2 ^ (32 * o)))) m) []
    preds := [], flags := orExc (xs.map (fun e => e.2.2)) }

/-- The rounding of an instruction with RM in MOD[2:0] and GR in MOD[3] (04_numbers.md R72). -/
def Cx.rounding (c : Cx) (rand : Nat) : Rnd := roundingOf c.mode (bitsAt c.f.mod 0 3) (c.f.mod.getLsbD 3) rand

/-- Each lane's elements computed on their own (R70): `g` gets the format, the rounding with the element's
random word, the lane, the element's number and its operands as read. -/
def Cx.elementwise (c : Cx) (fn w : Nat) (srcs : List Operand) (rand : Operand)
    (g : Fmt → Rnd → Nat → Nat → List Val → Nat × Exc) : List (Nat × Nat × Exc) :=
  let f := fpFmt fn
  c.lanes.map (fun l =>
    let ps := srcs.map (fun o => c.rdF f o l)
    let rw := c.rd32 rand l
    let es := (List.range (fpElems fn)).map (fun i =>
      (i, g f (c.rounding (rw / 2 ^ (16 * i))) l i (ps.map (fun p => decodeF f (elemOf f.bits i p)))))
    (l, es.foldl (fun a e => a + e.2.1 * 2 ^ (w * e.1)) 0, orExc (es.map (fun e => e.2.2))))

/-- Subnormal inputs under FTZ outside the gradient class (R74). -/
def inputs (f : Fmt) (k : Rnd) (vs : List Val) : List Val := vs.map (flush f (k.ftz && !k.gr))

/-- Rounds an arithmetic result: any NaN operand gives the NaN of R71, an invalid operation the canonical
NaN (R70, R71). -/
def arith (f : Fmt) (k : Rnd) (ops : List Val) (invalid : Bool) (v : Val) : Nat × Exc :=
  let iv := if invalid then nv else 0#5
  if ops.any Val.isNan then (nanF f k.cnan ops, snanExc ops ||| iv)
  else if invalid then (f.qnan, nv)
  else resultF f k [] v

/-- An exact sum of products and terms, rounded once: each product is a pair (R105). -/
def sumProducts (f : Fmt) (k : Rnd) (ops : List Val) (prods : List (Val × Val)) (terms : List Val) : Nat × Exc :=
  let ps := prods.filter (fun p => !p.1.isNan && !p.2.isNan)
  let badMul := ps.any (fun p => mulInvalid p.1 p.2)
  let ts := (ps.map (fun p => mul p.1 p.2) ++ terms).filter (fun t => !t.isNan)
  arith f k ops (badMul || sumInvalid ts) (sum k.rm ts)

def fadd (f : Fmt) (k : Rnd) (_ _ : Nat) (vs : List Val) : Nat × Exc :=
  let vs := inputs f k vs
  sumProducts f k vs [] vs

def fmul (f : Fmt) (k : Rnd) (_ _ : Nat) (vs : List Val) : Nat × Exc :=
  match inputs f k vs with
  | [a, b] => arith f k [a, b] (mulInvalid a b) (mul a b)
  | _ => (0, 0#5)

def ffma (f : Fmt) (k : Rnd) (_ _ : Nat) (vs : List Val) : Nat × Exc :=
  match inputs f k vs with
  | [a, b, c] => sumProducts f k [a, b, c] [(a, b)] [c]
  | _ => (0, 0#5)

/-- FSCL: a × 2^k, correctly rounded for every k (R105). -/
def fscl (f : Fmt) (k : Rnd) (n : Int) (vs : List Val) : Nat × Exc :=
  match inputs f k vs with
  | [a] =>
    let v := match a with
      | .fin neg m e => .fin neg m (e + n)
      | a => a
    arith f k [a] false v
  | _ => (0, 0#5)

/-- FRND: an integral value, with no inexact; a zero result keeps the sign of a (R105). -/
def frnd (f : Fmt) (k : Rnd) (_ _ : Nat) (vs : List Val) : Nat × Exc :=
  match inputs f k vs with
  | [.fin neg m e] => (encodeF f neg (roundAt k.rm neg m e 0 k.rand f.rbits).1 0, 0#5)
  | [a] => arith f k [a] false a
  | _ => (0, 0#5)

def fdiv (f : Fmt) (k : Rnd) (_ _ : Nat) (vs : List Val) : Nat × Exc :=
  match inputs f k vs with
  | [a, b] =>
    let neg := a.neg? != b.neg?
    match a, b with
    | .fin _ m1 e1, .fin _ m2 e2 =>
      if m2 = 0 then (if m1 = 0 then (f.qnan, nv) else (f.inf neg, dz))
      else if m1 = 0 then (f.zero neg, 0#5)
      else resultF f k [] (divFin neg m1 e1 m2 e2)
    | .inf _, .inf _ => (f.qnan, nv)
    | .inf _, .fin .. => (f.inf neg, 0#5)
    | .fin .., .inf _ => (f.zero neg, 0#5)
    | a, b => arith f k [a, b] false a
  | _ => (0, 0#5)

/-- FSQRT, FRCP, FRSQ, FEX2, FLG2, FSINP and FCOSP by opcode (R105, R106). -/
def ffunc (op : Nat) (f : Fmt) (k : Rnd) (_ _ : Nat) (vs : List Val) : Nat × Exc :=
  match inputs f k vs with
  | [a] =>
    match op, a with
    | _, .nan .. => arith f k [a] false a
    | 0x26, .fin neg m e =>
      if m = 0 then (f.zero neg, 0#5) else if neg then (f.qnan, nv) else resultF f k [] (sqrtFin m e)
    | 0x26, .inf neg => if neg then (f.qnan, nv) else (f.inf false, 0#5)
    | 0x27, .fin neg m e => if m = 0 then (f.inf neg, dz) else resultF f k [] (divFin neg 1 0 m e)
    | 0x27, .inf neg => (f.zero neg, 0#5)
    | 0x28, .fin neg m e =>
      if m = 0 then (f.inf neg, dz) else if neg then (f.qnan, nv) else resultF f k [] (rsqrtFin m e)
    | 0x28, .inf neg => if neg then (f.qnan, nv) else (f.zero false, 0#5)
    | 0x29, .fin neg m e => resultF f k [] (exp2Fin neg m e)
    | 0x29, .inf neg => (if neg then f.zero false else f.inf false, 0#5)
    | 0x2A, .fin neg m e =>
      if m = 0 then (f.inf true, dz) else if neg then (f.qnan, nv) else resultF f k [] (log2Fin m e)
    | 0x2A, .inf neg => if neg then (f.qnan, nv) else (f.inf false, 0#5)
    | 0x2B, .fin neg m e =>
      if isInteger a then (f.zero neg, 0#5)
      else if isInteger (.fin neg m (e + 1)) then
        let (t, _, _) := cut m e (-1)
        resultF f k [] (.fin ((t / 2 % 2 = 1) != neg) 1 0)
      else resultF f k [] (trigPi false neg m e)
    | 0x2C, .fin neg m e =>
      if isInteger (.fin neg m (e + 1)) then
        let (t, _, _) := cut m e (-1)
        if t % 2 = 1 then (f.zero false, 0#5) else resultF f k [] (.fin (t / 2 % 2 = 1) 1 0)
      else resultF f k [] (trigPi true neg m e)
    | _, _ => (f.qnan, nv)
  | _ => (0, 0#5)

/-- FMIN and FMAX (R107). -/
def fminmax (isMax : Bool) (f : Fmt) (k : Rnd) (_ _ : Nat) (vs : List Val) : Nat × Exc :=
  match inputs f k vs with
  | [a, b] =>
    let x := snanExc [a, b]
    let enc (v : Val) : Nat := match v with
      | .fin neg m e => encodeF f neg m e
      | .inf neg => f.inf neg
      | v => nanF f k.cnan [v]
    if a.isNan && b.isNan then (nanF f k.cnan [a, b], x)
    else if a.isNan then (enc b, x)
    else if b.isNan then (enc a, x)
    else
      let lt := if a.isZero && b.isZero then a.neg? && !b.neg? else cmp a b = .lt
      let gt := if a.isZero && b.isZero then b.neg? && !a.neg? else cmp a b = .gt
      (enc (if isMax then (if lt then b else a) else (if gt then b else a)), x)
  | _ => (0, 0#5)

/-- FXTR.exp and .man; `w` is the width of an exponent result (R108). -/
def fxtr (man : Bool) (w : Nat) (f : Fmt) (k : Rnd) (_ _ : Nat) (vs : List Val) : Nat × Exc :=
  match inputs f k vs with
  | [a] =>
    match a with
    | .nan .. => if man then arith f k [a] false a else (2 ^ (w - 1), nv)
    | .inf neg => if man then (f.inf neg, 0#5) else (2 ^ (w - 1) - 1, nv)
    | .fin neg m e =>
      if m = 0 then (if man then (f.zero neg, 0#5) else (2 ^ (w - 1), nv))
      else if man then (encodeF f neg m (e - topExp m e), 0#5)
      else (((topExp m e) % (2 ^ w : Nat)).toNat, 0#5)
  | _ => (0, 0#5)

/-- FCLS: the one-hot class, ignoring FTZ (R108). -/
def fcls (f : Fmt) (_ : Rnd) (_ _ : Nat) (vs : List Val) : Nat × Exc :=
  let cls (v : Val) : Nat := match v with
    | .nan .. => if v.isSnan then 0 else 1
    | .inf neg => if neg then 2 else 9
    | .fin neg m e =>
      if m = 0 then (if neg then 5 else 6)
      else if topExp m e < f.emin then (if neg then 4 else 7)
      else (if neg then 3 else 8)
  match vs with
  | [a] => (2 ^ cls a, 0#5)
  | _ => (0, 0#5)

/-- The random word's operand: C for the forms that read no C (R105). -/
def fpAct (srcs : Fields → List Operand) (rand : Fields → Operand) (g : Fmt → Rnd → Nat → Nat → List Val → Nat × Exc) : Act :=
  fun c =>
    let fn := c.f.fn.toNat
    let f := fpFmt fn
    fixedExcAct (fpLat c.f.fn) true (fun c =>
      c.resultOf (fpBits c.f.fn) (c.elementwise fn f.bits (srcs c.f) (rand c.f) g)) c

/-- A variable-latency form (R89, R105). -/
def fpVarAct (srcs : Fields → List Operand) (g : Fmt → Rnd → Nat → Nat → List Val → Nat × Exc) : Act :=
  fun c =>
    let fn := c.f.fn.toNat
    let xs := c.elementwise fn (fpFmt fn).bits (srcs c.f) c.f.c g
    varExcAct (fun c => c.resultOf (fpBits c.f.fn) xs) (fun _ => xs.map (fun e => (e.1, e.2.2))) c

def srcA (f : Fields) : List Operand := [f.a]
def srcAB (f : Fields) : List Operand := [f.a, f.b]
def srcABC (f : Fields) : List Operand := [f.a, f.b, f.c]

/-- FDOT2: products and sum exact, rounded once into binary32 (R105). -/
def actFdot2 : Act := fixedExcAct 4 true (fun c =>
  let h := fpFmt c.f.fn.toNat
  c.resultOf 32 (c.lanes.map (fun l =>
    let k := c.rounding (c.rd32 c.f.d l)
    let fl (f : Fmt) (v : Val) := flush f (k.ftz && !k.gr) v
    let e (o : Operand) (i : Nat) : Val := fl h (decodeF h (elemOf 16 i (c.rdF h o l)))
    let x := fl f32 (decodeF f32 (c.rdF f32 c.f.c l))
    let (a0, a1, b0, b1) := (e c.f.a 0, e c.f.a 1, e c.f.b 0, e c.f.b 1)
    (l, sumProducts f32 k [a0, a1, b0, b1, x] [(a0, b0), (a1, b1)] [x]))))

/-- FSCL's scale: SI(b), or the signed half of its element in a packed type (R105). -/
def actFscl : Act := fun c =>
  let fn := c.f.fn.toNat
  fpAct srcA (·.c) (fun f k l i vs =>
    let b := c.rd32 c.f.b l
    fscl f k (if fpElems fn = 2 then sx 16 (elemOf 16 i b) else sx 32 b) vs) c

/-- FXTR's result is 32 bits for .exp of a scalar type, else in the type of a (R108). -/
def actFxtr : Act := fun c =>
  let fn := c.f.fn.toNat
  let man := c.f.mod.getLsbD 4
  let f := fpFmt fn
  let w := if fpElems fn = 2 then 16 else 32
  fixedExcAct (fpLat c.f.fn) true (fun c =>
    c.resultOf (if man then fpBits c.f.fn else 32) (c.elementwise fn (if man then f.bits else w) [c.f.a] (.special 0)
      (fun f k l i vs => fxtr man w f { k with gr := false } l i vs))) c

/-- FCLS (R108): the class bits in a D of the type's width, every other bit zero (R104). -/
def actFcls : Act := fun c =>
  let fn := c.f.fn.toNat
  fixedExcAct (fpLat c.f.fn) true (fun c =>
    c.resultOf (fpBits c.f.fn) (c.elementwise fn (if fpElems fn = 2 then 16 else 32) [c.f.a] (.special 0) fcls)) c

/-- FADD (R105): Adds floating-point values with one rounding. -/
def execFadd (w : CForm) (s : State) : Host.Outcome State Fault Refusal := issue (.fadd w) (fpAct srcAB (·.c) fadd) s

/-- FMUL (R105): Multiplies floating-point values with one rounding. -/
def execFmul (w : CForm) (s : State) : Host.Outcome State Fault Refusal := issue (.fmul w) (fpAct srcAB (·.c) fmul) s

/-- FFMA (R105): Forms a fused multiply-add with one rounding. -/
def execFfma (w : CForm) (s : State) : Host.Outcome State Fault Refusal := issue (.ffma w) (fpAct srcABC (·.d) ffma) s

/-- FDOT2 (R105): Forms a packed two-term dot product plus a binary32 addend, rounded once. -/
def execFdot2 (w : CForm) (s : State) : Host.Outcome State Fault Refusal := issue (.fdot2 w) actFdot2 s

/-- FMIN (R107): Writes the floating-point minimum. -/
def execFmin (w : CForm) (s : State) : Host.Outcome State Fault Refusal := issue (.fmin w) (fpAct srcAB (·.c) (fminmax false)) s

/-- FMAX (R107): Writes the floating-point maximum. -/
def execFmax (w : CForm) (s : State) : Host.Outcome State Fault Refusal := issue (.fmax w) (fpAct srcAB (·.c) (fminmax true)) s

/-- FDIV (R106): Divides, variable-latency and correctly rounded. -/
def execFdiv (w : CForm) (s : State) : Host.Outcome State Fault Refusal := issue (.fdiv w) (fpVarAct srcAB fdiv) s

/-- FSQRT (R106): Takes the square root, variable-latency. -/
def execFsqrt (w : CForm) (s : State) : Host.Outcome State Fault Refusal := issue (.fsqrt w) (fpVarAct srcA (ffunc 0x26)) s

/-- FRCP (R106): Takes the reciprocal, variable-latency. -/
def execFrcp (w : CForm) (s : State) : Host.Outcome State Fault Refusal := issue (.frcp w) (fpVarAct srcA (ffunc 0x27)) s

/-- FRSQ (R106): Takes the reciprocal square root, variable-latency. -/
def execFrsq (w : CForm) (s : State) : Host.Outcome State Fault Refusal := issue (.frsq w) (fpVarAct srcA (ffunc 0x28)) s

/-- FEX2 (R106): Computes 2^a, variable-latency. -/
def execFex2 (w : CForm) (s : State) : Host.Outcome State Fault Refusal := issue (.fex2 w) (fpVarAct srcA (ffunc 0x29)) s

/-- FLG2 (R106): Computes log2 a, variable-latency. -/
def execFlg2 (w : CForm) (s : State) : Host.Outcome State Fault Refusal := issue (.flg2 w) (fpVarAct srcA (ffunc 0x2A)) s

/-- FSINP (R106): Computes sin(pi a), variable-latency. -/
def execFsinp (w : CForm) (s : State) : Host.Outcome State Fault Refusal := issue (.fsinp w) (fpVarAct srcA (ffunc 0x2B)) s

/-- FCOSP (R106): Computes cos(pi a), variable-latency. -/
def execFcosp (w : CForm) (s : State) : Host.Outcome State Fault Refusal := issue (.fcosp w) (fpVarAct srcA (ffunc 0x2C)) s

/-- FRND (R105): Rounds to an integral value in the chosen direction. -/
def execFrnd (w : CForm) (s : State) : Host.Outcome State Fault Refusal := issue (.frnd w) (fpAct srcA (·.c) frnd) s

/-- FSCL (R105): Scales by a power of two with one rounding. -/
def execFscl (w : CForm) (s : State) : Host.Outcome State Fault Refusal := issue (.fscl w) actFscl s

/-- FXTR (R108): Extracts the exponent or the normalised mantissa. -/
def execFxtr (w : CForm) (s : State) : Host.Outcome State Fault Refusal := issue (.fxtr w) actFxtr s

/-- FCLS (R108): Writes a one-hot floating-point class. -/
def execFcls (w : CForm) (s : State) : Host.Outcome State Fault Refusal := issue (.fcls w) actFcls s

end Sys2Proof.Machine
end

