-- ==== Sys2Proof/Machine/IntArith.lean ====
section
/-!
DEFINITION. Integer and address instructions (05_isa_arithmetic.md R99 to R103).
-/
namespace Sys2Proof.Machine
open Sys2Proof

/-- The two's-complement value of a 32-bit pattern. -/
def si32 (x : Nat) : Int := sx 32 x
/-- The two's-complement value of a 64-bit pattern. -/
def si64 (x : Nat) : Int := sx 64 x
/-- [x]w of an integer. -/
def wrapN (w : Nat) (x : Int) : Nat := (x % (2 ^ w : Nat)).toNat
/-- A pattern of `w` bits clamped to the signed range. -/
def satI (w : Nat) (x : Int) : Nat := wrapN w (clampInt x (-(2 ^ (w - 1) : Nat)) ((2 ^ (w - 1) : Nat) - 1))
/-- A pattern of `w` bits clamped to the unsigned range. -/
def satN (w : Nat) (x : Int) : Nat := wrapN w (clampInt x 0 ((2 ^ w : Nat) - 1))

/-- The sum (sign 1) or difference (sign −1) of two patterns by FN: .wrap, .sat.i, .sat.n (R100). -/
def addSub (w fn : Nat) (sign : Int) (a b : Nat) : Nat :=
  if fn = 1 then satI w (sx w a + sign * sx w b)
  else if fn = 2 then satN w ((a : Int) + sign * b)
  else wrapN w ((a : Int) + sign * b)

/-- IADD and ISUB, with the carry forms (R100). -/
def actAddSub (sign : Int) : Act :=
  fixedAct 1 (fun c =>
    let fn := c.f.fn.toNat
    let a (l : Nat) := c.rd32 c.f.a l
    let b (l : Nat) := c.rd32 c.f.b l
    if fn = 3 then
      let ci := c.w.pred (bitsAt c.f.mod 0 3)
      let cin (l : Nat) : Int := if c.f.mod.getLsbD 3 && ci.getLsbD l then 1 else 0
      let t (l : Nat) : Int := (a l : Int) + sign * b l + sign * cin l
      let cout := c.where_ (fun l => decide (t l < 0 ∨ (2 : Int) ^ 32 ≤ t l))
      let r := c.result32 (fun l => wrapN 32 (t l))
      if c.f.mod.getLsbD 7 then { r with preds := [(bitsAt c.f.mod 4 3, cout)] } else r
    else c.result32 (fun l => addSub 32 fn sign (a l) (b l)))

/-- IMUL's result by FN: the low word, or the high word of the signed or unsigned product (R100). -/
def mulWord (fn a b : Nat) : Nat :=
  if fn = 1 then wrapN 32 (si32 a * si32 b / (2 ^ 32 : Nat))
  else if fn = 2 then a * b / 2 ^ 32
  else a * b % 2 ^ 32

/-- IDIV's quotient and remainder (R102). -/
def idivPair (signed : Bool) (a b : Nat) : Nat × Nat :=
  if b = 0 then (0xFFFFFFFF, a)
  else if signed then
    if si32 a = -(2 ^ 31 : Nat) && si32 b = -1 then (0x80000000, 0)
    else (wrapN 32 (Int.tdiv (si32 a) (si32 b)), wrapN 32 (Int.tmod (si32 a) (si32 b)))
  else (a / b, a % b)

/-- A reduction of two 32-bit patterns by the code of IMNMX: min.i, max.i, min.n, max.n. -/
def minMax (fn a b : Nat) : Nat :=
  if fn = 0 then (if si32 b < si32 a then b else a)
  else if fn = 1 then (if si32 a < si32 b then b else a)
  else if fn = 2 then min a b
  else max a b

/-- IABS (R100). -/
def absNeg (fn : Nat) (sat : Bool) (a : Nat) : Nat :=
  if sat && a = 0x80000000 then 0x7FFFFFFF
  else if fn = 1 then wrapN 32 (-(si32 a))
  else wrapN 32 (si32 a).natAbs

/-- LOP by FN (R100). -/
def logic (fn : Nat) (a b : Word) : Word :=
  match fn with
  | 0 => a &&& b
  | 1 => a ||| b
  | 2 => a ^^^ b
  | 3 => a &&& ~~~b
  | 4 => a ||| ~~~b
  | 5 => ~~~(a ^^^ b)
  | _ => ~~~a

/-- A word from its bits. -/
def ofBits (n : Nat) (f : Nat → Bool) : Nat :=
  (List.range n).foldl (fun x j => if f j then x + 2 ^ j else x) 0

/-- LOP3: bit j from TT at 4·aj + 2·bj + cj (R100). -/
def lop3 (tt a b c : Nat) : Nat :=
  let bit (x j : Nat) : Nat := if x.testBit j then 1 else 0
  ofBits 32 (fun j => tt.testBit (4 * bit a j + 2 * bit b j + bit c j))

def shlWord (a b : Nat) : Nat := if b < 32 then a * 2 ^ b % 2 ^ 32 else 0

/-- SHR.l (FN 0) and SHR.a (FN 1) (R100). -/
def shrWord (fn a b : Nat) : Nat :=
  if fn = 0 then (if b < 32 then a / 2 ^ b else 0)
  else if b < 32 then wrapN 32 (si32 a / (2 ^ b : Nat))
  else if a.testBit 31 then 0xFFFFFFFF else 0

/-- A 32-bit word rotated left. -/
def rotl32 (a n : Nat) : Nat := (a * 2 ^ (n % 32) + a / 2 ^ (32 - n % 32)) % 2 ^ 32

/-- SHF (R100). -/
def funnel (fn a b c : Nat) : Nat :=
  let v := 2 ^ 32 * b + a
  let n := min c 32
  if fn = 0 then v * 2 ^ n / 2 ^ 32 % 2 ^ 32 else v / 2 ^ n % 2 ^ 32

/-- BFX (R101). -/
def bfx (signed : Bool) (a b : Nat) : Nat :=
  let pos := b % 256
  let len := min (b / 256 % 256) 32
  let bit (j : Nat) : Bool := if pos + j < 32 then a.testBit (pos + j) else signed && a.testBit 31
  if len = 0 then 0
  else ofBits 32 (fun j => if j < len then bit j else signed && bit (len - 1))

/-- BFI (R101). -/
def bfi (a b c : Nat) : Nat :=
  let pos := b % 256
  let len := min (b / 256 % 256) 32
  ofBits 32 (fun i => if pos ≤ i && i < pos + len then a.testBit (i - pos) else c.testBit i)

/-- The number of one bits of a word. -/
def popWord (a : Nat) : Nat := popCount (BitVec.ofNat 32 a) 32

/-- Leading zero bits (FN 0) or trailing zero bits (FN 1); 32 for zero (R101). -/
def zeroBits (fn a : Nat) : Nat :=
  if a = 0 then 32
  else if fn = 0 then 31 - Nat.log2 a
  else ((List.range 32).find? (fun j => a.testBit j)).getD 32

/-- PRMB (R101). -/
def permBytes (a b c : Nat) : Nat :=
  let v := 2 ^ 32 * b + a
  let y (i : Nat) : Nat :=
    let sel := c / 2 ^ (4 * i) % 16
    let y := v / 2 ^ (8 * (sel % 8)) % 256
    if 8 ≤ sel then (if 128 ≤ y then 0xFF else 0) else y
  y 0 + 2 ^ 8 * y 1 + 2 ^ 16 * y 2 + 2 ^ 24 * y 3

/-- IDP4 (R100). -/
def dot4 (signed : Bool) (a b c : Nat) : Nat :=
  let byte (x i : Nat) : Int := if signed then sx 8 (x / 2 ^ (8 * i)) else ((x / 2 ^ (8 * i) % 256 : Nat) : Int)
  wrapN 32 ((List.range 4).foldl (fun s i => s + byte a i * byte b i) (c : Int))

/-- MIX.comb (R103). -/
def mixComb (h x : Nat) : Nat := rotl32 (0x2C1B3C6D * Nat.xor h x % 2 ^ 32) 13

/-- MIX.h32 of a list of sources (R103). -/
def mixH32 (xs : List Nat) : Nat :=
  let h := xs.foldl mixComb 0
  Nat.xor h (h / 2 ^ 16)

/-- NOP: nothing (R99). -/
def actNop : Act := fun c => .ok c

def actImul : Act := fixedAct 1 (fun c => c.result32 (fun l => mulWord c.f.fn.toNat (c.rd32 c.f.a l) (c.rd32 c.f.b l)))

def actImad : Act := fixedAct 1 (fun c =>
  c.result32 (fun l => (mulWord c.f.fn.toNat (c.rd32 c.f.a l) (c.rd32 c.f.b l) + c.rd32 c.f.c l) % 2 ^ 32))

def actImadw : Act := fixedAct 1 (fun c => c.resultBits 64 (fun l =>
  let a := c.rd32 c.f.a l
  let b := c.rd32 c.f.b l
  let x := (c.rd64 c.f.c l).toNat
  if c.f.fn = 0 then wrapN 64 (si32 a * si32 b + si64 x) else (a * b + x) % 2 ^ 64))

def actIdiv : Act := varExcAct
  (fun c => c.result32 (fun l =>
    let fn := c.f.fn.toNat
    let qm := idivPair (fn % 2 = 0) (c.rd32 c.f.a l) (c.rd32 c.f.b l)
    if fn < 2 then qm.1 else qm.2))
  (fun _ => [])

def actImnmx : Act := fixedAct 1 (fun c => c.result32 (fun l => minMax c.f.fn.toNat (c.rd32 c.f.a l) (c.rd32 c.f.b l)))

def actIabs : Act := fixedAct 1 (fun c => c.result32 (fun l => absNeg c.f.fn.toNat (c.f.mod.getLsbD 0) (c.rd32 c.f.a l)))

def actLop : Act := fixedAct 1 (fun c => c.resultN 1 (fun l _ => logic c.f.fn.toNat (c.rd c.f.a 0 l) (c.rd c.f.b 0 l)))

def actLop3 : Act := fixedAct 1 (fun c =>
  c.result32 (fun l => lop3 (bitsAt c.f.mod 0 8) (c.rd32 c.f.a l) (c.rd32 c.f.b l) (c.rd32 c.f.c l)))

def actShl : Act := fixedAct 1 (fun c => c.result32 (fun l => shlWord (c.rd32 c.f.a l) (c.rd32 c.f.b l)))

def actShr : Act := fixedAct 1 (fun c => c.result32 (fun l => shrWord c.f.fn.toNat (c.rd32 c.f.a l) (c.rd32 c.f.b l)))

def actRot : Act := fixedAct 1 (fun c => c.result32 (fun l =>
  let n := c.rd32 c.f.b l % 32
  rotl32 (c.rd32 c.f.a l) (if c.f.fn = 0 then n else 32 - n)))

def actShf : Act := fixedAct 1 (fun c =>
  c.result32 (fun l => funnel c.f.fn.toNat (c.rd32 c.f.a l) (c.rd32 c.f.b l) (c.rd32 c.f.c l)))

def actBfx : Act := fixedAct 1 (fun c => c.result32 (fun l => bfx (c.f.fn = 1) (c.rd32 c.f.a l) (c.rd32 c.f.b l)))

def actBfi : Act := fixedAct 1 (fun c => c.result32 (fun l => bfi (c.rd32 c.f.a l) (c.rd32 c.f.b l) (c.rd32 c.f.c l)))

def actPopc : Act := fixedAct 1 (fun c => c.result32 (fun l => popWord (c.rd32 c.f.a l)))

def actClz : Act := fixedAct 1 (fun c => c.result32 (fun l => zeroBits c.f.fn.toNat (c.rd32 c.f.a l)))

def actBrev : Act := fixedAct 1 (fun c => c.result32 (fun l =>
  let a := c.rd32 c.f.a l
  ofBits 32 (fun j => a.testBit (31 - j))))

def actPrmb : Act := fixedAct 1 (fun c =>
  c.result32 (fun l => permBytes (c.rd32 c.f.a l) (c.rd32 c.f.b l) (c.rd32 c.f.c l)))

def actIadd64 : Act := fixedAct 1 (fun c =>
  c.resultBits 64 (fun l => addSub 64 c.f.fn.toNat 1 (c.rd64 c.f.a l).toNat (c.rd64 c.f.b l).toNat))

def actLea : Act := fixedAct 1 (fun c =>
  c.result32 (fun l => (c.rd32 c.f.a l + c.rd32 c.f.b l * 2 ^ bitsAt c.f.mod 0 5) % 2 ^ 32))

def actLea64 : Act := fixedAct 1 (fun c => c.resultBits 64 (fun l =>
  let b := c.rd32 c.f.b l
  let e : Int := if c.f.mod.getLsbD 5 then si32 b else b
  wrapN 64 ((c.rd64 c.f.a l).toNat + e * (2 ^ bitsAt c.f.mod 0 5 : Nat))))

def actMov : Act := fixedAct 1 (fun c => c.resultN (movBits c.f.fn / 32) (fun l o => c.rd c.f.a o l))

/-- MOVI of an immediate (R100). -/
def actMovi (imm : Word) : Act := fixedAct 1 (fun c =>
  if c.f.fn = 1 then c.resultBits 64 (fun _ => wrapN 64 (si32 imm.toNat)) else c.result32 (fun _ => imm.toNat))

def actSel : Act := fixedAct 1 (fun c =>
  let p := c.w.pred (bitsAt c.f.mod 0 3)
  let pn := c.f.mod.getLsbD 3
  c.resultN (selBits c.f.mod / 32) (fun l o => c.rd (if p.getLsbD l != pn then c.f.a else c.f.b) o l))

def actIdp4 : Act := fixedAct 1 (fun c =>
  c.result32 (fun l => dot4 (c.f.fn = 0) (c.rd32 c.f.a l) (c.rd32 c.f.b l) (c.rd32 c.f.c l)))

def actMix : Act := fixedAct 1 (fun c => c.result32 (fun l =>
  let a := c.rd32 c.f.a l
  let b := c.rd32 c.f.b l
  if c.f.fn = 1 then mixComb a b
  else mixH32 ([a, b, c.rd32 c.f.c l].take (bitsAt c.f.mod 0 2))))

/-- NOP (R99): Occupies its issue cycle and writes nothing. -/
def execNop (w : ZForm) (s : State) : Host.Outcome State Fault Refusal := issue (.nop w) actNop s

/-- IADD (R100): Adds two 32-bit integers, with a wrapping, saturating or carry form selected by FN. -/
def execIadd (w : CForm) (s : State) : Host.Outcome State Fault Refusal := issue (.iadd w) (actAddSub 1) s

/-- ISUB (R100): Subtracts two 32-bit integers, with a wrapping, saturating or borrow form selected by FN. -/
def execIsub (w : CForm) (s : State) : Host.Outcome State Fault Refusal := issue (.isub w) (actAddSub (-1)) s

/-- MOVI (R100): Writes a 32-bit immediate, or its sign extension to 64 bits. -/
def execMovi (w : IForm) (s : State) : Host.Outcome State Fault Refusal := issue (.movi w) (actMovi w.imm) s

/-- IMUL (R100): Multiplies two 32-bit integers and writes the low or high word. -/
def execImul (w : CForm) (s : State) : Host.Outcome State Fault Refusal := issue (.imul w) actImul s

/-- IMAD (R100): Multiplies two integers, adds a third and wraps modulo 2^32. -/
def execImad (w : CForm) (s : State) : Host.Outcome State Fault Refusal := issue (.imad w) actImad s

/-- IMADW (R100): Forms a widening multiply-add into a 64-bit destination. -/
def execImadw (w : CForm) (s : State) : Host.Outcome State Fault Refusal := issue (.imadw w) actImadw s

/-- IDIV (R102): Divides or takes a remainder, variable-latency, with defined results for a zero divisor. -/
def execIdiv (w : CForm) (s : State) : Host.Outcome State Fault Refusal := issue (.idiv w) actIdiv s

/-- IMNMX (R100): Writes the signed or unsigned minimum or maximum. -/
def execImnmx (w : CForm) (s : State) : Host.Outcome State Fault Refusal := issue (.imnmx w) actImnmx s

/-- IABS (R100): Writes the absolute value or the negation, optionally saturating. -/
def execIabs (w : CForm) (s : State) : Host.Outcome State Fault Refusal := issue (.iabs w) actIabs s

/-- LOP (R100): Applies the bitwise logic operation that FN selects. -/
def execLop (w : CForm) (s : State) : Host.Outcome State Fault Refusal := issue (.lop w) actLop s

/-- LOP3 (R100): Applies a three-input bitwise truth table held in MOD. -/
def execLop3 (w : CForm) (s : State) : Host.Outcome State Fault Refusal := issue (.lop3 w) actLop3 s

/-- SHL (R100): Shifts left, giving zero for counts of 32 or more. -/
def execShl (w : CForm) (s : State) : Host.Outcome State Fault Refusal := issue (.shl w) actShl s

/-- SHR (R100): Shifts right, logically or arithmetically. -/
def execShr (w : CForm) (s : State) : Host.Outcome State Fault Refusal := issue (.shr w) actShr s

/-- ROT (R100): Rotates left or right by the count modulo 32. -/
def execRot (w : CForm) (s : State) : Host.Outcome State Fault Refusal := issue (.rot w) actRot s

/-- SHF (R100): Funnel-shifts a 64-bit pair left or right. -/
def execShf (w : CForm) (s : State) : Host.Outcome State Fault Refusal := issue (.shf w) actShf s

/-- BFX (R101): Extracts a bit field with zero or sign extension. -/
def execBfx (w : CForm) (s : State) : Host.Outcome State Fault Refusal := issue (.bfx w) actBfx s

/-- BFI (R101): Inserts a bit field into a copy of c. -/
def execBfi (w : CForm) (s : State) : Host.Outcome State Fault Refusal := issue (.bfi w) actBfi s

/-- POPC (R101): Counts the one bits. -/
def execPopc (w : CForm) (s : State) : Host.Outcome State Fault Refusal := issue (.popc w) actPopc s

/-- CLZ (R101): Counts leading or trailing zero bits. -/
def execClz (w : CForm) (s : State) : Host.Outcome State Fault Refusal := issue (.clz w) actClz s

/-- BREV (R101): Reverses the bit order. -/
def execBrev (w : CForm) (s : State) : Host.Outcome State Fault Refusal := issue (.brev w) actBrev s

/-- PRMB (R101): Permutes bytes of a pair under a selector. -/
def execPrmb (w : CForm) (s : State) : Host.Outcome State Fault Refusal := issue (.prmb w) actPrmb s

/-- IADD64 (R100): Adds 64-bit integers, wrapping or saturating. -/
def execIadd64 (w : CForm) (s : State) : Host.Outcome State Fault Refusal := issue (.iadd64 w) actIadd64 s

/-- LEA (R100): Forms a + b shifted by SH in 32 bits. -/
def execLea (w : CForm) (s : State) : Host.Outcome State Fault Refusal := issue (.lea w) actLea s

/-- LEA64 (R100): Forms a 64-bit address from a base and an extended shifted index. -/
def execLea64 (w : CForm) (s : State) : Host.Outcome State Fault Refusal := issue (.lea64 w) actLea64 s

/-- MOV (R100): Copies a 32-, 64- or 128-bit operand. -/
def execMov (w : CForm) (s : State) : Host.Outcome State Fault Refusal := issue (.mov w) actMov s

/-- SEL (R100): Selects a or b per lane by a predicate. -/
def execSel (w : CForm) (s : State) : Host.Outcome State Fault Refusal := issue (.sel w) actSel s

/-- IDP4 (R100): Forms a four-byte dot product plus an addend. -/
def execIdp4 (w : CForm) (s : State) : Host.Outcome State Fault Refusal := issue (.idp4 w) actIdp4 s

/-- MIX (R103): Computes the MIX.comb or MIX.h32 hash. -/
def execMix (w : CForm) (s : State) : Host.Outcome State Fault Refusal := issue (.mix w) actMix s

end Sys2Proof.Machine
end

