-- ==== Sys2Proof/Machine/Convert.lean ====
section
/-!
DEFINITION. Conversions and random instructions (05_isa_arithmetic.md R109 to R114).
-/
namespace Sys2Proof.Machine
open Sys2Proof
open Sys2Proof.Num

/-- The integer type codes (R109): width and signedness. -/
def intBits (t : Nat) : Nat := 8 * 2 ^ (t % 4)
def intSigned (t : Nat) : Bool := 4 ≤ t
def intMin (t : Nat) : Int := if intSigned t then -(2 ^ (intBits t - 1) : Nat) else 0
def intMax (t : Nat) : Int := if intSigned t then (2 ^ (intBits t - 1) : Nat) - 1 else (2 ^ intBits t : Nat) - 1

/-- The floating-point type codes (R109). -/
def floatFmt (t : Nat) : Fmt := if t = 8 then f16 else if t = 9 then bf16 else if t = 10 then f32 else f64

/-- An integer source as its type reads it (R93, R109). -/
def Cx.rdInt (c : Cx) (t : Nat) (o : Operand) (l : Nat) : Int :=
  let x := if intBits t = 64 then (c.rd64 o l).toNat else c.rd32 o l
  if intSigned t then sx (intBits t) x else ((x % 2 ^ intBits t : Nat) : Int)

/-- A floating-point source of a type code (R109). -/
def Cx.rdFloat (c : Cx) (t : Nat) (o : Operand) (l : Nat) : Val :=
  let f := floatFmt t
  decodeF f (c.rdF f o l)

/-- An integer result: 8 and 16 bits are extended to 32 by the type's signedness (R109). -/
def intOut (t : Nat) (n : Int) : Nat :=
  let w := intBits t
  let x := wrapN w n
  if w < 32 && intSigned t then wrapN 32 (sx w x) else x

/-- CVTI (R110). -/
def cvtInt (dt : Nat) (sat : Bool) (n : Int) : Nat := intOut dt (if sat then clampInt n (intMin dt) (intMax dt) else n)

/-- CVTFI (R110). -/
def cvtFloatInt (dt : Nat) (rm : Rm) (rand : Nat) (v : Val) : Nat × Exc :=
  match v with
  | .nan .. => (0, nv)
  | .inf neg => (intOut dt (if neg then intMin dt else intMax dt), nv)
  | v =>
    let n := toInteger rm rand 32 v
    if n < intMin dt then (intOut dt (intMin dt), nv)
    else if intMax dt < n then (intOut dt (intMax dt), nv)
    else (intOut dt n, if isInteger v then 0#5 else nx)

/-- A narrow format register of the launch (04_numbers.md R76). -/
def Cx.nf (c : Cx) (k : Nat) : Word := c.la.nf.getD k 0

/-- CVTN.dec: the decoded code under its scale, rounded once (R110, 04_numbers.md R78, R81). -/
def cvtNarrowDec (f : Fmt) (k : Rnd) (nf : NFmt) (code : Nat) (scale : Option Nat) : Nat × Exc :=
  let v := decodeNF nf code
  let (v, x) := match scale with
    | some s => scaleBy v (scaleVal (s % 2 ^ 16))
    | none => (v, 0#5)
  let (r, y) := resultF f k [v] v
  (r, x ||| y)

/-- SRND: RoundSR to precision p with 32 random bits, ignoring FTZ (R112). -/
def srnd (p : Nat) (cnan : Bool) (rand : Nat) (v : Val) : Nat × Exc :=
  match v with
  | .nan .. => (nanF f32 cnan [v], snanExc [v])
  | .inf neg => (f32.inf neg, 0#5)
  | .fin neg m e =>
    if m = 0 then (f32.zero neg, 0#5)
    else
      let x := topExp m e
      let q := max x (-126) - p + 1
      let (t, ch) := roundAt .sr neg m e q rand 32
      if t != 0 && decide (127 < topExp t q) then (f32.inf neg, ovf ||| nx)
      else
        let qu := x - p + 1
        let (u, _) := roundAt .sr neg m e qu rand 32
        let tiny := decide (x < -126) && (u = 0 || decide (topExp u qu < -126))
        (encodeF f32 neg t q, (if ch then nx else 0#5) ||| (if ch && tiny then unf else 0#5))

/-- A conversion in each admitted lane, with the width of its destination (R109). -/
def cvtAct (bits : Cx → Nat) (g : Cx → Nat → Nat × Exc) : Act :=
  fixedExcAct 4 true (fun c => c.resultOf (bits c) (c.lanes.map (fun l => (l, g c l))))

def Cx.dt (c : Cx) : Nat := bitsAt c.f.mod 4 4
def Cx.st (c : Cx) : Nat := bitsAt c.f.mod 8 4

def actCvti : Act := fixedAct 4 (fun c =>
  c.resultBits (typeBits c.dt) (fun l => cvtInt c.dt (c.f.mod.getLsbD 12) (c.rdInt c.st c.f.a l)))

def actCvtf : Act := cvtAct (fun c => typeBits c.dt) (fun c l =>
  let k := c.rounding (c.rd32 c.f.c l)
  let v := flush (floatFmt c.st) (k.ftz && !k.gr) (c.rdFloat c.st c.f.a l)
  resultF (floatFmt c.dt) k [v] v)

def actCvtif : Act := cvtAct (fun c => typeBits c.dt) (fun c l =>
  let n := c.rdInt c.st c.f.a l
  resultF (floatFmt c.dt) (c.rounding (c.rd32 c.f.c l)) [] (ofInt n 0))

def actCvtfi : Act := cvtAct (fun c => typeBits c.dt) (fun c l =>
  let k := c.rounding (c.rd32 c.f.c l)
  cvtFloatInt c.dt k.rm k.rand (flush (floatFmt c.st) k.ftz (c.rdFloat c.st c.f.a l)))

def actCvtnEnc : Act := cvtAct (fun _ => 32) (fun c l =>
  let k := c.rounding (c.rd32 c.f.c l)
  encodeNF (nfOf (c.nf (bitsAt c.f.mod 13 3))) (modeNsat c.mode) k.rm k.rand
    (flush (floatFmt c.st) k.ftz (c.rdFloat c.st c.f.a l)))

def actCvtnDec : Act := cvtAct (fun c => typeBits c.dt) (fun c l =>
  cvtNarrowDec (floatFmt c.dt) (c.rounding (c.rd32 c.f.c l)) (nfOf (c.nf (bitsAt c.f.mod 13 3))) (c.rd32 c.f.a l)
    (if c.f.mod.getLsbD 16 then some (c.rd32 c.f.b l) else none))

/-- The grid exponent K (R111). -/
def Cx.gridK (c : Cx) : Int := sx 8 (bitsAt c.f.mod 8 8)

def actCvtwFx : Act := cvtAct (fun _ => 64) (fun c l =>
  let (q, x) := ontoGrid (c.rdFloat c.dt c.f.a l) c.gridK
  (q.toNat, x))

def actCvtwFp : Act := cvtAct (fun c => typeBits c.dt) (fun c l =>
  drainF (floatFmt c.dt) (c.rounding (c.rd32 c.f.c l)) (c.rd64 c.f.a l) c.gridK)

def actSrnd : Act := cvtAct (fun _ => 32) (fun c l =>
  srnd (bitsAt c.f.mod 4 5) (modeCnan c.mode) (c.rd32 c.f.b l) (decodeF f32 (c.rdF f32 c.f.a l)))

def actRand : Act := fixedAct 4 (fun c =>
  c.result32 (fun l => rand32 (c.rd32 c.f.a l) (c.rd32 c.f.b l) (c.rd32 c.f.c l)))

/-- PACK: each half rounded on its own (R114). -/
def actPack : Act := cvtAct (fun _ => 32) (fun c l =>
  let f := if c.f.fn = 0 then f16 else bf16
  let e (o : Operand) (i : Nat) : Nat × Exc :=
    let k := c.rounding (c.rd32 c.f.c l / 2 ^ (16 * i))
    let v := flush f32 (k.ftz && !k.gr) (decodeF f32 (c.rdF f32 o l))
    resultF f k [v] v
  let (x, a) := e c.f.a 0
  let (y, b) := e c.f.b 1
  (x + 2 ^ 16 * y, a ||| b))

/-- UNPK: the exact value of one half (R114). -/
def actUnpk : Act := cvtAct (fun _ => 32) (fun c l =>
  let f := if c.f.fn = 0 then f16 else bf16
  let gr := c.f.mod.getLsbD 3
  let k := roundingOf c.mode 1 gr 0
  let v := flush f (k.ftz && !gr) (decodeF f (elemOf 16 (if c.f.mod.getLsbD 4 then 1 else 0) (c.rdF f c.f.a l)))
  resultF f32 k [v] v)

/-- CVTI (R110): Converts between integer types, optionally saturating. -/
def execCvti (w : CForm) (s : State) : Host.Outcome State Fault Refusal := issue (.cvti w) actCvti s

/-- CVTF (R110): Converts between floating-point types. -/
def execCvtf (w : CForm) (s : State) : Host.Outcome State Fault Refusal := issue (.cvtf w) actCvtf s

/-- CVTIF (R110): Converts an integer to floating point. -/
def execCvtif (w : CForm) (s : State) : Host.Outcome State Fault Refusal := issue (.cvtif w) actCvtif s

/-- CVTFI (R110): Converts floating point to an integer, with bounds and invalid raised on overflow. -/
def execCvtfi (w : CForm) (s : State) : Host.Outcome State Fault Refusal := issue (.cvtfi w) actCvtfi s

/-- CVTN_ENC (R110): Encodes a float into a narrow format. -/
def execCvtnEnc (w : CForm) (s : State) : Host.Outcome State Fault Refusal := issue (.cvtnEnc w) actCvtnEnc s

/-- CVTN_DEC (R110): Decodes a narrow code, optionally scaled, into a float. -/
def execCvtnDec (w : CForm) (s : State) : Host.Outcome State Fault Refusal := issue (.cvtnDec w) actCvtnDec s

/-- CVTW_FX (R111): Puts a float onto an FX64 grid. -/
def execCvtwFx (w : CForm) (s : State) : Host.Outcome State Fault Refusal := issue (.cvtwFx w) actCvtwFx s

/-- CVTW_FP (R111): Drains an FX64 value into a float. -/
def execCvtwFp (w : CForm) (s : State) : Host.Outcome State Fault Refusal := issue (.cvtwFp w) actCvtwFp s

/-- SRND (R112): Stochastically rounds a binary32 value to reduced precision. -/
def execSrnd (w : CForm) (s : State) : Host.Outcome State Fault Refusal := issue (.srnd w) actSrnd s

/-- RAND (R113): Computes the stateless counter-based hash. -/
def execRand (w : CForm) (s : State) : Host.Outcome State Fault Refusal := issue (.rand w) actRand s

/-- PACK (R114): Rounds two binary32 values into one packed 16-bit pair. -/
def execPack (w : CForm) (s : State) : Host.Outcome State Fault Refusal := issue (.pack w) actPack s

/-- UNPK (R114): Widens one half of a packed pair to binary32 exactly. -/
def execUnpk (w : CForm) (s : State) : Host.Outcome State Fault Refusal := issue (.unpk w) actUnpk s

end Sys2Proof.Machine
end

