-- ==== Sys2Proof/Machine/Access.lean ====
section
/-!
DEFINITION. Memory accesses: the L1 (15_cluster.md R278 to R281), the spaces and their checks
(07_core_memory.md R147 to R152, R170), the store queue's forwarding (R156), and SHASH's folds
(02_warp_state.md R29).
-/
namespace Sys2Proof.Machine
open Sys2Proof

/-- Fault causes of memory accesses (18_traps.md R350). -/
def addressRange : Nat := 0x21
def scratchRange : Nat := 0x22
def constRange : Nat := 0x23
def apertureRange : Nat := 0x24
def misalignedAtomic : Nat := 0x25

/-- A quota word of a partition on a core; PMAX is 0xF after reset (12_core_scheduling.md R257). -/
def Mach.quotaWord (m : Mach) (part core k : Nat) : Word :=
  match m.quota.find (part * 512 + core) with
  | some ws => ws.getD k 0
  | none => if k = 0 then 0xF000#32 else 0

/-! ### The L1 -/

/-- Whether a partition's L1 is fused in a core's cluster (R279, R283). -/
def Mach.fused (m : Mach) (part core : Nat) : Bool :=
  match m.clusters.find (core / 4) with
  | some c => c.fusep.getLsbD part
  | none => false

/-- The core whose rows hold a line (R280). -/
def Mach.l1Core (m : Mach) (part core line : Nat) : Nat :=
  if m.fused part core then core / 4 * 4 + line % 4 else core

/-- The bytes of a line as its home slice holds them (R290). -/
def Mach.sliceLine (m : Mach) (line : Nat) : List Byte := m.mem.getList (line * 128) 128

/-- The L1 line that serves an access of a context (R278). -/
def Mach.l1Find (m : Mach) (core ctx line : Nat) : Option L1Line :=
  m.l1.find? (fun e => e.core = core && e.line = line && e.ctx = ctx)

/-- Keeps the newest `n` lines of one core's rows of a partition. -/
def l1Trim (same : L1Line → Bool) : Nat → List L1Line → List L1Line
  | _, [] => []
  | n, e :: es => if same e then (if n = 0 then l1Trim same 0 es else e :: l1Trim same (n - 1) es) else e :: l1Trim same n es

/-- Fills a line from its home slice, the oldest line making room (R257: LCNT rows of 256 bytes). A line with uncorrectable data is not
filled (16_die.md R301). -/
def Mach.l1Fill (m : Mach) (part core ctx line : Nat) : Mach :=
  let at_ := m.l1Core part core line
  match m.l1Find at_ ctx line with
  | some _ => m
  | none =>
    let m := m.claimLine ctx line
    if m.lineBad line then m
    else
    let cap := 2 * bitsAt (m.quotaWord part at_ 2) 0 15
    let e : L1Line := { core := at_, line := line, ctx := ctx, data := m.sliceLine line }
    { m with l1 := l1Trim (fun e => e.core = at_ && m.ctxPart e.ctx = part) cap (e :: m.l1) }

/-- One byte of global memory as a load of a core reads it: the L1's line, or the home slice's value. -/
def Mach.loadByte (m : Mach) (part core ctx key : Nat) : Byte :=
  match m.l1Find (m.l1Core part core (key / 128)) ctx (key / 128) with
  | some e => e.data.getD (key % 128) 0
  | none => m.mem.get key

/-- The places that a core's L1 does not hold for a context, which the core reads at their home slices. -/
def Mach.missKeys (m : Mach) (part core ctx : Nat) (keys : List Nat) : List Nat :=
  keys.filter (fun k => (m.l1Find (m.l1Core part core (k / 128)) ctx (k / 128)).isNone)

/-- Invalidates every line of a context that an acquire of a scope reaches (R281). -/
def Mach.acquire (m : Mach) (part core ctx scope : Nat) : Mach :=
  if scope < 2 then m
  else if m.fused part core then
    if scope < 3 then m
    else { m with l1 := m.l1.filter (fun e => !(e.ctx = ctx && e.core / 4 = core / 4)) }
  else { m with l1 := m.l1.filter (fun e => !(e.ctx = ctx && e.core = core)) }

/-- Drops the lines of keys from the L1 that serves a core, as an atomic does (R278). -/
def Mach.l1Drop (m : Mach) (part core ctx : Nat) (keys : List Nat) : Mach :=
  { m with l1 := m.l1.filter (fun e =>
      !(e.ctx = ctx && keys.any (fun k => k / 128 = e.line && m.l1Core part core e.line = e.core))) }

/-- A store's write-through: the home slice, and any hitting line of the issuing core's L1 (R278). -/
def Mach.storeThrough (m : Mach) (part core ctx : Nat) (keys : List Nat) (data : List Byte) : Mach :=
  let m := m.write ctx keys data
  { m with l1 := m.l1.map (fun e =>
      if e.ctx = ctx && m.l1Core part core e.line = e.core then
        { e with data := (keys.zip data).foldl (fun d x =>
            if x.1 / 128 = e.line then d.set (x.1 % 128) x.2 else d) e.data }
      else e) }

/-! ### The block's own spaces -/

/-- An aperture address: byte, lane, register and warp (R148). -/
def apByte (a : Nat) : Nat := a % 4
def apLane (a : Nat) : Nat := a / 4 % 64
def apReg (a : Nat) : Nat := a / 2 ^ 8 % 256
def apWarp (a : Nat) : Nat := a / 2 ^ 16 % 64

/-- Whether an aperture byte lies within the block's rows (R148). -/
def apertureOk (la : Launch) (blk : Block) (a : Nat) : Bool :=
  a / 2 ^ 22 = 0 && apWarp a < blk.warpCount && apReg a < la.win && apLane a < blk.width

/-- Byte `i` of a word. -/
def wordByte (x : Word) (i : Nat) : Byte := x.extractLsb' (8 * i) 8

/-- A word with byte `i` replaced. -/
def setWordByte (x : Word) (i : Nat) (b : Byte) : Word :=
  (x &&& ~~~(0xFF#32 <<< (8 * i))) ||| (b.zeroExtend 32 <<< (8 * i))

/-- One byte of a block's scratchpad, constant area or registers at cycle `t`. -/
def Block.readByte (blk : Block) (la : Launch) (t : Nat) (sp : Space) (a : Nat) : Byte :=
  match sp with
  | .s => blk.scratch.get a
  | .c => la.param.getD a 0
  | .a =>
    match blk.warp (apWarp a) with
    | some w => wordByte ((w.settle t).reg (apReg a) (apLane a)) (apByte a)
    | none => 0
  | .g => 0

/-- An aperture write reaches the register row alone and makes the register live (R38, R41). The other bytes of the lane of a
register that was dead become zero (DESIGN CHOICE, log entry 54). -/
def Warp.apertureWrite (w : Warp) (a : Nat) (b : Byte) : Warp :=
  let k := regKey (apReg a) (apLane a)
  let old := if w.deadV.getLsbD (apReg a) then 0 else w.v.get k
  { w with v := w.v.set k (setWordByte old (apByte a) b), deadV := w.deadV &&& ~~~(1#256 <<< apReg a) }

/-- Writes one byte of the scratchpad or of a register row at cycle `t`: after the results of earlier cycles; one that the same cycle
writes to the lane is kept (R38). -/
def Block.writeByte (blk : Block) (t : Nat) (sp : Space) (a : Nat) (b : Byte) : Block :=
  match sp with
  | .s => { blk with scratch := blk.scratch.set a b }
  | .a =>
    match blk.warp (apWarp a) with
    | some w =>
      let w := w.settle t
      blk.setWarp (apWarp a) (if w.kept t (apReg a) (apLane a) then w else w.apertureWrite a b)
    | none => blk
  | _ => blk

/-! ### Addresses and checks -/

/-- The address of a base, an index and an offset, in 64 bits for .g and 32 elsewhere (R149). -/
def formAddr (sp : Space) (base : Nat) (index : Int) (off : Int) : Nat :=
  let w := if sp = .g then 64 else 32
  (((base : Int) + index + off) % (2 ^ w : Nat)).toNat

/-- The first byte of an access at which its value check fails, with the cause (R149, R170). -/
def rangeFault (la : Launch) (blk : Block) (sp : Space) (a size : Nat) : Option (Nat × Nat) :=
  let bad (p : Nat → Bool) (cause : Nat) : Option (Nat × Nat) :=
    match (List.range size).find? (fun i => p (a + i)) with
    | some i => some (cause, a + i)
    | none => none
  match sp with
  | .g => bad (fun x => 2 ^ 57 ≤ x) addressRange
  | .s => bad (fun x => la.scr ≤ x) scratchRange
  | .c => bad (fun x => la.param.length ≤ x) constRange
  | .a => bad (fun x => !apertureOk la blk x) apertureRange

/-- The first round of checks of R170 on one lane: range, then an atomic's alignment. -/
def valueFault (la : Launch) (blk : Block) (sp : Space) (atomic : Bool) (size a : Nat) : Option (Nat × Nat) :=
  match rangeFault la blk sp a size with
  | some f => some f
  | none => if atomic && a % size != 0 then some (misalignedAtomic, a) else none

/-- The lanes that fail a round, the deciding one first (R170). -/
def roundFault (ia slot : Nat) (fs : List (Nat × Nat × Nat)) : Option FaultInfo :=
  match fs with
  | [] => none
  | (_, cause, addr) :: _ =>
    some { cause := cause, ia := ia, fmask := maskOf 64 (fun l => fs.any (fun f => f.1 = l)),
           faddr := BitVec.ofNat 64 addr, xcode := 0, lane := 0xFF, slot := slot }

/-- The second round: translates every lane's .g address through the core's TLBs. -/
def Mach.translateLanes (m : Mach) (part core ctx size : Nat) (acc : Access) :
    List (Nat × Nat) → Mach × List (Nat × List Nat) × List (Nat × Nat × Nat)
  | [] => (m, [], [])
  | (l, a) :: rest =>
    let m1 := (m.translate core ctx a acc).1
    let m2 := if size = 0 then m1 else (m1.translate core ctx (a + size - 1) acc).1
    let (m3, ks, fs) := m2.translateLanes part core ctx size acc rest
    match m2.coreKeys core ctx acc a size with
    | .ok k => (m3, (l, k) :: ks, fs)
    | .error (c, va) => (m3, ks, (l, c, va) :: fs)

/-- Both rounds of checks over the lanes' addresses: the places of every lane's bytes, or the fault (R170). -/
def Mach.checkLanes (m : Mach) (blk : Block) (la : Launch) (sp : Space) (atomic : Bool) (acc : Access)
    (size ia slot : Nat) (as : List (Nat × Nat)) : Mach × Except FaultInfo (List (Nat × List Nat)) :=
  let bad := as.filterMap (fun e => (valueFault la blk sp atomic size e.2).map (fun f => (e.1, f)))
  match roundFault ia slot bad with
  | some f => (m, .error f)
  | none =>
    match sp with
    | .g =>
      let (m, ks, fs) := m.translateLanes blk.part blk.core blk.ctx size acc as
      match roundFault ia slot fs with
      | some f => (m, .error f)
      | none => (m, .ok ks)
    | _ => (m, .ok (as.map (fun e => (e.1, (List.range size).map (fun i => e.2 + i)))))

/-! ### The store queue -/

/-- The bytes that a queue entry writes or may write, by place. -/
def QEntry.places (q : QEntry) : List Nat :=
  match q.kind with
  | .store acc => acc.foldr (fun a l => a.keys ++ l) []
  | .atomic _ _ _ _ _ acc _ => acc.foldr (fun a l => a.keys ++ l) []

/-- The byte that a queued store leaves at a place: the highest lane's (R152). -/
def QEntry.byteAt (q : QEntry) (sp : Space) (k : Nat) : Option Byte :=
  match q.kind with
  | .store acc =>
    if q.space = sp then
      acc.foldl (fun o a => match (a.keys.zip a.data).find? (fun e => e.1 = k) with
        | some e => some e.2
        | none => o) none
    else none
  | .atomic .. => none

/-- The youngest queued store's byte at a place (R156). -/
def forwarded (queue : List QEntry) (sp : Space) (k : Nat) : Option Byte :=
  queue.foldl (fun o q => match q.byteAt sp k with
    | some b => some b
    | none => o) none

/-- How a load of the given places stands to the queue: wholly forwarded, free of it, or in part (R156). -/
inductive Overlap where
  | all | none | part
  deriving DecidableEq, Repr

def overlap (queue : List QEntry) (sp : Space) (keys : List Nat) : Overlap :=
  let touched := queue.any (fun q => q.space = sp && q.places.any (fun k => keys.contains k))
  if !touched then .none
  else if keys.all (fun k => (forwarded queue sp k).isSome) &&
      !queue.any (fun q => match q.kind with
        | .atomic .. => q.space = sp && q.places.any (fun k => keys.contains k)
        | _ => false) then .all
  else .part

/-- The places of a load that it reads at the home slices: neither its warp's queue nor the L1 has them (R156, 15_cluster.md
R278). -/
def Mach.sliceKeys (m : Mach) (blk : Block) (queue : List QEntry) (sp : Space) (keys : List Nat) : List Nat :=
  if sp != .g || overlap queue sp keys = .all then [] else m.missKeys blk.part blk.core blk.ctx keys

/-- An operation whose memory accesses come before those of everything later of its warp: a load or a
barrier operation that has not performed, an acquiring SLEEP (15_cluster.md R281), a CPYB that has not read its ring's
descriptor, a field load (08_field_unit.md R192), a matrix load that has not executed (10_matrix.md R223) or a GADD
(06_isa_control.md R143). -/
def Op.readsFirst (o : Op) : Bool :=
  match o.payload with
  | .retry i _ _ _ => (match i with
    | .ld _ => true
    | .sld _ => true
    | .barArrive _ => true
    | .barWait _ => true
    | .barSync _ => true
    | .barx _ => true
    | .cbarArrive _ => true
    | .cbarWait _ => true
    | .cbarSync _ => true
    | .mqchk _ => true
    | .cpyb _ => true
    | _ => false)
  | .field i _ _ => (match i with
    | .fwt _ => false
    | _ => true)
  | .gossip i _ _ _ => (match i with
    | .gadd _ => true
    | _ => false)
  | .terms .. => true
  | .matrix i _ _ _ _ arrived => (match i with
    | .mma _ => !arrived
    | .mldb _ => true
    | .mldc _ => true
    | _ => false)
  | .sleep _ _ _ _ _ acq _ _ _ => acq
  | _ => false

/-- An operation that holds back the warp's later loads: one that reads first, a fence that acquires and
whose earlier accesses have not performed (R161, R163), or a copy that has not read its source (R143). -/
def Op.holdsLoads (o : Op) : Bool :=
  o.fault.isNone && (o.readsFirst ||
  match o.payload with
  | .fence kind _ => kind = 0 || kind = 2
  | .copy _ _ _ _ _ data _ _ => data.isNone
  | .bulk _ here => here && !o.batchDone
  | _ => false)

/-- An operation that holds back the warp's later stores and splats: one that reads first, or a fence (R172). -/
def Op.holdsStores (o : Op) : Bool :=
  o.fault.isNone && (o.readsFirst ||
  match o.payload with
  | .fence _ _ => true
  | _ => false)

/-- Whether some operation issued before `seq` holds back. -/
def Warp.held (w : Warp) (p : Op → Bool) (seq : Nat) : Bool := w.ops.any (fun e => e.2.seq < seq && p e.2)

/-- An atomic (07_core_memory.md R166). -/
def atomicInstr (i : Instr) : Bool :=
  match i with
  | .axch _ => true
  | .acas _ => true
  | .aadd _ => true
  | .amnmx _ => true
  | .alop _ => true
  | .agadd _ => true
  | .ainc _ => true
  | _ => false

/-- A store or an atomic. -/
def queuedInstr (i : Instr) : Bool :=
  match i with
  | .st _ => true
  | .sst _ => true
  | i => atomicInstr i

/-- An instruction of a kind whose translation fault has been resolved and which has not been executed again: it has not
performed, and no queue entry stands for it (R170, 18_traps.md R343). -/
def Op.again (p : Instr → Bool) (o : Op) : Bool :=
  o.fault.isNone && !o.flagDone && match o.payload with
  | .retry i _ _ _ => p i
  | _ => false

/-- A store or atomic that is to be executed again. -/
def Op.storesAgain (o : Op) : Bool := o.again queuedInstr

/-- Whether every store and atomic issued before `seq` has performed: none stands in the queue, and none waits to be
executed again (R156, 08_field_unit.md R192). -/
def Warp.drained (w : Warp) (seq : Nat) : Bool := w.queue.all (fun q => seq ≤ q.seq) && !w.held Op.storesAgain seq

/-! ### SHASH -/

/-- MIX.comb (05_isa_arithmetic.md R103) on words. -/
def combWord (h x : Word) : Word := ((h ^^^ x) * 0x2C1B3C6D#32).rotateLeft 13

/-- Makes every fold whose turn has come (02_warp_state.md R29). -/
def foldReady : Word → List Fold → Word × List Fold
  | h, .ready xs :: rest => foldReady (xs.foldl combWord h) rest
  | h, .absent _ :: rest => foldReady h rest
  | _, .set x :: rest => foldReady x rest
  | h, fs => (h, fs)

/-- Settles SHASH. -/
def Warp.foldShash (w : Warp) : Warp :=
  let r := foldReady w.shash w.folds
  { w with shash := r.1, folds := r.2 }

/-- An operation's fold becomes known. -/
def Warp.foldOp (w : Warp) (op : Nat) (xs : List Word) : Warp :=
  ({ w with folds := w.folds.map (fun f => if f = Fold.waiting op then .ready xs else f) }).foldShash

/-- A faulted operation folds nothing, and the folds after it proceed as if it were absent (R29). -/
def Warp.unfoldOp (w : Warp) (op : Nat) : Warp :=
  ({ w with folds := w.folds.map (fun f => if f = Fold.waiting op then .absent op else f) }).foldShash

/-- An instruction that folds into SHASH, or that waits for the folds before it (R29, 17_package.md R332). -/
def folding (i : Instr) : Bool :=
  match i with
  | .st _ => true
  | .sst _ => true
  | .mqchk _ => true
  | .axch w => w.fn != 1
  | .acas w => w.fn != 1
  | .aadd w => w.fn != 1
  | .amnmx w => w.fn != 1
  | .alop w => w.fn != 1
  | .agadd w => w.fn != 1
  | .ainc w => w.fn != 1
  | _ => false

/-- A faulted operation that is outstanding again folds in its place, or before every fold that has not been made (18_traps.md
R343, DEDUCED, log entry 42). -/
def Warp.refoldOp (w : Warp) (op : Nat) (o : Op) : Warp :=
  if w.folds.contains (.absent op) then { w with folds := w.folds.map (fun f => if f = Fold.absent op then .waiting op else f) }
  else if o.word.any folding then { w with folds := .waiting op :: w.folds }
  else w

/-- The words that a store or a returned value folds: for each 32-bit word of each lane, ascending, the
low half of its address and then the word; a narrower store folds its value zero-extended (R29). -/
def foldWords (acc : List (Nat × List Byte)) : List Word :=
  acc.foldr (fun e l =>
    let n := (e.2.length + 3) / 4
    (List.range n).foldr (fun i l =>
      BitVec.ofNat 32 (e.1 + 4 * i) :: BitVec.ofNat 32 (leNat ((e.2.drop (4 * i)).take 4)) :: l) l) []

end Sys2Proof.Machine
end

