-- ==== Sys2Proof/Machine/Kill.lean ====
section
/-!
DEFINITION. Killing a context (17_package.md R324, R325), and consuming uncorrectable data (16_die.md R300,
R301).
-/
namespace Sys2Proof.Machine
open Sys2Proof

/-- One more in a counter that saturates (R218, R219). -/
def satInc {n : Nat} (x : BitVec n) : BitVec n := if x = BitVec.allOnes n then x else x + 1

/-- A die after reset: ILIM is what stage 1 sets, 64 at the least; every other field is zero, and TJ has no reset value
(23_physical.md R398, DESIGN CHOICE, log entry 3). -/
def Die.init (d : Nat) : Die :=
  { cecnt := 0, uecnt := 0, uech := 0, uesrc := 0, ilim := if (Config.ilim d).toNat < 64 then 64 else Config.ilim d, thr := false, hot := false, off := false,
    tj := 0, seven := false, sample := 0, hotSince := none, base := 0 }

def Mach.die (m : Mach) (d : Nat) : Die := (m.dies.find d).getD (.init d)
def Mach.setDie (m : Mach) (d : Nat) (x : Die) : Mach := { m with dies := m.dies.put d x }

/-- Counts an uncorrectable error in its die's status register: the channel and the source (16_die.md R303). -/
def Mach.countUe (m : Mach) (d : Nat) (ch : Option Nat) (src : Nat) : Mach :=
  let x := m.die d
  m.setDie d { x with
    uecnt := satInc x.uecnt
    uech := match ch with
      | some c => BitVec.ofNat 5 c
      | none => x.uech
    uesrc := BitVec.ofNat 2 src }

/-- The engines that report a context ID drained: copy, block-transfer, field, matrix, collective, gossip (R324). -/
def killEngines : List Nat := [0, 1, 2, 3, 4, 5]

/-- A warp of a killed or forced block halts where it stands (R324, 02_warp_state.md R40). -/
def Warp.halt (w : Warp) (t how : Nat) : Warp :=
  match w.stop with
  | some _ => w
  | none =>
    if w.ended then w
    else
      let slot := match w.clause with
        | some c => c.slot
        | none => if (w.slot w.turn).live then w.turn else 1 - w.turn
      let rhdr := match w.clause with
        | some c => c.head
        | none => (w.slot slot).pc.toNat
      let pos := match w.clause with
        | some c => c.pos
        | none => 0
      let info : FaultInfo := { cause := 0, ia := 0, fmask := 0, faddr := 0, xcode := 0, lane := 0xFF, slot := slot }
      { w with
        stop := some { how := how, cycle := t, cause := 0, kind := 0, info := info, rhdr := rhdr, pos := pos, skid := w.skid }
        urgent := false, readyFor := 0
        clause := if pos = 0 then none else w.clause }

/-- Halts every warp of a block. -/
def Block.haltAll (b : Block) (t how : Nat) : Block :=
  { b with halted := true, warps := b.warps.mapVal (fun w => w.halt t how) }

/-- The causes of lost lines (16_die.md R302). -/
def mcL2Tag : Nat := 0x67
def mcEvict : Nat := 0x68

/-- Whether a cause is that of a consumer of uncorrectable data, or of a lost line (16_die.md R300). -/
def isConsumer (cause : Nat) : Bool := 0x61 ≤ cause && cause ≤ mcWalk
def isLoss (cause : Nat) : Bool := cause = mcL2Tag || cause = mcEvict

/-- Sends a machine-check record to system software (16_die.md R300, R302). -/
def Mach.check (m : Mach) (ctxs causes : List Nat) (line : Option (Nat × Nat)) : Mach :=
  { m with checks := { ctxs := ctxs, causes := causes, line := line } :: m.checks }

/-- The newest machine-check record of a context names one more cause. -/
def nameCause (ctx cause : Nat) : List MachineCheck → List MachineCheck
  | [] => []
  | r :: rs => if r.ctxs.contains ctx then { r with causes := r.causes ++ [cause] } :: rs else r :: nameCause ctx cause rs

/-- Steps 1 and 2 of a kill: STATE 5, its ring stopped, its entry off the run list, its blocks halted without a save (R324). -/
def Mach.killNow (m : Mach) (t ctx cause status : Nat) : Mach :=
  let c := (m.ctx ctx).setState 5
  let c := { c with
    ring := { c.ring with dead := true }
    engines := killEngines, killCause := cause, killStatus := status, killAt := t, saving := none, preempt := [] }
  let m := m.setCtx ctx c
  { m with
    runlist := m.runlist.filter (fun e => bitsAt e 0 8 != ctx)
    blocks := m.blocks.mapVal (fun b => if b.ctx = ctx then b.haltAll t 2 else b) }

/-- Begins the kill of a context with a cause and the STATUS of its record. A second kill has no further effect (R324, R325). A
consumer's kill sends a machine-check record; where its halt falls in the cycle of a kill of its partition, that one's record
names its cause too (16_die.md R303, DESIGN CHOICE, log entry 78). -/
def Mach.kill (m : Mach) (t ctx cause status : Nat) : Mach :=
  let c := m.ctx ctx
  if !c.v then m
  else if c.state = 5 then
    if isConsumer cause && isLoss c.killCause && c.killAt = t then { m with checks := nameCause ctx cause m.checks } else m
  else
    let m := m.killNow t ctx cause status
    if isConsumer cause then m.check [ctx] [cause] none else m

/-- The contexts of a partition, with their records. -/
def Mach.ctxsOf (m : Mach) (part : Nat) : Tbl Ctx :=
  (m.ctxs.map (fun e => (e.1, m.ctx e.1))).filter (fun e => e.2.v && e.2.part = part)

/-- Kills every context of a partition. -/
def Mach.killPart (m : Mach) (t p cause status : Nat) : Mach := (m.ctxsOf p).foldl (fun m c => m.kill t c.1 cause status) m

/-- Every context of a partition is killed for a lost line; the kill wins over a consumer's halt of the same cycle, and its
record names the causes, the channel and the line (16_die.md R302, R303, DESIGN CHOICE, log entry 78). -/
def Mach.losePart (m : Mach) (t p cause line : Nat) : Mach :=
  let cs := m.ctxsOf p
  let together (c : Ctx) : Bool := c.state = 5 && c.killAt = t && isConsumer c.killCause
  let more := (cs.filter (fun c => together c.2)).map (fun c => c.2.killCause)
  let m := cs.foldl (fun m c =>
    if together c.2 then m.setCtx c.1 { m.ctx c.1 with killCause := cause, killStatus := 2 } else m.kill t c.1 cause 2) m
  m.check (cs.map (·.1)) (cause :: more.eraseDups) (some (line / 2 ^ 24, line))

/-- A dirty line is lost with its uncorrectable data: DRAM keeps its older contents (16_die.md R302). -/
def Mach.loseLine (m : Mach) (line : Nat) : Mach :=
  match m.dirty.find line with
  | none => m
  | some d => { m with
      mem := m.mem.setList (line * 128) d.old, dirty := m.dirty.del line
      bad := m.bad.filter (fun g => g / 4 != line), badL2 := m.badL2.filter (fun g => g / 4 != line) }

/-- A dirty line reaches DRAM; one that holds uncorrectable data is lost, and the partition that owns its channel is killed
(16_die.md R289, R302). -/
def Mach.writeBackLine (m : Mach) (t line : Nat) : Mach :=
  if m.lineBad line then
    let ch := line / 2 ^ 24
    let m := (m.loseLine line).countUe (ch / 32) (some (ch % 32)) 1
    match m.channels.find ch with
    | some c => if c.v then m.losePart t c.own.toNat mcEvict line else m
    | none => m
  else { m with dirty := m.dirty.del line }

/-- The dirty lines of a test are written back. -/
def Mach.writeBack (m : Mach) (t : Nat) (p : Nat → DirtyLine → Bool) : Mach :=
  (m.dirty.filter (fun e => p e.1 e.2)).foldl (fun m e => m.writeBackLine t e.1) m

/-- Drops the cached lines and translations of a context; its dirty lines reach DRAM. -/
def Mach.dropCached (m : Mach) (t ctx : Nat) : Mach :=
  let drop (l : List TlbEntry) : List TlbEntry := l.filter (fun e => e.ctx != ctx)
  ({ m with l1 := m.l1.filter (fun e => e.ctx != ctx), utlb := m.utlb.mapVal drop, ctlb := m.ctlb.mapVal drop }).writeBack t
    (fun _ d => d.ctx = ctx)

/-- A consumer that finds an uncorrectable granule records it in its die's status register (R303). -/
def Mach.foundBad (m : Mach) (keys : List Nat) : Mach :=
  match keys.find? (fun k => m.bad.contains (k / 32)) with
  | some k => m.countUe (k / 2 ^ 36) (some (k / 2 ^ 31 % 32)) (if m.badInL2 (k / 32) then 1 else 0)
  | none => m

/-- Each uncorrectable granule of some places is recorded (R301, R303). -/
def Mach.foundEach (m : Mach) (keys : List Nat) : Mach :=
  (m.bad.filter (fun g => keys.any (fun k => k / 32 = g))).foldl (fun m g => m.foundBad [32 * g]) m

/-- A walk that reads an uncorrectable entry kills its context (R300). -/
def Mach.consumeWalk (m : Mach) (t ctx va : Nat) : Mach := (m.foundBad (m.badEntry ctx va)).kill t ctx mcWalk 2

/-- The uncorrectable data behind a fault is recorded: the entry that a walk read, or the word that a fetch read (R303). -/
def Mach.foundFault (m : Mach) (core ctx : Nat) (f : FaultInfo) : Mach :=
  if f.cause = mcWalk then m.foundBad (m.badEntry ctx (if f.faddr = 0 then f.ia else f.faddr.toNat))
  else if isBadData f.cause then
    match m.look core ctx f.ia .fetch with
    | .ok (pa, _) => m.foundBad ((m.part (m.ctxPart ctx)).places pa 12)
    | .error _ => m
  else m

/-- An access that would consume an uncorrectable granule kills its context; its data is not delivered (R300). -/
def Mach.consume (m : Mach) (t ctx : Nat) (keys : List Nat) : Mach :=
  if m.anyBad keys then (m.foundBad keys).kill t ctx (m.badCause keys) 2 else m

/-- A write performs, unless it would merge into an uncorrectable granule, which it consumes (R301). -/
def Mach.consumeWrite (m : Mach) (t ctx : Nat) (keys : List Nat) (wr : Mach → Mach) : Mach :=
  if m.consumesBad keys then (m.foundBad keys).kill t ctx (m.badCause keys) 2 else wr m

end Sys2Proof.Machine
end

