-- ==== Sys2Proof/Machine/Memory.lean ====
section
/-!
DEFINITION. LD, ST, PRF, OPF, CMNT, FENCE and the atomics (07_core_memory.md R149 to R171).
-/
namespace Sys2Proof.Machine
open Sys2Proof

/-- An operand's words in the admitted lanes, `n` to a lane, as read at issue. -/
def Cx.capture (c : Cx) (o : Operand) (n : Nat) : FMap 32 := valsOf n c.lanes (fun l k => c.rd o k l)

/-- A run of binary32 values in the admitted lanes, `n` to a lane: a single one is read at any level as a binary32 source, so
that an inline integer stands for its value (03_encoding.md R53, 08_field_unit.md R188). -/
def Cx.captureF (c : Cx) (o : Operand) (n : Nat) : FMap 32 :=
  if n = 1 then valsOf 1 c.lanes (fun l _ => BitVec.ofNat 32 (c.rdF Num.f32 o l)) else c.capture o n

/-- Word and double word of a captured operand. -/
def cap32 (f : FMap 32) (l : Nat) : Nat := (f.get (resKey 0 l)).toNat
def cap64 (f : FMap 32) (l : Nat) : Nat := cap32 f l + 2 ^ 32 * (f.get (resKey 1 l)).toNat

/-- The low bytes of a captured operand. -/
def capBytes (f : FMap 32) (n l : Nat) : List Byte :=
  ((List.range ((n + 3) / 4)).foldr (fun o bs => leBytes (f.get (resKey o l)).toNat 4 ++ bs) []).take n

/-- The space that FN selects in LD and ST (R153). -/
def spaceOf (fn : Nat) : Space :=
  match fn with
  | 0 => .g
  | 1 => .s
  | 2 => .c
  | _ => .a

/-- The scope at which an access acts: .b is the widest that .s and .a reach (R153). -/
def scopeIn (sp : Space) (sc : Nat) : Nat :=
  match sp with
  | .s => min sc 1
  | .a => min sc 1
  | _ => sc

/-- The addresses of LD and ST, per lane (R149). -/
def memAddrs (f : Fields) (lanes : List Nat) (a b : FMap 32) : List (Nat × Nat) :=
  let sp := spaceOf f.fn.toNat
  let size := 2 ^ bitsAt f.mod 15 3
  lanes.map (fun l =>
    (l, formAddr sp (if sp = .g then cap64 a l else cap32 a l)
      (if f.mod.getLsbD 13 then sx 32 (cap32 b l) else 0) (sx 9 (bitsAt f.mod 0 9) * (size : Nat))))

/-- A load's value in a lane from its bytes: extended to 32 bits when narrower (R154). -/
def loadValue (size : Nat) (sxt : Bool) (bs : List Byte) : Nat :=
  let x := leNat bs
  if size < 4 && sxt then wrapN 32 (sx (8 * size) x) else x

/-- Whether a load must wait for earlier accesses of its warp: one that overlaps a queued store in part
(R156), an acquire behind a release (R172, note 2), one behind an acquire or a fence (R161, R163), or one behind a store or atomic
that is to be executed again (R143). -/
def Warp.loadWaits (w : Warp) (seq : Nat) (sp : Space) (acq : Bool) (keys : List Nat) : Bool :=
  let q := w.queue.filter (fun e => e.seq < seq)
  w.held Op.holdsLoads seq || w.held Op.storesAgain seq || q.any (fun e => e.acq) || (acq && q.any (fun e => e.rel)) || overlap q sp keys = .part

/-- Performs a load: every byte from the youngest queued store, or every byte from memory (R156). -/
def Mach.loadLanes (m : Mach) (blk : Block) (la : Launch) (queue : List QEntry) (t : Nat) (sp : Space)
    (ks : List (Nat × List Nat)) : Mach × List (Nat × List Byte) :=
  let keys := ks.foldr (fun e l => e.2 ++ l) []
  if overlap queue sp keys = .all then
    (m, ks.map (fun e => (e.1, e.2.map (fun k => (forwarded queue sp k).getD 0))))
  else
    match sp with
    | .g =>
      let m := ((keys.map (fun k => k / 128)).eraseDups).foldl (fun m line => m.l1Fill blk.part blk.core blk.ctx line) m
      (m, ks.map (fun e => (e.1, e.2.map (fun k => m.loadByte blk.part blk.core blk.ctx k))))
    | sp => (m, ks.map (fun e => (e.1, e.2.map (fun k => blk.readByte la t sp k))))

/-- A load's result (R154). -/
def loadResult (d : Operand) (wt : Bool) (mask : Mask) (size : Nat) (sxt : Bool) (bs : List (Nat × List Byte)) : Result :=
  let n := max 1 (size / 4)
  { dest := some d, n := n, wt := wt, mask := mask, preds := [], flags := 0
    vals := bs.foldl (fun m e => (List.range n).foldl (fun m o =>
      m.set (resKey o e.1) (BitVec.ofNat 32 (loadValue size sxt e.2 / 2 ^ (32 * o)))) m) [] }

/-- Issues an operation that a fault of its checks stops: it never completes, and its re-execution reads
the operands again as they were (R170, 02_warp_state.md R24). -/
def Cx.startFault (c : Cx) (cls : Option Nat) (p : Payload) (f : FaultInfo) : Cx :=
  let d := c.startTracked c.flagNo cls p
  { d with w := { d.w with ops := d.w.ops.upd c.w.nextOp (fun o => { o with fault := some f }) } }

/-- The same of a folding operation: the later folds proceed as if it were absent (02_warp_state.md R29). -/
def Cx.startFaultFold (c : Cx) (p : Payload) (f : FaultInfo) : Cx :=
  let d := c.startFault none p f
  if isTranslation f.cause then { d with w := ({ d.w with folds := d.w.folds ++ [Fold.absent c.w.nextOp] } : Warp).foldShash } else d

/-- The block with the issuing warp's working copy in it. -/
def Cx.block (c : Cx) : Block := c.blk.setWarp c.wid c.w

/-- Performs a load from its places and enters its result; it consumes uncorrectable data that it reads at a home slice (16_die.md
R300). An acquire invalidates the L1 first, so that it and every later load find the home slice's value (15_cluster.md R281). -/
def Cx.doLoad (c : Cx) (sp : Space) (acq : Bool) (scope : Nat) (ks : List (Nat × List Nat))
    (r : List (Nat × List Byte) → Result) (retry : Payload) : Cx :=
  let keys := ks.foldr (fun e l => e.2 ++ l) []
  let m := if acq then c.m.acquire c.blk.part c.blk.core c.blk.ctx (scopeIn sp scope) else c.m
  let read := m.sliceKeys c.blk c.w.queue sp keys
  if m.anyBad read then (c.start none retry).viaMach (fun m => m.consume c.t c.blk.ctx read)
  else
    let (m, bs) := m.loadLanes c.block c.la c.w.queue c.t sp ks
    ({ c with m := m }).start none (.result (r bs))

/-- LD (R154). -/
def actLd : Act := fun c =>
  if c.adm = 0 then .ok c
  else
    let f := c.f
    let sp := spaceOf f.fn.toNat
    let size := 2 ^ bitsAt f.mod 15 3
    let a := c.capture f.a 2
    let b := c.capture f.b 1
    let retry : Payload := .retry c.i a b []
    let acq := f.mod.getLsbD 12
    let (m, r) := c.m.checkLanes c.blk c.la sp false .read size c.ia c.cl.slot (memAddrs f c.lanes a b)
    let c := { c with m := m }
    match r with
    | .error e => .ok (c.startFault none retry e)
    | .ok ks =>
      if c.w.loadWaits c.w.seq sp acq (ks.foldr (fun e l => e.2 ++ l) []) then .ok (c.start none retry)
      else .ok (c.doLoad sp acq (bitsAt f.mod 9 3) ks
        (fun bs => loadResult f.d f.hint.wt c.adm size (f.mod.getLsbD 14) bs) retry)

/-- The accesses of a store: each lane's address, places and bytes (R152, R155). -/
def storeAcc (size : Nat) (as : List (Nat × Nat)) (ks : List (Nat × List Nat)) (data : Nat → List Byte) : List LaneAcc :=
  as.map (fun e =>
    { lane := e.1, addr := e.2, keys := ((ks.find? (fun k => k.1 = e.1)).map (·.2)).getD [],
      data := (data e.1).take size, data2 := [] })

/-- Enters a store: one queue entry, and a fold of SHASH in program order (R155, R156, 02_warp_state.md R29). -/
def Cx.enterStore (c : Cx) (sp : Space) (rel : Bool) (scope : Nat) (acc : List LaneAcc) : Cx :=
  let op := c.w.nextOp
  let c := c.start none (.sourcesRead (foldWords (acc.map (fun a => (a.addr, a.data)))) 0)
  let q : QEntry := { seq := c.w.seq, space := sp, rel := rel, acq := false, scope := scope, kind := .store acc }
  { c with w := { c.w with queue := c.w.queue ++ [q], folds := c.w.folds ++ [.waiting op] } }

/-- ST (R155). -/
def actSt : Act := fun c =>
  if c.adm = 0 then .ok c
  else
    let f := c.f
    let sp := spaceOf f.fn.toNat
    let size := 2 ^ bitsAt f.mod 15 3
    let a := c.capture f.a 2
    let b := c.capture f.b 1
    let x := c.capture f.c (max 1 (size / 4))
    let as := memAddrs f c.lanes a b
    let (m, r) := c.m.checkLanes c.blk c.la sp false .write size c.ia c.cl.slot as
    let c := { c with m := m }
    match r with
    | .error e => .ok (c.startFaultFold (.retry c.i a b x) e)
    | .ok ks => .ok (c.enterStore sp (f.mod.getLsbD 12) (scopeIn sp (bitsAt f.mod 9 3))
        (storeAcc size as ks (fun l => capBytes x size l)))

/-- PRF: fills the lines of the lanes that translate; it never faults and consumes nothing: a bad granule is counted and not
filled (R157, 16_die.md R301). -/
def actPrf : Act := fun c =>
  let f := c.f
  let step (m : Mach) (l : Nat) : Mach :=
    let a := formAddr .g (c.rd64 f.a l).toNat (if f.mod.getLsbD 13 then sx 32 (c.rd32 f.b l) else 0) (sx 9 (bitsAt f.mod 0 9) * 4)
    if 2 ^ 57 ≤ a then m
    else
      match m.coreKeys c.blk.core c.blk.ctx .read (a / 128 * 128) 128 with
      | .error (c', _) => if c' = mcWalk then m.foundBad (m.badEntry c.blk.ctx (a / 128 * 128)) else m
      | .ok ks =>
        if m.anyBad ks then m.foundEach ks
        else if f.fn = 0 then m.l1Fill c.blk.part c.blk.core c.blk.ctx (ks.headD 0 / 128) else m
  .ok (({ c with m := c.lanes.foldl step c.m }).start none (.sourcesRead [] 0))

/-- The registers that OPF's runs name, in the order of the buffer entries (R158). -/
def opfRegs (f : Fields) : List Nat :=
  let run (o : Operand) (lo : Nat) : List Nat := opRegs o (bitsAt f.mod lo 4)
  (run f.d 0 ++ run f.a 4 ++ run f.b 8 ++ run f.c 12).take 16

/-- OPF: copies, and under RH the region's map, in every lane whatever the guard (R158, R159). -/
def actOpf : Act := fun c =>
  let rs := opfRegs c.f
  let ks := (List.range rs.length).zip rs
  let w := ks.foldl (fun w e =>
    let w := (List.range (min c.blk.width 64)).foldl (fun w l => w.setBuf e.1 l (c.w.reg e.2 l)) w
    if c.w.deadV.getLsbD e.2 then { w with deadB := w.deadB ||| (1#16 <<< e.1) }
    else { w with deadB := w.deadB &&& ~~~(1#16 <<< e.1) }) c.w
  let w := if c.cl.hdr.rh then
      { w with map := ks.foldl (fun m e => m.set e.1 (BitVec.ofNat 9 (256 + e.2))) [] } else w
  .ok { c with w := w }

/-- The physical ranges of a virtual range, or the cause and address of its first fault. -/
def Mach.coreRanges (m : Mach) (core ctx : Nat) : List (Nat × Nat) → Except (Nat × Nat) (List (Nat × Nat))
  | [] => .ok []
  | (va, k) :: rest =>
    match m.look core ctx va .read with
    | .error c => .error (c, va)
    | .ok (pa, _) => (m.coreRanges core ctx rest).map (fun l => (pa, k) :: l)

/-- Whether a line of the package lies in one of the physical ranges of a partition. -/
def inRanges (p : Part) (rs : List (Nat × Nat)) (line : Nat) : Bool :=
  match p.paOf (line * 128) with
  | some pa => rs.any (fun r => r.1 ≤ pa && pa < r.1 + r.2)
  | none => false

/-- CMNT's range: the lines that `n` bytes from `a` on touch. -/
def cmntRange (a n : Nat) : Nat × Nat := (a / 128 * 128, (a + n + 127) / 128 * 128)

/-- CMNT over the lines of a range: OP 0 .inv, 1 .wb, 2 .wbinv (R160); or the cause and address of its fault. Discarding a
clean line counts an uncorrectable granule of it (16_die.md R301); a dirty one found bad at write-back is lost (R302). -/
def Mach.cmnt (m : Mach) (t : Nat) (blk : Block) (op a n : Nat) : Except (Nat × Nat) Mach :=
  let (lo, hi) := cmntRange a n
  if 2 ^ 57 < hi then .error (addressRange, max a (2 ^ 57))
  else
    match m.coreRanges blk.core blk.ctx (granuleChunks ((hi - lo) / 2 ^ 16 + 2) lo (hi - lo)) with
    | .error e => .error e
    | .ok rs =>
      let p := m.part blk.part
      let clean := (m.bad.filter (fun g => inRanges p rs (g / 4) && (m.dirty.find (g / 4)).isNone)).map (fun g => 32 * g)
      let m := if op = 1 then m else
        { m.foundEach clean with l1 := m.l1.filter (fun e =>
            !(e.ctx = blk.ctx && m.l1Core blk.part blk.core e.line = e.core && inRanges p rs e.line)) }
      .ok (if op = 0 then m else m.writeBack t (fun line d => d.ctx = blk.ctx && inRanges p rs line))

/-- CMNT: it reads its operands in the lowest admitted lane (R160), and acts as it issues, before the warp's earlier queued stores have
performed (DESIGN CHOICE, log entry 89). -/
def actCmnt : Act := fun c =>
  let n := c.rd32 c.f.b c.lane
  if c.adm = 0 || n = 0 then .ok c
  else
    match c.flush.cmnt c.t c.blk (bitsAt c.f.mod 0 2) (c.rd64 c.f.a c.lane).toNat n with
    | .error (cause, va) =>
      .ok (c.startFault none (.retry c.i (c.capture c.f.a 2) (c.capture c.f.b 1) [])
        { cause := cause, ia := c.ia, fmask := 1#64 <<< c.lane, faddr := BitVec.ofNat 64 va, xcode := 0, lane := 0xFF,
          slot := c.cl.slot })
    | .ok m => .ok ((c.reload m).start none (.sourcesRead [] 0))

/-- FENCE: it completes, and an acquiring one invalidates the L1, once the earlier accesses that its kind
names have performed (R161, 15_cluster.md R281). -/
def actFence : Act := fun c => .ok (c.start none (.fence c.f.fn.toNat (bitsAt c.f.mod 9 3)))

/-! ### Atomics -/

/-- The new value of a read-modify-write of `w` bits (R166). -/
def rmwNew (op : RmwOp) (w old b c : Nat) : Nat :=
  match op with
  | .xchg => b
  | .cas => if old = b then c else old
  | .add => (old + b) % 2 ^ w
  | .mnmx sub =>
    match sub.toNat with
    | 0 => if sx w b < sx w old then b else old
    | 1 => if sx w old < sx w b then b else old
    | 2 => min old b
    | _ => max old b
  | .lop sub =>
    match sub.toNat with
    | 0 => Nat.land old b
    | 1 => Nat.lor old b
    | _ => Nat.xor old b
  | .gadd k => (old + (Num.ontoGrid (Num.decodeF Num.f32 b) (sx 8 k.toNat)).1.toNat) % 2 ^ 64
  | .inc => if b ≤ old then 0 else old + 1

/-- The lanes of an atomic's entry that have not performed. -/
def pendingLanes (acc : List LaneAcc) (old : List (Nat × Nat)) : List LaneAcc :=
  acc.filter (fun a => !old.any (fun o => o.1 = a.lane))

/-- The home slice of a lane's access: its channel; the core's store for .s (R167). -/
def LaneAcc.slice (sp : Space) (a : LaneAcc) : Nat := if sp = .g then a.keys.headD 0 / 2 ^ 31 else 0

/-- One lane's read-modify-write at its location (R167): in the home slice, or in the block's scratchpad. -/
def Mach.rmwLane (m : Mach) (t b core ctx part size : Nat) (sp : Space) (op : RmwOp) (a : LaneAcc) : Mach × Nat :=
  match sp with
  | .g =>
    let old := leNat (m.bytes a.keys)
    let new := rmwNew op (8 * size) old (leNat a.data) (leNat a.data2)
    ((m.write ctx a.keys (leBytes new size)).l1Drop part core ctx a.keys, old)
  | _ =>
    match m.block b with
    | none => (m, 0)
    | some blk =>
      let old := leNat (a.keys.map (fun k => blk.scratch.get k))
      let new := rmwNew op (8 * size) old (leNat a.data) (leNat a.data2)
      (m.setBlock b ((a.keys.zip (leBytes new size)).foldl (fun blk e => blk.writeByte t .s e.1 e.2) blk), old)

/-- The operand words of an atomic: AGADD's is a binary32 value (R165, R166). -/
def Cx.atomicB (c : Cx) (op : RmwOp) (n : Nat) : FMap 32 :=
  match op with
  | .gadd _ => c.captureF c.f.b 1
  | _ => c.capture c.f.b n

/-- The exceptions of AGADD's conversions (R166, 04_numbers.md R83). -/
def gaddExc (op : RmwOp) (b : FMap 32) (lanes : List Nat) : Num.Exc :=
  match op with
  | .gadd k => orExc (lanes.map (fun l => (Num.ontoGrid (Num.decodeF Num.f32 (cap32 b l)) (sx 8 k.toNat)).2))
  | _ => 0

/-- The size and space of an atomic. -/
def atomicSize (f : Fields) : Nat := if f.mod.getLsbD 17 then 8 else 4
def atomicSpace (f : Fields) : Space := if f.mod.getLsbD 16 then .s else .g

/-- An atomic's queue entry from its operands and places (R165, R168). -/
def atomicEntry (seq n : Nat) (f : Fields) (op : RmwOp) (b x : FMap 32) (as : List (Nat × Nat))
    (ks : List (Nat × List Nat)) : QEntry :=
  let size := atomicSize f
  let ord := bitsAt f.mod 13 2
  let bn := match op with
    | .gadd _ => 4
    | _ => size
  let acc := (storeAcc size as ks (fun l => capBytes b bn l)).map (fun a => { a with data2 := capBytes x size a.lane })
  { seq := seq, space := atomicSpace f, rel := ord = 2 || ord = 3, acq := ord = 1 || ord = 3,
    scope := scopeIn (atomicSpace f) (bitsAt f.mod 10 3),
    kind := .atomic n op size (f.mod.getLsbD 15) (f.fn = 1) acc [] }

/-- What an atomic waits for: its sources read under .red, and otherwise its old values (R168). -/
def atomicPayload (f : Fields) (op : RmwOp) (mask : Mask) (b : FMap 32) : Payload :=
  let exc := gaddExc op b (lanesOf mask 64)
  if f.fn = 1 then .sourcesRead [] exc
  else .atomicResult false
    { dest := some f.d, n := atomicSize f / 4, wt := f.hint.wt, mask := mask, vals := [], preds := [], flags := exc } []

/-- Enters an atomic: one queue entry; a returning one folds when it returns (R165, R168). -/
def Cx.enterAtomic (c : Cx) (f : Fields) (op : RmwOp) (b x : FMap 32) (as : List (Nat × Nat))
    (ks : List (Nat × List Nat)) : Cx :=
  let n := c.w.nextOp
  let c := c.start none (atomicPayload f op c.adm b)
  { c with w := { c.w with
      queue := c.w.queue ++ [atomicEntry c.w.seq n f op b x as ks]
      folds := if f.fn = 1 then c.w.folds else c.w.folds ++ [.waiting n] } }

/-- AXCH, ACAS, AADD, AMNMX, ALOP, AGADD and AINC (R165 to R168). -/
def actAtomic (op : Fields → RmwOp) : Act := fun c =>
  if c.adm = 0 then .ok c
  else
    let f := c.f
    let size := if f.mod.getLsbD 17 then 8 else 4
    let sp : Space := if f.mod.getLsbD 16 then .s else .g
    let a := c.capture f.a 2
    let b := c.atomicB (op f) (size / 4)
    let x := c.capture f.c (size / 4)
    let as := c.lanes.map (fun l => (l, if sp = .g then cap64 a l else cap32 a l))
    let (m, r) := c.m.checkLanes c.blk c.la sp true .write size c.ia c.cl.slot as
    let c := { c with m := m }
    match r with
    | .error e => .ok (if f.fn = 1 then c.startFault none (.retry c.i a b x) e else c.startFaultFold (.retry c.i a b x) e)
    | .ok ks => .ok (c.enterAtomic f (op f) b x as ks)

/-- LD (R154): Loads from global, scratchpad, constant or aperture space. -/
def execLd (w : CForm) (s : State) : Host.Outcome State Fault Refusal := issue (.ld w) actLd s

/-- ST (R155): Enters a store into the warp's store queue. -/
def execSt (w : CForm) (s : State) : Host.Outcome State Fault Refusal := issue (.st w) actSt s

/-- PRF (R157): Prefetches lines into the L1 or home slice, never faulting. -/
def execPrf (w : CForm) (s : State) : Host.Outcome State Fault Refusal := issue (.prf w) actPrf s

/-- OPF (R158): Copies registers into operand-buffer entries and, under RH, records the map. -/
def execOpf (w : CForm) (s : State) : Host.Outcome State Fault Refusal := issue (.opf w) actOpf s

/-- CMNT (R160): Invalidates or writes back cache lines of a range. -/
def execCmnt (w : CForm) (s : State) : Host.Outcome State Fault Refusal := issue (.cmnt w) actCmnt s

/-- FENCE (R161): Holds back later accesses until earlier ones have performed at its scope. -/
def execFence (w : CForm) (s : State) : Host.Outcome State Fault Refusal := issue (.fence w) actFence s

/-- AXCH (R166): Atomically exchanges a value. -/
def execAxch (w : CForm) (s : State) : Host.Outcome State Fault Refusal := issue (.axch w) (actAtomic (fun _ => .xchg)) s

/-- ACAS (R166): Atomically compares and swaps. -/
def execAcas (w : CForm) (s : State) : Host.Outcome State Fault Refusal := issue (.acas w) (actAtomic (fun _ => .cas)) s

/-- AADD (R166): Atomically adds an integer. -/
def execAadd (w : CForm) (s : State) : Host.Outcome State Fault Refusal := issue (.aadd w) (actAtomic (fun _ => .add)) s

/-- AMNMX (R166): Atomically takes a minimum or maximum. -/
def execAmnmx (w : CForm) (s : State) : Host.Outcome State Fault Refusal := issue (.amnmx w) (actAtomic (fun f => .mnmx (f.mod.extractLsb' 8 2))) s

/-- ALOP (R166): Atomically applies a bitwise operation. -/
def execAlop (w : CForm) (s : State) : Host.Outcome State Fault Refusal := issue (.alop w) (actAtomic (fun f => .lop (f.mod.extractLsb' 8 2))) s

/-- AGADD (R166): Atomically adds a float onto an FX64 grid word. -/
def execAgadd (w : CForm) (s : State) : Host.Outcome State Fault Refusal := issue (.agadd w) (actAtomic (fun f => .gadd (f.mod.extractLsb' 0 8))) s

/-- AINC (R166): Atomically increments with wrap at a bound. -/
def execAinc (w : CForm) (s : State) : Host.Outcome State Fault Refusal := issue (.ainc w) (actAtomic (fun _ => .inc)) s

end Sys2Proof.Machine
end

