-- ==== Sys2Proof/Machine/Units.lean ====
section
/-!
DEFINITION. Operations that execute at an engine: what an execution gives, and the waits that read a word
again after each write (11_async_armature.md R238, R241, 15_cluster.md R285).
-/
namespace Sys2Proof.Machine
open Sys2Proof

/-- Whether the engines still act for a block's context: it is not being killed (17_package.md R324). The
operations of a halted or switched-out block continue (12_core_scheduling.md R272). -/
def Mach.alive (m : Mach) (blk : Block) : Bool := (m.ctx blk.ctx).state != 5

/-- What the execution of an operation gives: nothing, since its context has been killed; its fault; or its
result, to be written at completion. -/
inductive Ran where
  | killed
  | fault (f : FaultInfo)
  /-- A fault that an enabled exception raises: the exceptions still set FLAGS (04_numbers.md R87, R89). -/
  | trap (f : FaultInfo) (flags : BitVec 5)
  | done (r : Result)
  deriving DecidableEq, Repr

/-- A fault of an operation as a whole (18_traps.md R340). -/
def Op.info (o : Op) (cause : Nat) (faddr : Nat) : FaultInfo :=
  { cause := cause, ia := o.ia, fmask := o.mask, faddr := BitVec.ofNat 64 faddr, xcode := 0, lane := 0xFF, slot := o.slot }

/-- A result of an operation: `n` registers of D in its lanes. -/
def Op.result (o : Op) (f : Fields) (n : Nat) (g : Nat → Nat → Word) (flags : BitVec 5) : Result :=
  { dest := some f.d, n := n, wt := f.hint.wt, mask := o.mask, vals := valsOf n (lanesOf o.mask 64) g, preds := [], flags := flags }

/-- An operation without a register result. -/
def Ran.nothing (flags : BitVec 5) : Ran := .done { Result.none with flags := flags }

/-- The warp's operation takes another payload. -/
def Warp.setPayload (w : Warp) (op : Nat) (p : Payload) : Warp :=
  { w with ops := w.ops.upd op (fun o => { o with payload := p }) }

/-- An operation's fault, not yet reported. -/
def Warp.failOp (w : Warp) (op : Nat) (f : FaultInfo) : Warp :=
  { w with ops := w.ops.upd op (fun o => { o with fault := some f }) }

/-! ### Rings of records (R236, 17_package.md R327) -/

/-- A ring descriptor as its 32 bytes hold it (11_async_armature.md R236). -/
structure RingDesc where
  base : Nat
  logn : Nat
  sc   : Nat
  zero : Nat
  seq  : DWord
  cons : DWord
  deriving DecidableEq, Repr

/-- The bytes that an engine of the package reads at virtual addresses, or the cause and address of the fault. -/
def Mach.readVirt (m : Mach) (ctx va n : Nat) : Except (Nat × Nat) (List Byte) :=
  (m.engineKeys ctx .read va n).map m.bytes

/-- What an engine of the package writes at virtual addresses. -/
def Mach.writeVirt (m : Mach) (t ctx va : Nat) (data : List Byte) : Except (Nat × Nat) Mach :=
  match m.engineKeys ctx .write va data.length with
  | .error (c, a) => if c = mcWalk then .ok (m.consumeWalk t ctx a) else .error (c, a)
  | .ok keys => .ok (m.consumeWrite t ctx keys (fun m => m.write ctx keys data))

/-- The descriptor that 32 bytes hold (R236). -/
def RingDesc.ofBytes (bs : List Byte) : RingDesc :=
  let at_ (k n : Nat) : Nat := leNat ((bs.drop k).take n)
  { base := at_ 0 8, logn := at_ 8 1, sc := at_ 9 1, zero := at_ 10 6,
    seq := BitVec.ofNat 64 (at_ 16 8), cons := BitVec.ofNat 64 (at_ 24 8) }

/-- Reads a ring descriptor. -/
def Mach.readRing (m : Mach) (ctx va : Nat) : Except (Nat × Nat) RingDesc := (m.readVirt ctx va 32).map RingDesc.ofBytes

/-- Whether a ring has room for its next record (R236); the difference is taken modulo 2^64 (DESIGN CHOICE, log entry 91). -/
def RingDesc.room (r : RingDesc) : Bool := (r.seq + 1 - r.cons).toNat ≤ 2 ^ r.logn

/-- The address of the next record's slot. -/
def RingDesc.slot (r : RingDesc) : Nat := (r.base + 32 * (r.seq.toNat % 2 ^ r.logn)) % 2 ^ 64

/-- No L1 keeps a line of the given places, so that a load at any scope finds what the home slice holds. -/
def Mach.purge (m : Mach) (keys : List Nat) : Mach := { m with l1 := m.l1.filter (fun e => !keys.any (fun k => k / 128 = e.line)) }

/-- A write at virtual addresses that has performed at every scope. -/
def Mach.writeSeen (m : Mach) (t ctx va : Nat) (data : List Byte) : Except (Nat × Nat) Mach :=
  match m.engineKeys ctx .write va data.length with
  | .error (c, a) => if c = mcWalk then .ok (m.consumeWalk t ctx a) else .error (c, a)
  | .ok keys => .ok (m.consumeWrite t ctx keys (fun m => (m.write ctx keys data).purge keys))

/-- Writes the next record of a ring and then its SEQ (R236). -/
def Mach.putRecord (m : Mach) (t ctx va : Nat) (r : RingDesc) (bytes : List Byte) : Except (Nat × Nat) Mach :=
  match m.writeSeen t ctx r.slot bytes with
  | .error e => .error e
  | .ok m => if (m.ctx ctx).state = 5 then .ok m else m.writeSeen t ctx (va + 16) (leBytes (r.seq + 1).toNat 8)

/-! ### Waits on a word -/

/-- The 64-bit barrier word at a place: in the home slice or in the block's scratchpad (R237, R238). -/
def Mach.barWord (m : Mach) (blk : Block) (global : Bool) (key : Nat) : Nat :=
  leNat (if global then m.mem.getList key 8 else blk.scratch.getList key 8)

/-- The 32-bit word of a SLEEP as it is read at its scope (R241). -/
def Mach.sleepWord (m : Mach) (blk : Block) (sp : Space) (key scope : Nat) : Nat :=
  match sp with
  | .g =>
    if scope < 2 then leNat ((List.range 4).map (fun i => m.loadByte blk.part blk.core blk.ctx (key + i)))
    else leNat (m.mem.getList key 4)
  | _ => leNat (blk.scratch.getList key 4)

/-- A wait reads its word again. A SLEEP does so only behind the warp's earlier stores (06_isa_control.md R143). -/
def Op.reread (m : Mach) (blk : Block) (w : Warp) (o : Op) : Op :=
  match o.payload with
  | .barWait g key ph met =>
    let met := met || (m.barWord blk g key).testBit 63 != ph
    { o with payload := .barWait g key ph met }
  | .sleep sp key addr cmp due acq scope dest past =>
    let past := past || w.drained o.seq && m.sleepWord blk sp key (if acq then scope else 1) != cmp.toNat
    { o with payload := .sleep sp key addr cmp due acq scope dest past }
  | _ => o

/-- Whether a payload is such a wait. -/
def Payload.waits : Payload → Bool
  | .barWait .. => true
  | .sleep .. => true
  | _ => false

/-- Every wait of a block reads its word again. -/
def Mach.rereadBlock (m : Mach) (blk : Block) : Block :=
  if blk.warps.any (fun e => e.2.ops.any (fun o => o.2.payload.waits)) then
    { blk with warps := blk.warps.mapVal (fun w => { w with ops := w.ops.mapVal (fun o => o.reread m blk w) }) }
  else blk

/-- The global word that a wait of a warp still reads at its home slice. -/
def Op.waitKeys (m : Mach) (blk : Block) (w : Warp) (o : Op) : List Nat :=
  match o.payload with
  | .barWait true key _ false => (List.range 8).map (fun i => key + i)
  | .sleep .g key _ _ _ acq scope _ false =>
    let keys := (List.range 4).map (fun i => key + i)
    if !w.drained o.seq then [] else if acq && 2 ≤ scope then keys else m.missKeys blk.part blk.core blk.ctx keys
  | _ => []

/-- The global words that the waits of a block still read; none once its context is being killed (17_package.md R324). -/
def Block.waitKeys (m : Mach) (blk : Block) : List Nat :=
  if !m.alive blk then [] else blk.warps.foldr (fun e l => e.2.ops.foldr (fun o l => o.2.waitKeys m blk e.2 ++ l) l) []

/-- Every wait reads its word again, as it does after each write to its line (R238, R241). One that meets uncorrectable data
consumes it (16_die.md R300). -/
def Mach.reread (m : Mach) (t : Nat) : Mach :=
  let m := m.blocks.foldl (fun m b => m.consume t b.2.ctx (b.2.waitKeys m)) m
  { m with blocks := m.blocks.mapVal (fun b => m.rereadBlock b) }

/-- An event after which every wait has read its word again. -/
def eventW (s : State) (r : Option (Nat × Mach)) : Host.Outcome State Fault Refusal :=
  event s (r.map (fun e => (e.1, e.2.reread e.1)))

end Sys2Proof.Machine
end

