-- ==== Sys2Proof/Machine/Control.lean ====
section
/-!
DEFINITION. Control flow: PC slots, the reconvergence stack and its spill area, branches
(06_isa_control.md R130 to R139, 02_warp_state.md R21, R22, 03_encoding.md R62).
-/
namespace Sys2Proof.Machine
open Sys2Proof

def rstackOverflow : Nat := 0x09
def brxTarget : Nat := 0x08
def braDivergent : Nat := 0x07
def handlerNested : Nat := 0x12

/-- The offsets of a granule's clause headers up to `target`: whether one stands at it (03_encoding.md R46). -/
def Mach.headerAt (m : Mach) (part pa target : Nat) : Nat → Nat → Bool
  | 0, _ => false
  | n + 1, off =>
    if target < off || 2 ^ 16 < off + 12 then false
    else
      let w := leNat (m.readPA part (pa + off) 12)
      if w / 2 ^ 88 != 0xF8 then false
      else if off = target then true
      else m.headerAt part pa target n (off + 12 * (w / 2 ^ 84 % 16 + 2))

/-- Whether an address is a clause header of a scanned granule, or the cause of the fetch's fault (R62, R133). -/
def Mach.isHeader (m : Mach) (core ctx va : Nat) : Except Nat Bool :=
  match m.look core ctx (2 ^ 16 * (va / 2 ^ 16)) .fetch with
  | .error c => .error c
  | .ok (pa, _) => .ok (m.headerAt (m.ctxPart ctx) pa (va % 2 ^ 16) 2731 0)

/-- The check of a branch target: a fetch fault is raised at the branch, which executes again when the
fault is resolved; a target that is no header traps with BRX_TARGET (R62, R133). -/
def Cx.checkTarget (c : Cx) (va : Nat) : Except Trap Unit :=
  match c.m.isHeader c.blk.core c.blk.ctx va with
  | .error cause => .error { Trap.of cause with faddr := BitVec.ofNat 64 va, redo := true }
  | .ok true => .ok ()
  | .ok false => .error (.of brxTarget)

/-- A direct target is checked at the branch when it lies outside the branch's granule (R62). -/
def Cx.checkDirect (c : Cx) (va : Nat) : Except Trap Unit :=
  if va / 2 ^ 16 = c.ia / 2 ^ 16 then .ok () else c.checkTarget va

/-- The direct target of a branch word: its address plus 4 × its offset (03_encoding.md R48). -/
def Cx.direct (c : Cx) (off : Int) : Nat := (((c.ia : Int) + 4 * off) % (2 ^ 57 : Nat)).toNat

/-- The spill base of a warp (02_warp_state.md R22, 17_package.md R310). -/
def spillBase (la : Launch) (blk : Block) (w : Nat) : Nat := la.spb + 16 * la.spd * (blk.b * la.warps + w)

/-- Bytes of queued stores that a later write of the warp itself supersedes (06_isa_control.md R142). -/
def supersede (sp : Space) (keys : List Nat) (q : List QEntry) : List QEntry :=
  q.map (fun e =>
    match e.kind with
    | .store acc =>
      if e.space = sp then
        { e with kind := .store (acc.map (fun a =>
            let kd := (a.keys.zip a.data).filter (fun x => !keys.contains x.1)
            { a with keys := kd.map (·.1), data := kd.map (·.2) })) }
      else e
    | _ => e)

/-- The bytes of a spilled entry (R22). -/
def StackEntry.bytes (e : StackEntry) : List Byte := leBytes e.rpc.toNat 8 ++ leBytes e.mask.toNat 8

/-- A translation fault of a spill or a fill: a memory fault of the warp, whose instruction executes again (R22, R131). -/
def spillFault (c : Cx) (cause va : Nat) : Trap :=
  { Trap.of cause with faddr := BitVec.ofNat 64 va, redo := true, mach := some c.m }

/-- The places of a spilled entry; one beyond the address space fails with ADDRESS_RANGE (07_core_memory.md R149). -/
def Cx.spillKeys (c : Cx) (acc : Access) (va : Nat) : Except (Nat × Nat) (List Nat) :=
  if 2 ^ 57 < va + 16 then .error (addressRange, max va (2 ^ 57)) else c.m.coreKeys c.blk.core c.blk.ctx acc va 16

/-- Push (R21, R22): onto a full on-chip stack it first spills the oldest entry. A handler's stack is not spilled (18_traps.md
R342). -/
def Cx.push (c : Cx) (e : StackEntry) : Except Trap Cx :=
  if c.w.stack.length < 32 then .ok { c with w := { c.w with stack := e :: c.w.stack } }
  else if c.w.shadow.isSome then .error { Trap.of handlerNested with mach := some c.m }
  else
    let k := c.w.spilled.length
    if c.la.spd ≤ k then .error { Trap.of rstackOverflow with mach := some c.m }
    else
      let old := c.w.stack.getLastD e
      let va := spillBase c.la c.blk c.wid + 16 * k
      match c.spillKeys .write va with
      | .error (cause, a) => .error (spillFault c cause a)
      | .ok keys =>
        let c := { c with w := { c.w with
          stack := e :: c.w.stack.dropLast, spilled := old :: c.w.spilled, queue := supersede .g keys c.w.queue } }
        .ok (c.viaMach (fun m => (m.consumeWrite c.t c.blk.ctx keys (fun m =>
          m.storeThrough c.blk.part c.blk.core c.blk.ctx keys old.bytes)).reread c.t))

/-- Brings the most recently spilled entry back when the on-chip stack is empty. An entry that the part
did not write itself is cut to the lanes that have not exited (R22). -/
def Cx.fill (c : Cx) : Except Trap Cx :=
  match c.w.stack, c.w.spilled with
  | [], old :: rest =>
    let va := spillBase c.la c.blk c.wid + 16 * rest.length
    match c.spillKeys .read va with
    | .error (cause, a) => .error (spillFault c cause a)
    | .ok keys =>
      let bs := keys.map (fun k => (forwarded c.w.queue .g k).getD (c.m.loadByte c.blk.part c.blk.core c.blk.ctx k))
      let live := widthMask c.blk.width &&& ~~~c.w.exm
      let e : StackEntry :=
        if bs = old.bytes then old
        else { rpc := BitVec.ofNat 57 (leNat (bs.take 8)), mask := BitVec.ofNat 64 (leNat (bs.drop 8)) &&& live }
      .ok (({ c with w := { c.w with stack := [e], spilled := rest } }).viaMach (fun m =>
        (m.brought c.blk.ctx va 16 keys).consume c.t c.blk.ctx (m.sliceKeys c.blk c.w.queue .g keys)))
  | _, _ => .ok c

/-- The top of the stack, filled from the spill area where it must be. -/
def Cx.top (c : Cx) : Except Trap (Cx × Option StackEntry) :=
  match c.fill with
  | .error t => .error t
  | .ok c => .ok (c, c.w.stack.head?)

/-- Pop (R21). -/
def Cx.pop (c : Cx) : Except Trap (Cx × Option StackEntry) :=
  match c.top with
  | .error t => .error t
  | .ok (c, e) => .ok ({ c with w := { c.w with stack := c.w.stack.tail } }, e)

/-- The issuing slot and the other one. -/
def Cx.setS (c : Cx) (p : PcSlot) : Cx := { c with ctl := true, w := c.w.setSlot c.cl.slot p }
def Cx.setO (c : Cx) (p : PcSlot) : Cx := { c with w := c.w.setSlot (1 - c.cl.slot) p }
def Cx.other (c : Cx) : PcSlot := c.w.slot (1 - c.cl.slot)

/-- The whole slot goes to an address. -/
def Cx.goTo (c : Cx) (pc : Nat) : Cx := c.setS { c.slot with pc := BitVec.ofNat 57 pc }

/-- The warp ends (R138); it frees the s registers that it owns (11_async_armature.md R246). -/
def Cx.endWarp (c : Cx) : Cx :=
  { c with ctl := true, blk := c.blk.freeOwned c.t c.wid, w := { c.w with ended := true, s0 := .empty, s1 := .empty } }

/-- Next(H): the clause that directly follows the clause whose header lies at H (R130). Where H's granule is no longer mapped
executable, the cause is raised at the instruction, which executes again (as R133 has it of a target, DESIGN CHOICE, log entry 18). -/
def Cx.nextOf (c : Cx) (h : Nat) : Except Trap Nat :=
  if h = c.cl.head then .ok c.next
  else
    match c.m.scannedWord c.blk.core c.blk.ctx h with
    | .error cause => .error { Trap.of cause with faddr := BitVec.ofNat 64 h, redo := true }
    | .ok w => .ok (c.m.nextHeader c.blk.core c.blk.ctx h (w / 2 ^ 84 % 16))

/-- Unwind (R134): both slots are empty. -/
def Cx.unwind : Nat → Cx → Except Trap Cx
  | 0, c => .ok c.endWarp
  | n + 1, c =>
    match c.pop with
    | .error t => .error t
    | .ok (c, none) => .ok c.endWarp
    | .ok (c, some e) =>
      let l := e.mask &&& ~~~c.w.exm
      match c.top with
      | .error t => .error t
      | .ok (c, top) =>
        let parked := match top with
          | some q => if q.mask &&& e.mask = 0 then some q else none
          | none => none
        let c := if parked.isSome then { c with w := { c.w with stack := c.w.stack.tail } } else c
        let k : Mask := match parked with
          | some q => q.mask &&& ~~~c.w.exm
          | none => 0
        match (if l != 0 then c.nextOf e.rpc.toNat else .ok 0) with
        | .error t => .error t
        | .ok next =>
          let c := if l != 0 then { c with w := { c.w with s0 := { pc := BitVec.ofNat 57 next, mask := l } } } else c
          let c := match parked with
            | some q => if k != 0 then { c with w := { c.w with s1 := { pc := q.rpc, mask := k } } } else c
            | none => c
          if l != 0 || k != 0 then .ok { c with ctl := true } else c.unwind n

/-- Unwind when both slots are empty; the warp ends at once when every lane has exited (R134, R138). -/
def Cx.settleSlots (c : Cx) : Except Trap Cx :=
  if widthMask c.blk.width &&& ~~~c.w.exm = 0 then .ok c.endWarp
  else if c.w.s0.live || c.w.s1.live then .ok c
  else c.unwind (c.w.stack.length + c.w.spilled.length + 1)

/-- Parks the other slot, if it is live (R132, R135). -/
def Cx.park (c : Cx) : Except Trap Cx :=
  if c.other.live then (c.push { rpc := c.other.pc, mask := c.other.mask }).map (fun c => c.setO .empty) else .ok c

/-- After a divergence the next clause comes from the slot that holds Next (R141). -/
def Cx.nextFirst (c : Cx) : Cx := { c with w := { c.w with nextFirst := true } }

/-- BRA (R132). -/
def actBra (off rcv : Int) : Act := fun c =>
  let m := c.slot.mask
  let f := m &&& ~~~c.adm
  let target := c.direct off
  if c.adm = 0 then .ok (c.goTo c.next)
  else if f = 0 then
    match c.checkDirect target with
    | .error t => .error t
    | .ok _ => .ok (c.goTo target)
  else if rcv = 0 then .error (.of braDivergent)
  else
    let join := c.direct rcv
    match c.checkDirect target, c.checkDirect join with
    | .error t, _ => .error t
    | _, .error t => .error t
    | .ok _, .ok _ =>
      let next := c.next
      match c.park with
      | .error t => .error t
      | .ok c =>
        match c.push { rpc := BitVec.ofNat 57 join, mask := m } with
        | .error t => .error t
        | .ok c => .ok ((c.setS { pc := BitVec.ofNat 57 target, mask := c.adm }).setO { pc := BitVec.ofNat 57 next, mask := f }).nextFirst

/-- BRX: the whole slot goes to the target read in the lowest admitted lane (R133). -/
def actBrx : Act := fun c =>
  if c.adm = 0 then .ok (c.goTo c.next)
  else
    let target := (c.rd64 c.f.a c.lane).toNat % 2 ^ 57
    match c.checkTarget target with
    | .error t => .error t
    | .ok _ => .ok (c.goTo target)

/-- RCV, whatever its guard (R134); one that an SBR skips changes no PC slot (11_async_armature.md R249). -/
def actRcv : Act := fun c =>
  if c.skipped then .ok (c.goTo c.next)
  else
    match c.top with
    | .error t => .error t
    | .ok (c, top) =>
      let arrives := match top with
        | some e => e.rpc.toNat = c.cl.head && (c.slot.mask &&& ~~~e.mask) = 0
        | none => false
      if arrives then (c.setS .empty).settleSlots else .ok (c.goTo c.next)

/-- CALL (R135); an overflow's frame resumes at the target, which the call's effect defines (18_traps.md R340). -/
def actCall (off : Int) : Act := fun c =>
  if c.adm = 0 then .ok (c.goTo c.next)
  else
    let target := c.direct off
    let at_ (r : Except Trap Cx) : Except Trap Cx :=
      match r with
      | .error t => .error (if t.cause = rstackOverflow then { t with next := some target } else t)
      | .ok c => .ok c
    match c.checkDirect target with
    | .error t => .error t
    | .ok _ =>
      match at_ c.park with
      | .error t => .error t
      | .ok d => at_ ((d.push { rpc := BitVec.ofNat 57 c.next, mask := c.slot.mask }).map (fun d => d.goTo target))

/-- EXIT of the lanes T (R136). -/
def Cx.exitLanes (c : Cx) (t : Mask) : Except Trap Cx :=
  let s := c.slot
  let rest := s.mask &&& ~~~t
  let c := { c with w := { c.w with exm := c.w.exm ||| t } }
  let c := if rest = 0 then c.setS .empty else c.setS { pc := BitVec.ofNat 57 c.next, mask := rest }
  c.settleSlots

def actExit : Act := fun c => c.exitLanes c.adm

/-- RET (R135). -/
def actRet : Act := fun c =>
  if c.adm = 0 then .ok (c.goTo c.next)
  else
    let m := c.slot.mask
    match c.pop with
    | .error t => .error t
    | .ok (c, none) => c.exitLanes m
    | .ok (c, some e) =>
      let keep := m &&& ~~~c.w.exm
      let c := c.setS (if keep = 0 then .empty else { pc := e.rpc, mask := keep })
      match c.top with
      | .error t => .error t
      | .ok (c, top) =>
        let c := match top with
          | some q =>
            if !c.other.live && (q.mask &&& e.mask) = 0 then
              let k := q.mask &&& ~~~c.w.exm
              ({ c with w := { c.w with stack := c.w.stack.tail } }).setO (if k = 0 then .empty else { pc := q.rpc, mask := k })
            else c
          | none => c
        c.settleSlots

/-- LOOP (R137). -/
def actLoop (off : Int) : Act := fun c =>
  if c.adm = 0 || c.rd32 c.f.a c.lane = 0 then .ok (c.goTo c.next)
  else
    let target := c.direct off
    match c.checkDirect target with
    | .error t => .error t
    | .ok _ => .ok (c.goTo target)

/-- BKPT and TRAP: a precise trap that carries X, when a lane is admitted (R139, 18_traps.md R345). -/
def actTrap (cause : Nat) (x : Word) : Act := fun c =>
  if c.adm = 0 then .ok c else .error { Trap.of cause with xcode := x }

/-- BRA (R132): Branches a PC slot, diverging with a join entry when the guard is not uniform. -/
def execBra (w : TForm) (s : State) : Host.Outcome State Fault Refusal := issue (.bra w) (actBra (sx 36 w.target.toNat) (sx 32 w.x.toNat)) s

/-- BRX (R133): Branches the whole slot to a register target. -/
def execBrx (w : CForm) (s : State) : Host.Outcome State Fault Refusal := issue (.brx w) actBrx s

/-- RCV (R134): Marks a reconvergence point and unwinds the stack when both slots arrive. -/
def execRcv (w : ZForm) (s : State) : Host.Outcome State Fault Refusal := issue (.rcv w) actRcv s

/-- CALL (R135): Pushes the return point and jumps to the target. -/
def execCall (w : TForm) (s : State) : Host.Outcome State Fault Refusal := issue (.call w) (actCall (sx 36 w.target.toNat)) s

/-- RET (R135): Pops the return point, or exits on an empty stack. -/
def execRet (w : ZForm) (s : State) : Host.Outcome State Fault Refusal := issue (.ret w) actRet s

/-- EXIT (R136): Removes admitted lanes into the exit mask, ending the warp when all have exited. -/
def execExit (w : ZForm) (s : State) : Host.Outcome State Fault Refusal := issue (.exit w) actExit s

/-- LOOP (R137): Branches the whole slot when a value is nonzero. -/
def execLoop (w : IForm) (s : State) : Host.Outcome State Fault Refusal := issue (.loop w) (actLoop (sx 32 w.imm.toNat)) s

/-- BKPT (R139): Traps precisely with BREAKPOINT. -/
def execBkpt (w : IForm) (s : State) : Host.Outcome State Fault Refusal := issue (.bkpt w) (actTrap 0x0A w.imm) s

end Sys2Proof.Machine
end

