-- ==== Sys2Proof/Machine/FieldUnit.lean ====
section
/-!
DEFINITION. The field unit (08_field_unit.md R174 to R195): descriptors, coordinates, entries and weights;
loads as they execute in the unit, and splats and bulk operations one pair at a time.
-/
namespace Sys2Proof.Machine
open Sys2Proof Sys2Proof.Num

def fieldDesc : Nat := 0x41
def fieldUnbound : Nat := 0x42
def fieldShape : Nat := 0x43

/-! ### Descriptors (R174 to R176) -/

def FieldDesc.w (d : FieldDesc) (k : Nat) : Word := List.getD d k 0
def FieldDesc.kind (d : FieldDesc) : Nat := bitsAt (d.w 0) 0 4
def FieldDesc.dims (d : FieldDesc) : Nat := bitsAt (d.w 0) 4 4
def FieldDesc.order (d : FieldDesc) : Nat := bitsAt (d.w 0) 8 4
def FieldDesc.fmt (d : FieldDesc) : Nat := bitsAt (d.w 0) 12 4
def FieldDesc.chans (d : FieldDesc) : Nat := bitsAt (d.w 0) 16 2 + 1
def FieldDesc.edge (d : FieldDesc) (a : Nat) : Nat := bitsAt (d.w 0) (20 + 2 * a) 2
def FieldDesc.nfs (d : FieldDesc) : Nat := bitsAt (d.w 0) 28 4
def FieldDesc.k (d : FieldDesc) : Int := sx 8 (bitsAt (d.w 1) 0 8)
def FieldDesc.logl (d : FieldDesc) : Nat := bitsAt (d.w 1) 8 5
def FieldDesc.base (d : FieldDesc) : Nat := (d.w 2).toNat + 2 ^ 32 * (d.w 3).toNat
def FieldDesc.size (d : FieldDesc) (a : Nat) : Nat := (d.w (4 + a)).toNat
def FieldDesc.stride (d : FieldDesc) (a : Nat) : Int := (d.w (8 + a)).toInt
def FieldDesc.scale (d : FieldDesc) (a : Nat) : Val := decodeF f32 (d.w (12 + a)).toNat
def FieldDesc.offs (d : FieldDesc) (a : Nat) : Val := decodeF f32 (d.w (16 + a)).toNat
/-- The size of a channel element (R175). -/
def FieldDesc.esize (d : FieldDesc) : Nat :=
  match d.fmt with
  | 0 => 4
  | 3 => 8
  | 4 => 1
  | _ => 2
/-- The product of the axes' sizes. -/
def FieldDesc.count (d : FieldDesc) : Nat := (List.range d.dims).foldl (fun n a => n * d.size a) 1
/-- N, the entries of a field (R190). -/
def FieldDesc.entries (d : FieldDesc) : Nat := if d.kind = 1 then 2 ^ d.logl else d.count
def FieldDesc.space (d : FieldDesc) : Space := if d.kind = 2 then .s else .g

/-- The validation of FBIND (R176), for a block of SCR bytes of scratchpad. -/
def FieldDesc.ok (d : FieldDesc) (scr : Nat) : Bool :=
  let s := d.esize
  let fin (v : Val) : Bool := !v.isNan && !v.isInf
  let axis (a : Nat) : Bool :=
    if a < d.dims then
      1 ≤ d.size a && d.size a ≤ 2 ^ 30 && fin (d.scale a) && fin (d.offs a) && d.stride a % (s : Int) = 0
    else d.edge a = 0 && d.w (4 + a) = 0 && d.w (8 + a) = 0 && d.w (12 + a) = 0 && d.w (16 + a) = 0
  let noStride (l : List Nat) : Bool := l.all (fun a => d.stride a = 0)
  d.kind ≤ 2 && 1 ≤ d.dims && d.dims ≤ 4 && d.order ≤ 3 && d.fmt ≤ 4 && d.nfs ≤ 7
    && bitsAt (d.w 0) 18 2 = 0 && bitsAt (d.w 1) 13 19 = 0 && [20, 21, 22, 23].all (fun k => d.w k = 0)
    && (List.range 4).all axis && (d.fmt = 3 || bitsAt (d.w 1) 0 8 = 0) && (d.kind = 1 || d.logl = 0)
    && (match d.kind with
      | 1 => 1 ≤ d.logl && d.logl ≤ 24 && ((s * d.chans : Nat) : Int) ≤ d.stride 0 && noStride [1, 2, 3]
      | 2 => noStride [0, 1, 2, 3] && d.w 3 = 0 && d.base + s * d.chans * d.count ≤ scr
      | _ => true)
    && (d.kind = 2 || (d.base % s = 0 && d.base < 2 ^ 57))

/-! ### From coordinate to entries (R178 to R181) -/

/-- Rounding to nearest even into binary32, outside MODE. -/
def rnK (cnan gr : Bool) : Rnd := { rm := .rn, gr := gr, ftz := false, cnan := cnan, rand := 0, grand := none }

/-- i and t of one axis; none for a NaN (R178). -/
def fieldCoord (x : Nat) (scale offs : Val) : Option (Int × Nat) :=
  let v := decodeF f32 x
  if v.isNan || mulInvalid v scale then none
  else
    let g := decodeF f32 (resultF f32 (rnK false false) [] (sum .rn [mul v scale, offs])).1
    match g with
    | .nan .. => none
    | .inf neg => some (if neg then -(2 ^ 30 : Nat) else (2 ^ 30 : Nat), 0)
    | .fin neg m e =>
      if Num.cmp (.fin false m e) (.fin false 1 30) != .lt then some (if neg then -(2 ^ 30 : Nat) else (2 ^ 30 : Nat), 0)
      else
        let n : Int := scaled (min e 0) g
        let s := (-(min e 0)).toNat
        let i := n / (2 ^ s : Nat)
        let r := (n % (2 ^ s : Nat)).toNat
        let t := (roundAt .rn false r (16 - (s : Int)) 0 0 32).1
        some (if t = 65536 then (i + 1, 0) else (i, t))

/-- RN_f32 of n / d × 2^e. -/
def rnQuot (n : Int) (d : Nat) (e : Int) : Val :=
  let q := 2 ^ 96 * n.natAbs / d
  let sticky := if 2 ^ 96 * n.natAbs % d = 0 then 0 else 1
  if n = 0 then .zero false
  else decodeF f32 (roundF f32 (rnK false false) (decide (n < 0)) (2 * q + sticky) (e - 97)).1

/-- The per-axis weights and derivative weights at u = t / 2^16 (R181). -/
def axisWeights (order t : Nat) : List Val × List Val :=
  let u : Int := t
  let o : Int := 65536
  let v : Int := o - u
  match order with
  | 0 => ([.one], [.zero false])
  | 1 => ([rnQuot v 1 (-16), rnQuot u 1 (-16)], [.fin true 1 0, .one])
  | 2 => ([rnQuot (v * v) 2 (-32), rnQuot (-2 * u * u + 2 * u * o + o * o) 2 (-32), rnQuot (u * u) 2 (-32)],
          [rnQuot (-v) 1 (-16), rnQuot (o - 2 * u) 1 (-16), rnQuot u 1 (-16)])
  | _ => ([rnQuot (v * v * v) 6 (-48), rnQuot (3 * u * u * u - 6 * u * u * o + 4 * o * o * o) 6 (-48),
           rnQuot (-3 * u * u * u + 3 * u * u * o + 3 * u * o * o + o * o * o) 6 (-48), rnQuot (u * u * u) 6 (-48)],
          [rnQuot (-(v * v)) 2 (-32), rnQuot (3 * u * u - 4 * u * o) 2 (-32),
           rnQuot (-3 * u * u + 2 * u * o + o * o) 2 (-32), rnQuot (u * u) 2 (-32)])

/-- The edge rule (R179); none where the entry is skipped. -/
def edgeIndex (rule : Nat) (j : Int) (n : Nat) : Option Nat :=
  match rule with
  | 0 => some (clampInt j 0 ((n : Int) - 1)).toNat
  | 1 => some (j % n).toNat
  | 2 =>
    let m := (j % (2 * n : Nat)).toNat
    some (if m < n then m else 2 * n - 1 - m)
  | _ => if 0 ≤ j && j < n then some j.toNat else none

/-- The byte offset of an entry from BASE (R175). -/
def FieldDesc.offset (d : FieldDesc) (js : List Nat) : Int :=
  match d.kind with
  | 0 => (List.range js.length).foldl (fun s a => s + (js.getD a 0 : Int) * d.stride a) 0
  | 1 => ((mixH32 js % 2 ^ d.logl : Nat) : Int) * d.stride 0
  | _ =>
    let flat := (List.range js.length).foldr (fun a n => n * d.size a + js.getD a 0) 0
    ((d.esize * d.chans * flat : Nat) : Int)

/-- An entry's address, in 64 bits. -/
def FieldDesc.addr (d : FieldDesc) (off : Int) : Nat := (((d.base : Int) + off) % (2 ^ 64 : Nat)).toNat

/-- An entry of a lane: its byte offset unless it is skipped, W and the G of each axis (R180, R181). -/
structure FEntry where
  off : Option Int
  w   : Val
  g   : List Val
  deriving DecidableEq, Repr

/-- RN_f32 of an exact product of rounded weights (R181). -/
def weightProduct (ws : List Val) : Val :=
  decodeF f32 (resultF f32 (rnK false false) [] (ws.foldl mul .one)).1

/-- The number of entries of a lane (R180). -/
def FieldDesc.perLane (d : FieldDesc) : Nat := (d.order + 1) ^ d.dims

/-- Entry `e` of the lane at the given coordinates (R180). -/
def FieldDesc.entry (d : FieldDesc) (xs : List (Int × Nat)) (e : Nat) : FEntry :=
  let p := d.order + 1
  let ax (a : Nat) : Int × Nat := xs.getD a (0, 0)
  let digit (a : Nat) : Nat := e / p ^ a % p
  let cand (a : Nat) : Int :=
    if d.order = 0 then (ax a).1 + (if 32768 ≤ (ax a).2 then 1 else 0)
    else (ax a).1 + (digit a : Int) - (if 2 ≤ d.order then 1 else 0)
  let axes := List.range d.dims
  let js := axes.map (fun a => edgeIndex (d.edge a) (cand a) (d.size a))
  let ws := axes.map (fun a => (axisWeights d.order (ax a).2).1.getD (digit a) (.zero false))
  let ds := axes.map (fun a => (axisWeights d.order (ax a).2).2.getD (digit a) (.zero false))
  { off := if js.all Option.isSome then some (d.offset (js.map (fun j => j.getD 0))) else none
    w := weightProduct ws
    g := axes.map (fun b => weightProduct ((ds.getD b .one) :: (axes.filter (fun a => a != b)).map (fun a => ws.getD a .one))) }

/-- The coordinates of a lane, none where one is NaN (R178). -/
def FieldDesc.coords (d : FieldDesc) (x : FMap 32) (l : Nat) : Option (List (Int × Nat)) :=
  let cs := (List.range d.dims).map (fun a => fieldCoord (x.get (resKey a l)).toNat (d.scale a) (d.offs a))
  if cs.all Option.isSome then some (cs.map (fun c => c.getD (0, 0))) else none

/-! ### Elements and sums (R182 to R185) -/

/-- The format of a float field (R174). -/
def FieldDesc.ffmt (d : FieldDesc) : Fmt :=
  match d.fmt with
  | 1 => f16
  | 2 => bf16
  | _ => f32

/-- An element's exact value (R182). -/
def FieldDesc.elem (d : FieldDesc) (nf : NFmt) (raw : Nat) : Val :=
  match d.fmt with
  | 3 => gridVal (BitVec.ofNat 64 raw) d.k
  | 4 => decodeNF nf raw
  | _ => decodeF d.ffmt raw

/-- An exact sum of products, rounded once; NaN operands by R71, in order (R182). -/
def sumTerms (f : Fmt) (k : Rnd) (prods : List (List Val)) : Nat × Exc :=
  let ops := prods.foldr (fun p l => p ++ l) []
  let ps := prods.filter (fun p => !p.any Val.isNan)
  let bad (p : List Val) : Bool := p.any Val.isInf && p.any Val.isZero
  let ts := (ps.filter (fun p => !bad p)).map (fun p => p.foldl mul .one)
  arith f k ops (ps.any bad || sumInvalid ts) (sum k.rm ts)

/-- The exact value of a sum of products for a format with no NaN of its own, and the exceptions. -/
def exactTerms (prods : List (List Val)) : Val × Exc :=
  let ops := prods.foldr (fun p l => p ++ l) []
  let ps := prods.filter (fun p => !p.any Val.isNan)
  let bad (p : List Val) : Bool := p.any Val.isInf && p.any Val.isZero
  let ts := (ps.filter (fun p => !bad p)).map (fun p => p.foldl mul .one)
  let iv := ps.any bad || sumInvalid ts
  let x := snanExc ops ||| (if iv then nv else 0#5)
  if ops.any Val.isNan || iv then (.cnan, x) else (sum .rn ts, x)

/-- The new element after adding the exact term (R184, R185). The old element is the first NaN operand, then the term's
own in ascending axis order (DESIGN CHOICE, log entry 75). -/
def FieldDesc.added (d : FieldDesc) (nf : NFmt) (mode : Word) (gr : Bool) (raw : Nat) (term : List (List Val)) : Nat × Exc :=
  match d.fmt with
  | 3 =>
    let (v, x) := exactTerms term
    let (q, y) := ontoGrid v d.k
    ((raw + q.toNat) % 2 ^ 64, x ||| y)
  | 4 =>
    let (v, x) := exactTerms ([decodeNF nf raw] :: term)
    let (c, y) := encodeNF nf (modeNsat mode) .rn 0 v
    (c, x ||| y)
  | _ => sumTerms d.ffmt (rnK (modeCnan mode) gr) ([decodeF d.ffmt raw] :: term)

/-! ### Loads (R182, R183, R188, R189) -/

/-- The narrow format that a descriptor names (R174). -/
def FieldDesc.nf (d : FieldDesc) (la : Launch) : NFmt := nfOf (la.nf.getD d.nfs 0)

/-- The descriptor that an instruction takes from its slot, or its fault (R187). -/
def fieldTake (blk : Block) (o : Op) (f : Fields) (chans : Bool) : Except FaultInfo FieldDesc :=
  match blk.fslots.find (bitsAt f.mod 0 4) with
  | none => .error (o.info fieldUnbound 0)
  | some d =>
    if d.dims != bitsAt f.mod 8 2 + 1 || (chans && d.chans != bitsAt f.mod 10 2 + 1) then .error (o.info fieldShape 0)
    else .ok d

/-- FBIND at its unit (R177, R188): a load at .b of 96 bytes, then the slot. -/
def fbindRun (m : Mach) (t b : Nat) (blk : Block) (la : Launch) (o : Op) (f : Fields) (a : FMap 32) : Mach × Ran :=
  let l := (lowestBit o.mask).getD 0
  let sp : Space := if f.mod.getLsbD 5 then .c else .g
  let addr := if sp = .c then cap32 a l else cap64 a l
  if addr % 16 != 0 then (m, .fault (o.info fieldDesc addr))
  else
    let (m, r) := m.checkLanes blk la sp false .read 96 o.ia o.slot [(l, addr)]
    match r with
    | .error e => (m, .fault { e with fmask := o.mask })
    | .ok ks =>
      let keys := ks.foldr (fun e l => e.2 ++ l) []
      let read := m.sliceKeys blk [] sp keys
      if m.anyBad read then (m.consume t blk.ctx read, .killed)
      else
        let (m, bs) := m.loadLanes blk la [] t sp ks
        let bytes := bs.foldr (fun e l => e.2 ++ l) []
        let d : FieldDesc := (List.range 24).map (fun k => BitVec.ofNat 32 (leNat ((bytes.drop (4 * k)).take 4)))
        if d.ok la.scr then
          (m.setBlock b { (m.block b).getD blk with fslots := ((m.block b).getD blk).fslots.put (bitsAt f.mod 0 4) d }, Ran.nothing 0)
        else (m, .fault (o.info fieldDesc addr))

/-- Whether a load reads an entry (R182, R183). -/
def FEntry.readBy (e : FEntry) (grad : Bool) : Bool :=
  e.off.isSome && (!e.w.isZero || (grad && e.g.any (fun g => !g.isZero)))

/-- FLD and FLDG at their unit (R182, R183). An entry of zero weight is no term of the sum, so that −0 can stand beside it
(DESIGN CHOICE, log entry 75). -/
def fldRun (m : Mach) (t : Nat) (blk : Block) (la : Launch) (o : Op) (f : Fields) (grad : Bool) (x : FMap 32) : Mach × Ran :=
  match fieldTake blk o f true with
  | .error e => (m, .fault e)
  | .ok d =>
    let sz := d.esize * d.chans
    let lanes := lanesOf o.mask 64
    let es := lanes.map (fun l =>
      (l, match d.coords x l with
        | some xs => some (((List.range d.perLane).map (d.entry xs)).filter (fun e => e.readBy grad))
        | none => none))
    let addrs := es.foldr (fun p acc => (p.2.getD []).map (fun e => (p.1, d.addr (e.off.getD 0))) ++ acc) []
    let (m, r) := m.checkLanes blk la d.space false .read sz o.ia o.slot addrs
    match r with
    | .error e => (m, .fault e)
    | .ok ks =>
      let keys := ks.foldr (fun e l => e.2 ++ l) []
      let read := m.sliceKeys blk [] d.space keys
      if m.anyBad read then (m.consume t blk.ctx read, .killed)
      else
        let (m, bs) := m.loadLanes blk la [] t d.space ks
        let nf := d.nf la
        let k := rnK (modeCnan la.mode) false
        let el (bytes : List Byte) (c : Nat) : Val := d.elem nf (leNat ((bytes.drop (c * d.esize)).take d.esize))
        let lane (l : Nat) (ent : List FEntry) : List (Nat × Exc) :=
          let mine := ent.zip ((bs.filter (fun e => e.1 = l)).map (·.2))
          let value (c : Nat) : Nat × Exc :=
            sumTerms f32 k ((mine.filter (fun p => !p.1.w.isZero)).map (fun p => [p.1.w, el p.2 c]))
          let slope (c b : Nat) : Nat × Exc :=
            let g (p : FEntry × List Byte) : Val := p.1.g.getD b (.zero false)
            sumTerms f32 k ((mine.filter (fun p => !(g p).isZero)).map (fun p => [d.scale b, g p, el p.2 c]))
          let cs := List.range d.chans
          cs.map value ++ (if grad then cs.foldr (fun c acc => (List.range d.dims).map (slope c) ++ acc) [] else [])
        let res := es.map (fun p =>
          (p.1, match p.2 with
            | some ent => lane p.1 ent
            | none => [(0, nv)]))
        let n := if grad then d.chans * (d.dims + 1) else d.chans
        let vals : FMap 32 := res.foldl (fun (v : FMap 32) p => (List.range n).foldl (fun (v : FMap 32) q =>
          v.set (resKey q p.1) (BitVec.ofNat 32 ((p.2.getD q (0, 0#5)).1))) v) ([] : FMap 32)
        let flags := orExc (res.foldr (fun p acc => p.2.map (·.2) ++ acc) [])
        (m, .done { dest := some f.d, n := n, wt := f.hint.wt, mask := o.mask, vals := vals, preds := [], flags := flags })

/-- FWT at its unit (R189). -/
def fwtRun (blk : Block) (o : Op) (f : Fields) (x e : FMap 32) : Ran :=
  match fieldTake blk o f false with
  | .error e => .fault e
  | .ok d =>
    let lane (l : Nat) : List Nat × Exc :=
      let n := cap32 e l
      let big := if d.perLane ≤ n then 4 else 0
      match d.coords x l with
      | none => ([0, 0, 0, 2 + big], nv)
      | some xs =>
        if big != 0 then ([0, 0, 0, big], 0#5)
        else
          let en := d.entry xs n
          match en.off with
          | none => ([0, 0, 0, 1], 0#5)
          | some off =>
            let u := (off % (2 ^ 64 : Nat)).toNat
            ([u % 2 ^ 32, u / 2 ^ 32, (resultF f32 (rnK false false) [] en.w).1, 0], 0#5)
    .done (o.result f 4 (fun l q => BitVec.ofNat 32 ((lane l).1.getD q 0)) (orExc ((lanesOf o.mask 64).map (fun l => (lane l).2))))

/-- A load of the field unit executes, once the warp's earlier stores and atomics have performed (R192). -/
def fieldRun (m : Mach) (t b : Nat) (blk : Block) (o : Op) (i : Instr) (a x : FMap 32) : Mach × Ran :=
  let la := m.launchOf blk
  match i.fields with
  | none => (m, .killed)
  | some f =>
    match i with
    | .fbind _ => fbindRun m t b blk la o f a
    | .fld _ => fldRun m t blk la o f false a
    | .fldg _ => fldRun m t blk la o f true a
    | _ => (m, fwtRun blk o f a x)

/-! ### Splats, drains and clears, pair by pair (R184 to R186, R190) -/

/-- One element's indivisible update at its home slice or in the block's scratchpad (R186). -/
def Mach.updateAt (m : Mach) (t b : Nat) (sp : Space) (keys : List Nat) (data : List Byte) : Mach :=
  match m.block b with
  | none => m
  | some blk =>
    match sp with
    | .g => m.consumeWrite t blk.ctx keys (fun m => (m.write blk.ctx keys data).l1Drop blk.part blk.core blk.ctx keys)
    | _ => m.setBlock b ((keys.zip data).foldl (fun blk e => blk.writeByte t .s e.1 e.2) blk)

/-- The bytes at places, as an update reads them. -/
def Mach.placeBytes (m : Mach) (blk : Block) (sp : Space) (keys : List Nat) : List Byte :=
  match sp with
  | .g => m.bytes keys
  | _ => keys.map (fun k => blk.scratch.get k)

/-- The places of one channel of an entry. -/
def chanKeys (d : FieldDesc) (keys : List Nat) (c : Nat) : List Nat := (keys.drop (c * d.esize)).take d.esize

/-- The terms that FST and FSTG add to channel `c` of an entry (R184, R185). An axis whose G is zero brings no term, whatever
its gradient operand holds (DESIGN CHOICE, log entry 75). -/
def splatTerm (d : FieldDesc) (i : Instr) (en : FEntry) (v : FMap 32) (l c : Nat) : List (List Val) :=
  let val (r : Nat) : Val := decodeF f32 (v.get (resKey r l)).toNat
  match i with
  | .fstg _ =>
    ((List.range d.dims).filter (fun b => !(en.g.getD b (.zero false)).isZero)).map (fun b =>
      [d.scale b, en.g.getD b (.zero false), val (c * d.dims + b)])
  | _ => [[en.w, val c]]

/-- Whether a splat changes an entry (R184, R185). -/
def splatActs (i : Instr) (en : FEntry) : Bool :=
  match i with
  | .fstg _ => en.g.any (fun g => !g.isZero)
  | _ => !en.w.isZero

/-- What one pair does: the machine and the exceptions, or the fault that stops the instruction there. -/
abbrev PairRan := Mach × Except FaultInfo Exc

/-- One (lane, entry) pair of FST or FSTG. -/
def splatPair (m : Mach) (t b : Nat) (blk : Block) (la : Launch) (o : Op) (i : Instr) (f : Fields) (d : FieldDesc)
    (x v : FMap 32) (pair : Nat) : PairRan :=
  let l := (lanesOf o.mask 64).getD (pair / d.perLane) 0
  match d.coords x l with
  | none => (m, .ok nv)
  | some xs =>
    let en := d.entry xs (pair % d.perLane)
    match en.off with
    | none => (m, .ok 0)
    | some off =>
      if !splatActs i en then (m, .ok 0)
      else
        let (m, r) := m.checkLanes blk la d.space false .write (d.esize * d.chans) o.ia o.slot [(l, d.addr off)]
        match r with
        | .error e => (m, .error e)
        | .ok ks =>
          let keys := ks.foldr (fun e l => e.2 ++ l) []
          let step (p : Mach × Exc) (c : Nat) : Mach × Exc :=
            let ck := chanKeys d keys c
            let raw := leNat (p.1.placeBytes ((p.1.block b).getD blk) d.space ck)
            let (y, e) := d.added (d.nf la) la.mode (f.mod.getLsbD 4) raw (splatTerm d i en v l c)
            (p.1.updateAt t b d.space ck (leBytes y d.esize), p.2 ||| e)
          let (m, e) := (List.range d.chans).foldl step (m, 0#5)
          (m, .ok e)

/-- The byte offset of flat entry `e` (R190). -/
def FieldDesc.flat (d : FieldDesc) (e : Nat) : Int :=
  if d.kind = 1 then ((e : Nat) : Int) * d.stride 0
  else
    let js := (List.range d.dims).map (fun a => e / ((List.range a).foldl (fun n b => n * d.size b) 1) % d.size a)
    d.offset js

/-- The rounding of FDRN: to nearest even, and MODE.FTZ flushes a subnormal result (R190, 04_numbers.md R74). -/
def drainRnd (mode : Word) : Rnd := { rnK (modeCnan mode) false with ftz := modeFtz mode }

/-- One pair (0, e) of FCLR or FDRN (R190). Where both entries of FDRN fault, the destination's fault is reported
(DESIGN CHOICE, log entry 75). -/
def bulkPair (m : Mach) (t b : Nat) (blk : Block) (la : Launch) (o : Op) (i : Instr) (f : Fields) (d s : FieldDesc)
    (e : Nat) : PairRan :=
  let whole (x : FaultInfo) : FaultInfo := { x with fmask := o.mask }
  let (m, r) := m.checkLanes blk la d.space false .write (d.esize * d.chans) o.ia o.slot [(0, d.addr (d.flat e))]
  match r with
  | .error x => (m, .error (whole x))
  | .ok ks =>
    let keys := ks.foldr (fun e l => e.2 ++ l) []
    match i with
    | .fdrn _ =>
      let clr := f.mod.getLsbD 16
      let (m, r) := m.checkLanes blk la s.space false (if clr then .write else .read) (8 * s.chans) o.ia o.slot [(0, s.addr (s.flat e))]
      match r with
      | .error x => (m, .error (whole x))
      | .ok ss =>
        let src := ss.foldr (fun e l => e.2 ++ l) []
        if s.space = .g && m.anyBad src then (m.consume t blk.ctx src, .ok 0)
        else
          let step (p : Mach × Exc) (c : Nat) : Mach × Exc :=
            let sk := chanKeys s src c
            let q := leNat (p.1.placeBytes ((p.1.block b).getD blk) s.space sk)
            let (y, x) := drainF d.ffmt (drainRnd la.mode) (BitVec.ofNat 64 q) s.k
            let m := p.1.updateAt t b d.space (chanKeys d keys c) (leBytes y d.esize)
            (if clr then m.updateAt t b s.space sk (leBytes 0 8) else m, p.2 ||| x)
          let m := if s.space = .g then m.claim blk.ctx src else m
          let (m, x) := (List.range d.chans).foldl step (m, 0#5)
          (m, .ok x)
    | _ => (m.updateAt t b d.space keys (leBytes 0 (d.esize * d.chans)), .ok 0)

/-- The pairing that FDRN asks for (R190). -/
def drainOk (d s : FieldDesc) : Bool :=
  s.fmt = 3 && d.fmt ≤ 2 && s.kind = d.kind && s.dims = d.dims && s.logl = d.logl && s.chans = d.chans
    && (List.range 4).all (fun a => s.size a = d.size a)

/-- The descriptors that a PIX-capable instruction takes at its start, or its fault (R177, R187, R190). -/
def splatTake (blk : Block) (o : Op) (i : Instr) (f : Fields) : Except FaultInfo (FieldDesc × FieldDesc) :=
  let slot (k : Nat) : Except FaultInfo FieldDesc :=
    match blk.fslots.find k with
    | none => .error (o.info fieldUnbound 0)
    | some d => .ok d
  match i with
  | .fdrn _ =>
    match slot (bitsAt f.mod 0 4), slot (bitsAt f.mod 12 4) with
    | .ok d, .ok s => if drainOk d s then .ok (d, s) else .error (o.info fieldShape 0)
    | .error e, _ => .error e
    | _, .error e => .error e
  | .fclr _ => (slot (bitsAt f.mod 0 4)).map (fun d => (d, d))
  | _ => (fieldTake blk o f true).map (fun d => (d, d))

/-- The number of pairs of a PIX-capable instruction. -/
def splatPairs (i : Instr) (o : Op) (d : FieldDesc) : Nat :=
  match i with
  | .fdrn _ => d.entries
  | .fclr _ => d.entries
  | _ => d.perLane * (lanesOf o.mask 64).length

/-- The instruction stops with a fault and never completes, so that the later ones wait in the unit (R194,
02_warp_state.md R24, R27), until FLGCLR or a resumption takes it out (DEDUCED, log entry 24). -/
def Warp.splatFails (w : Warp) (op : Nat) (f : FaultInfo) : Warp := w.failOp op f

/-- The last pair has been applied (R190, R191): the flag completes, or the operation is complete for its batch. -/
def Warp.splatDone (w : Warp) (op : Nat) : Warp :=
  { w with
    fieldQ := w.fieldQ.filter (fun k => k != op)
    ops := w.ops.upd op (fun o => { o with batchDone := true }) }

/-- FIELD_PAIR: the unit applies the next pair of the warp's oldest PIX-capable instruction, starting it if
it has not started (R186, R191, R192). One that faults as it starts leaves PIX alone: R194 lets a fault before the first
pair change nothing, R27 makes PIX zero at a start (DESIGN CHOICE, log entry 75). -/
def Mach.fieldPair (m : Mach) (t b w : Nat) : Option Mach :=
  match m.warp b w with
  | none => none
  | some (blk, x) =>
    match x.fieldQ with
    | [] => none
    | op :: _ =>
      match x.ops.find op with
      | none => none
      | some o =>
        match o.payload with
        | .splat i a v dsc src started flags =>
          match i.fields with
          | none => none
          | some f =>
            let la := m.launchOf blk
            if o.fault.isSome || x.stop.isSome || blk.out || !m.alive blk || !x.drained o.seq || x.held Op.holdsStores o.seq then none
            else
              let take : Except FaultInfo (FieldDesc × FieldDesc) := if started then .ok (dsc, src) else splatTake blk o i f
              match take with
              | .error e => some (m.setWarp b w (x.splatFails op e))
              | .ok (d, s) =>
                let pix := if started then x.pix.toNat else 0
                let x := ({ x with pix := BitVec.ofNat 32 pix }).setPayload op (.splat i a v d s true flags)
                let m := m.setWarp b w x
                let (m, r) := match i with
                  | .fdrn _ => bulkPair m t b blk la o i f d s pix
                  | .fclr _ => bulkPair m t b blk la o i f d s pix
                  | _ => splatPair m t b blk la o i f d a v pix
                match m.warp b w with
                | none => some m
                | some (_, x) =>
                  match r with
                  | .error e => some (m.setWarp b w (x.splatFails op e))
                  | .ok e =>
                    let x := { x with pix := BitVec.ofNat 32 (pix + 1) }
                    let x := x.setPayload op (.splat i a v d s true (flags ||| e))
                    let x := if splatPairs i o d ≤ pix + 1 then
                        (x.setPayload op (.sourcesRead [] (flags ||| e))).splatDone op
                      else x
                    some (m.setWarp b w x)
        | _ => none

/-! ### Issue -/

/-- FBIND, FLD, FLDG and FWT: they take their source registers and enter the unit (R191). -/
def actField (a b : Cx → FMap 32) : Act := fun c => .ok (c.start none (.field c.i (a c) (b c)))

def fieldAxes (f : Fields) : Nat := bitsAt f.mod 8 2 + 1
def fieldChans (f : Fields) : Nat := bitsAt f.mod 10 2 + 1

/-- The coordinates, one binary32 value per axis (R188). -/
def Cx.coordRegs (c : Cx) : FMap 32 := c.captureF c.f.a (fieldAxes c.f)

/-- FST, FSTG, FDRN and FCLR enter the unit's queue (R191); FDRN and FCLR join the .fd batch and set no flag (R190). -/
def actSplat (bulk : Bool) (a b : Cx → FMap 32) : Act := fun c =>
  if c.adm = 0 then .ok c
  else
    let n := c.w.nextOp
    let p : Payload := .splat c.i (a c) (b c) [] [] false 0
    let d := if bulk then c.startTracked none (some 2) p else c.startTracked c.flagNo none p
    let ops := if bulk then d.w.ops.upd n (fun o => { o with flagDone := true }) else d.w.ops
    .ok { d with w := { d.w with ops := ops, fieldQ := d.w.fieldQ ++ [n] } }

/-- FBIND (R188): Reads, validates and binds a field descriptor to a slot. -/
def execFbind (w : CForm) (s : State) : Host.Outcome State Fault Refusal := issue (.fbind w) (actField (fun c => c.capture c.f.a 2) (fun _ => [])) s

/-- FLD (R182): Loads the interpolated field value at real coordinates. -/
def execFld (w : CForm) (s : State) : Host.Outcome State Fault Refusal := issue (.fld w) (actField Cx.coordRegs (fun _ => [])) s

/-- FLDG (R183): Loads the interpolated value and its gradient. -/
def execFldg (w : CForm) (s : State) : Host.Outcome State Fault Refusal := issue (.fldg w) (actField Cx.coordRegs (fun _ => [])) s

/-- FST (R184): Splats a value into the field entries with the load's weights. -/
def execFst (w : CForm) (s : State) : Host.Outcome State Fault Refusal := issue (.fst w) (actSplat false Cx.coordRegs (fun c => c.captureF c.f.b (fieldChans c.f))) s

/-- FSTG (R185): Splats the adjoint of the gradient into the field. -/
def execFstg (w : CForm) (s : State) : Host.Outcome State Fault Refusal := issue (.fstg w) (actSplat false Cx.coordRegs (fun c => c.captureF c.f.b (fieldChans c.f * fieldAxes c.f))) s

/-- FWT (R189): Reports the offset, weight and status of one entry. -/
def execFwt (w : CForm) (s : State) : Host.Outcome State Fault Refusal := issue (.fwt w) (actField Cx.coordRegs (fun c => c.capture c.f.b 1)) s

/-- FDRN (R190): Drains an FX64 field into a float field, optionally clearing it. -/
def execFdrn (w : CForm) (s : State) : Host.Outcome State Fault Refusal := issue (.fdrn w) (actSplat true (fun _ => []) (fun _ => [])) s

/-- FCLR (R190): Writes zero to every element of a field. -/
def execFclr (w : CForm) (s : State) : Host.Outcome State Fault Refusal := issue (.fclr w) (actSplat true (fun _ => []) (fun _ => [])) s

end Sys2Proof.Machine
end

