-- ==== Sys2Proof/Machine/Matrix.lean ====
section
/-!
DEFINITION. The matrix engine (10_matrix.md R198 to R226): operands, the format-block and its checks, MMA,
loads, drains, the constant-matrix operations and gangs.
-/
namespace Sys2Proof.Machine
open Sys2Proof Sys2Proof.Num

def matrixFormat : Nat := 0x44
def versionMismatch : Nat := 0x45
def matrixShape : Nat := 0x46
def accRange : Nat := 0x47
def bstageRange : Nat := 0x48
def matrixAlign : Nat := 0x49
def gangBroken : Nat := 0x4A

/-- A check of a matrix instruction (R226). -/
def need (c : Bool) (e : FaultInfo) : Except FaultInfo Unit := if c then .ok () else .error e

/-- A captured operand of the lowest admitted lane. -/
def Op.once32 (o : Op) (x : FMap 32) : Nat := cap32 x ((lowestBit o.mask).getD 0)
def Op.once64 (o : Op) (x : FMap 32) : Nat := cap64 x ((lowestBit o.mask).getD 0)
/-- Word `k` of a captured run of s registers. -/
def Op.onceWord (o : Op) (x : FMap 32) (k : Nat) : Nat := (x.get (resKey k ((lowestBit o.mask).getD 0))).toNat

/-- Whether a number has no bit set outside a mask. -/
def within (x mask : Nat) : Bool := Nat.land x mask = x

/-- WC agrees with WIDTH (R209). -/
def wcOk (blk : Block) (f : Fields) : Bool := wcWidth (bitsAt f.mod 16 2) = blk.width

/-! ### Tiles and slots (R200, R201) -/

/-- Element `e` of a tile or of a pair. -/
def Block.acc? (blk : Block) (tile : Nat) (f64 : Bool) (e : Nat) : Nat :=
  if f64 then (blk.tiles.get (tile * 256 + 2 * e)).toNat + 2 ^ 32 * (blk.tiles.get (tile * 256 + 2 * e + 1)).toNat
  else (blk.tiles.get (tile * 256 + e)).toNat

/-- Writes element `e` of a tile or of a pair. -/
def Block.setAcc (blk : Block) (tile : Nat) (f64 : Bool) (e x : Nat) : Block :=
  if f64 then
    { blk with tiles := (blk.tiles.set (tile * 256 + 2 * e) (BitVec.ofNat 32 x)).set (tile * 256 + 2 * e + 1) (BitVec.ofNat 32 (x / 2 ^ 32)) }
  else { blk with tiles := blk.tiles.set (tile * 256 + e) (BitVec.ofNat 32 x) }

/-- Writes elements. -/
def Block.setAccs (blk : Block) (tile : Nat) (f64 : Bool) (xs : List (Nat × Nat)) : Block :=
  xs.foldl (fun b e => b.setAcc tile f64 e.1 e.2) blk

/-- Every element of tiles becomes +0. -/
def Block.clearTiles (blk : Block) (tile n : Nat) : Block :=
  { blk with tiles := blk.tiles.drop (fun k => tile * 256 ≤ k && k < (tile + n) * 256) }

def Block.setTag (blk : Block) (tile : Nat) (x : BitVec 16) : Block := { blk with tags := blk.tags.set tile x }

/-- A tile or an even pair within the block's quota (R226). -/
def Block.accOk (blk : Block) (tile : Nat) (f64 : Bool) : Bool :=
  if f64 then tile % 2 = 0 && tile + 1 < blk.acc else tile < blk.acc

/-- Word `j` of a B-stage slot (R200). -/
def Block.slotWord (blk : Block) (slot j : Nat) : Nat := leNat (blk.bstage.getList (slot * 512 + 4 * j) 4)

/-- The accumulator's format. -/
def accFmt (f64 : Bool) : Fmt := if f64 then Num.f64 else Num.f32

/-! ### The format-block (R202 to R204) -/

/-- The container bits of a format code (R198). -/
def containerBits (fmt : Nat) (nf : NFmt) : Nat :=
  match fmt with
  | 0 => 64
  | 1 => 32
  | 4 => if nf.w ≤ 4 then 4 else 8
  | _ => 16

/-- A block length by its code (04_numbers.md R81). -/
def blockLen (bl : Nat) : Nat := if bl = 0 then 0 else 4 * 2 ^ bl

/-- An entry of the format-block: A's or B's. -/
structure FbEntry where
  fmt : Nat
  nfs : Nat
  gr  : Bool
  bl  : Nat
  ver : Nat
  hdr : Nat
  deriving DecidableEq, Repr

/-- The words of a format-block. -/
def fbWord (fb : List Word) (k : Nat) : Word := fb.getD k 0

/-- The entry of A (0) or B (1). -/
def fbEntry (fb : List Word) (k : Nat) : FbEntry :=
  let w := fbWord fb k
  { fmt := bitsAt w 0 4, nfs := bitsAt w 4 3, gr := w.getLsbD 7, bl := bitsAt w 8 3, ver := bitsAt w 16 16,
    hdr := (fbWord fb (4 + 2 * k)).toNat + 2 ^ 32 * (fbWord fb (5 + 2 * k)).toNat }

def fbF64 (fb : List Word) : Bool := bitsAt (fbWord fb 2) 0 4 = 0
def fbCgr (fb : List Word) : Bool := (fbWord fb 2).getLsbD 7
def fbCver (fb : List Word) : Nat := bitsAt (fbWord fb 2) 16 16

/-- The narrow format that an entry names. -/
def FbEntry.nf (e : FbEntry) (la : Launch) : NFmt := nfOf (la.nf.getD e.nfs 0)
def FbEntry.bits (e : FbEntry) (la : Launch) : Nat := containerBits e.fmt (e.nf la)
/-- K, the depth that the container width fixes (R198). -/
def FbEntry.depth (e : FbEntry) (la : Launch) : Nat := 256 / e.bits la
/-- The number of block scales (R203). -/
def FbEntry.scales (e : FbEntry) (la : Launch) : Nat := if e.bl = 0 then 0 else 16 * e.depth la / blockLen e.bl

/-- The format checks of R204. -/
def fbOk (fb : List Word) (la : Launch) : Bool :=
  let ok (k : Nat) : Bool :=
    let e := fbEntry fb k
    e.fmt ≤ 4 && e.bl ≤ 4 && bitsAt (fbWord fb k) 11 5 = 0 && (e.fmt = 4 || e.nfs = 0)
      && (e.hdr != 0 || (e.bl = 0 && e.ver = 0)) && e.hdr % 8 = 0
  let a := fbEntry fb 0
  let b := fbEntry fb 1
  let c := fbWord fb 2
  ok 0 && ok 1 && a.bits la = b.bits la && bitsAt c 4 3 = 0 && bitsAt c 8 8 = 0 && bitsAt c 0 4 ≤ 1
    && fbWord fb 3 = 0 && decide ((bitsAt c 0 4 = 0) = (a.fmt = 0)) && decide ((bitsAt c 0 4 = 0) = (b.fmt = 0))

/-- A header that agrees with its entry (R203, R204). -/
def headerOk (e : FbEntry) (bs : List Byte) : Bool :=
  let b (k : Nat) : Nat := (bs.getD k 0).toNat
  b 0 + b 1 * 256 = e.ver && b 2 % 16 = e.fmt && b 2 / 16 % 8 = e.nfs && b 3 % 8 = e.bl
    && [4, 5, 6, 7].all (fun k => b k = 0)

/-- What reading a range gives an engine of a core: nothing, its context being killed; or the bytes. -/
abbrev ReadRan := Mach × Except FaultInfo (Option (List Byte))

/-- An engine of a core reads a range of global memory as a load at .b. -/
def Mach.coreRead (m : Mach) (t : Nat) (blk : Block) (la : Launch) (o : Op) (va n : Nat) : ReadRan :=
  let (m, r) := m.checkLanes blk la .g false .read n o.ia o.slot [(0, va)]
  match r with
  | .error e => (m, .error { e with fmask := o.mask })
  | .ok ks =>
    let keys := ks.foldr (fun e l => e.2 ++ l) []
    let read := m.sliceKeys blk [] .g keys
    if m.anyBad read then (m.consume t blk.ctx read, .ok none)
    else
      let (m, bs) := m.loadLanes blk la [] t .g ks
      (m, .ok (some (bs.foldr (fun e l => e.2 ++ l) [])))

/-- What an MMA's entry gives: its context killed, or the format-block followed by the scales of A and of B. -/
abbrev EnterRan := Mach × Except FaultInfo (Option (List Word))

/-- An operand's header and scales (R226, step 5); without a header, nothing. -/
def readHeader (m : Mach) (t : Nat) (blk : Block) (la : Launch) (o : Op) (e : FbEntry) : ReadRan :=
  if e.hdr = 0 then (m, .ok (some [])) else m.coreRead t blk la o e.hdr (8 + 2 * e.scales la)

/-- The scale words behind a header. -/
def scaleWords (bs : List Byte) : List Word :=
  (List.range ((bs.length - 8) / 2)).map (fun j => BitVec.ofNat 32 (leNat ((bs.drop (8 + 2 * j)).take 2)))

/-- An MMA enters the engine: every check of R226 in its order. -/
def mmaEnter (caps : Caps) (m : Mach) (t : Nat) (blk : Block) (la : Launch) (o : Op) (f : Fields) (b c : FMap 32) : EnterRan :=
  let sel := o.once32 b
  let slot := sel % 2 ^ 13
  let tile := sel / 2 ^ 16 % 2 ^ 10
  let off := o.onceWord c 1
  let fb : List Word := (List.range 8).map (fun k => BitVec.ofNat 32 (leNat (blk.scratch.getList (off + 4 * k) 4)))
  let ea := fbEntry fb 0
  let eb := fbEntry fb 1
  let early : Except FaultInfo Unit := do
    need (wcOk blk f && within sel 0x03FF1FFF) (o.info matrixShape 0)
    need (off % 32 = 0 && off + 32 ≤ la.scr) (o.info scratchRange off)
    need (caps.mx64 || (ea.fmt != 0 && eb.fmt != 0)) (o.info 0x0C 0)
    need (fbOk fb la) (o.info matrixFormat 0)
    need (blk.accOk tile (fbF64 fb)) (o.info accRange 0)
    need (slot < blk.bst) (o.info bstageRange 0)
  match early with
  | .error e => (m, .error e)
  | .ok _ =>
    let (m, ra) := readHeader m t blk la o ea
    match ra with
    | .error e => (m, .error e)
    | .ok none => (m, .ok none)
    | .ok (some ha) =>
      let (m, rb) := readHeader m t blk la o eb
      match rb with
      | .error e => (m, .error e)
      | .ok none => (m, .ok none)
      | .ok (some hb) =>
        if (ea.hdr != 0 && !headerOk ea ha) || (eb.hdr != 0 && !headerOk eb hb)
            || (blk.tags.get tile).toNat != fbCver fb then (m, .error (o.info versionMismatch 0))
        else (m, .ok (some (fb ++ scaleWords ha ++ scaleWords hb)))

/-! ### MMA (R205 to R207) -/

/-- Element `e` of a stream of 32-bit words (R199, R200). -/
def streamElem (word : Nat → Nat) (bits e : Nat) : Nat :=
  if bits = 64 then word (2 * e) + 2 ^ 32 * word (2 * e + 1)
  else word (e * bits / 32) / 2 ^ (e * bits % 32) % 2 ^ bits

/-- The value that an element decodes to, subnormals flushed outside the gradient class (R205, 04_numbers.md R74). -/
def FbEntry.elem (e : FbEntry) (la : Launch) (raw : Nat) : Val :=
  match e.fmt with
    | 0 => flush Num.f64 (modeFtz la.mode && !e.gr) (decodeF Num.f64 raw)
    | 1 => flush Num.f32 (modeFtz la.mode && !e.gr) (decodeF Num.f32 raw)
    | 2 => flush Num.f16 (modeFtz la.mode && !e.gr) (decodeF Num.f16 raw)
    | 3 => flush Num.bf16 (modeFtz la.mode && !e.gr) (decodeF Num.bf16 raw)
    | _ => decodeNF (e.nf la) raw

/-- An element's value under its scale, and the exceptions of the read (R203, R205, 04_numbers.md R81). -/
def FbEntry.value (e : FbEntry) (la : Launch) (scales : List Word) (idx raw : Nat) : Val × Exc :=
  let v := e.elem la raw
  if e.bl = 0 then (v, 0#5) else scaleBy v (scaleVal (scales.getD (idx / blockLen e.bl) 0).toNat)

/-- What an element of A brings to the products of its row: its value, the exceptions of the read, and whether ZSKIP
leaves it out: it decodes to zero, whatever its scale, or is finite under a zero scale (R207). -/
structure AElem where
  v    : Val
  exc  : Exc
  skip : Bool
  deriving DecidableEq, Repr

/-- An element of A as ZSKIP finds it (R207). -/
def FbEntry.elemA (e : FbEntry) (la : Launch) (scales : List Word) (idx raw : Nat) : AElem :=
  let x := e.value la scales idx raw
  { v := x.1, exc := x.2, skip := modeZskip la.mode && ((e.elem la raw).isZero || x.1.isZero) }

/-- RoundAcc (R205). -/
def roundAccK (mode : Word) (cgr : Bool) : Rnd :=
  { rm := rmOf 0 (modeRnd mode), gr := cgr, ftz := modeFtz mode, cnan := modeCnan mode, rand := 0, grand := none }

/-- An accumulator element as an operand: outside the gradient class FTZ reads a subnormal one as zero
(04_numbers.md R74, DEDUCED, log entry 72: CGR, or GR of MRED, is what marks the operation). -/
def accVal (f : Fmt) (k : Rnd) (raw : Nat) : Val := flush f (k.ftz && !k.gr) (decodeF f raw)

/-- One element of an MMA: the exact sum of the accumulator and the selected products, rounded once (R205). -/
def mmaElem (f : Fmt) (k : Rnd) (acc : Val) (ps : List ((Val × Exc) × (Val × Exc))) : Nat × Exc :=
  let ops := acc :: ps.foldr (fun p l => p.1.1 :: p.2.1 :: l) []
  let (x, e) := sumProducts f k ops (ps.map (fun p => (p.1.1, p.2.1))) [acc]
  (x, e ||| orExc (ps.map (fun p => p.1.2 ||| p.2.2)))

/-- The product of an MMA: its tile, whether that is a pair, the new elements and the exceptions. -/
def mmaCompute (la : Launch) (blk : Block) (o : Op) (f : Fields) (a b c : FMap 32) (fb : List Word) :
    Nat × Bool × List (Nat × Nat) × Exc :=
  let sel := o.once32 b
  let slot := sel % 2 ^ 13
  let tile := sel / 2 ^ 16 % 2 ^ 10
  let masks := BitVec.ofNat 32 (o.onceWord c 0)
  let ea := fbEntry fb 0
  let eb := fbEntry fb 1
  let bits := ea.bits la
  let k := ea.depth la
  let g := max 1 (k / 16)
  let form := f.fn.toNat % 4
  let sa := (fb.drop 8).take (ea.scales la)
  let sb := fb.drop (8 + ea.scales la)
  let aw (j : Nat) : Nat := (a.get (resKey (j / blk.width) (j % blk.width))).toNat
  let ea' (m d : Nat) : AElem :=
    let e := if form = 2 then d * 16 + m else m * k + d
    ea.elemA la sa e (streamElem aw bits e)
  let eb' (d n : Nat) : Val × Exc :=
    let e := if form = 1 then n * k + d else 16 * d + n
    eb.value la sb e (streamElem (blk.slotWord slot) bits e)
  let ds := (List.range k).filter (fun d => d / g < 16 && f.mod.getLsbD (d / g))
  let rows := ((List.range 16).filter (fun m => masks.getLsbD m)).map (fun m => (m, ds.map (ea' m)))
  let cols := ((List.range 16).filter (fun n => masks.getLsbD (16 + n))).map (fun n => (n, ds.map (fun d => eb' d n)))
  let fmt := accFmt (fbF64 fb)
  let rk := roundAccK la.mode (fbCgr fb)
  let res := rows.foldr (fun r l =>
    cols.map (fun q =>
      let e := 16 * r.1 + q.1
      (e, mmaElem fmt rk (accVal fmt rk (blk.acc? tile (fbF64 fb) e))
        (((r.2.zip q.2).filter (fun p => !p.1.skip)).map (fun p => ((p.1.v, p.1.exc), p.2))))) ++ l) []
  (tile, fbF64 fb, res.map (fun x => (x.1, x.2.1)), orExc (res.map (fun x => x.2.2)))

/-- Updates a block's tile by an MMA (R205). -/
def mmaApply (la : Launch) (blk : Block) (o : Op) (f : Fields) (a b c : FMap 32) (fb : List Word) : Block × Exc :=
  let (tile, f64, xs, e) := mmaCompute la blk o f a b c fb
  (blk.setAccs tile f64 xs, e)

/-! ### Drains (R216 to R219) -/

/-- Convert (R217): the code of a value in DT, and the exceptions. -/
def drainCvt (la : Launch) (f64 : Bool) (f : Fields) (word : Nat) (v : Val) : Nat × Exc :=
  let gr := f.mod.getLsbD 3
  let k : Rnd := { roundingOf la.mode (bitsAt f.mod 0 3) gr word with grand := some word }
  let v := flush (accFmt f64) (k.ftz && !gr) v
  match bitsAt f.mod 4 4 with
  | 0 => resultF Num.f64 k [v] v
  | 1 => resultF Num.f32 k [v] v
  | 2 => resultF Num.f16 k [v] v
  | 3 => resultF Num.bf16 k [v] v
  | _ =>
    let nf := nfOf (la.nf.getD (bitsAt f.mod 8 3) 0)
    encodeNF nf (modeNsat la.mode) (if gr && nf.belowNormal v then .sr else k.rm) word v

/-- The exact value of a drained code. -/
def drainVal (la : Launch) (f : Fields) (y : Nat) : Val :=
  match bitsAt f.mod 4 4 with
  | 0 => decodeF Num.f64 y
  | 1 => decodeF Num.f32 y
  | 2 => decodeF Num.f16 y
  | 3 => decodeF Num.bf16 y
  | _ => decodeNF (nfOf (la.nf.getD (bitsAt f.mod 8 3) 0)) y

/-- The bytes of one drained element in memory (R217). -/
def drainSize (f : Fields) : Nat :=
  match bitsAt f.mod 4 4 with
  | 0 => 8
  | 1 => 4
  | 4 => 1
  | _ => 2

/-- The drain record (R216). -/
structure DrainRec where
  tile : Nat
  f64  : Bool
  hs   : Nat
  he   : Bool
  shn  : Nat
  tid  : Nat
  rows : BitVec 16
  cols : BitVec 16
  tc   : Nat
  key  : Nat
  ok   : Bool
  deriving DecidableEq, Repr

def Op.drainRec (o : Op) (c : FMap 32) : DrainRec :=
  let w := BitVec.ofNat 32 (o.onceWord c 0)
  let m := BitVec.ofNat 32 (o.onceWord c 1)
  { tile := bitsAt w 0 10, f64 := w.getLsbD 10, hs := bitsAt w 12 3, he := w.getLsbD 15, shn := bitsAt w 16 4,
    tid := bitsAt w 24 8, rows := m.extractLsb' 0 16, cols := m.extractLsb' 16 16, tc := o.onceWord c 2,
    key := o.onceWord c 3, ok := !w.getLsbD 11 && bitsAt w 20 4 = 0 }

/-- One written element: its number, its position, the value before and the code after. -/
structure Drained where
  e : Nat
  p : Nat
  x : Val
  y : Nat
  exc : Exc
  deriving DecidableEq, Repr

/-- The elements that a drain writes, those for which `adm` admits the position (R217). -/
def drainElems (la : Launch) (blk : Block) (f : Fields) (r : DrainRec) (adm : Nat → Bool) : List Drained :=
  (List.range 256).filterMap (fun e =>
    let p := if f.fn = 1 then 16 * (e % 16) + e / 16 else e
    if r.rows.getLsbD (p / 16) && r.cols.getLsbD (p % 16) && adm p then
      let x := decodeF (accFmt r.f64) (blk.acc? r.tile r.f64 e)
      let (y, exc) := drainCvt la r.f64 f (rand32 e r.tc r.key) x
      some { e := e, p := p, x := x, y := y, exc := exc }
    else none)

/-- The histogram bin of a value (R218). -/
def histBin (v : Val) : Nat :=
  match v with
  | .fin _ 0 _ => 0
  | .fin _ m e => (clampInt (topExp m e + 16) 1 30).toNat
  | _ => 31

/-- The histogram counts of a drain (R218). -/
def Block.countHist (blk : Block) (r : DrainRec) (xs : List Drained) : Block :=
  if r.he then
    { blk with hist := xs.foldl (fun h d =>
        let k := r.hs * 32 + histBin d.x
        h.set k (satInc (h.get k))) blk.hist }
  else blk

/-- The deviation of one element (R219). Of two NaNs, and of infinities of the same sign, it is taken as 0, and of an infinity and a NaN
as +∞: R219 speaks only of exactly one that is NaN or infinite and of infinities of opposite signs (DESIGN CHOICE, log entry 73). -/
def deviation (la : Launch) (f : Fields) (d : Drained) : Val :=
  let y := drainVal la f d.y
  match d.x, y with
  | .fin n m e, .fin n' m' e' =>
    match sum .rn [.fin n m e, .fin (!n') m' e'] with
    | .fin _ m e => .fin false m e
    | v => v
  | .nan .., .nan .. => .zero false
  | .inf n, .inf n' => if n = n' then .zero false else .inf false
  | _, _ => .inf false

/-- The largest deviation and the element that has it first. -/
def worst (la : Launch) (f : Fields) : List Drained → Option (Drained × Val)
  | [] => none
  | d :: ds =>
    let v := deviation la f d
    match worst la f ds with
    | none => some (d, v)
    | some (d', v') =>
      if cmp v v' = .lt || (cmp v v' = .eq && d'.e < d.e) then some (d', v') else some (d, v)

/-- A shadow record (R219): D, its element and x, as given. -/
def shadowBytes (blk : Block) (f : Fields) (r : DrainRec) (e dev x : Nat) : List Byte :=
  leBytes 1 4 ++ leBytes r.tid 1 ++ leBytes blk.ctx 1 ++ leBytes blk.core 2 ++ leBytes r.tc 4 ++ leBytes e 1
    ++ leBytes (bitsAt f.mod 4 4 + bitsAt f.mod 8 3 * 16) 1 ++ leBytes 0 2 ++ leBytes dev 4 ++ leBytes x 4 ++ leBytes 0 8

/-- Appends a record to the context's Patina ring; one that finds no room is dropped and counted (17_package.md R327). -/
def Mach.patina (m : Mach) (t : Nat) (la : Launch) (bytes : List Byte) : Mach :=
  if la.patr = 0 then m
  else
    match m.engineKeys la.ctx .read la.patr 32 with
    | .error (c, a) => if c = mcWalk then m.consumeWalk t la.ctx a else m
    | .ok keys =>
      if m.anyBad keys then m.consume t la.ctx keys
      else
      let m := m.brought la.ctx la.patr 32 keys
      let r := RingDesc.ofBytes (m.bytes keys)
      let w : Except (Nat × Nat) Mach :=
        if r.room then m.putRecord t la.ctx la.patr r bytes
        else m.writeVirt t la.ctx (la.patr + 12) (leBytes (satInc (BitVec.ofNat 32 (r.zero / 2 ^ 16))).toNat 4)
      match w with
      | .ok m => m
      | .error _ => m

/-- The shadow check of a drain (R219). A drain that writes no position has no deviation: what its record
then holds of one is free. -/
def Mach.shadow (m : Mach) (t b : Nat) (la : Launch) (f : Fields) (r : DrainRec) (xs : List Drained) : Mach :=
  match m.block b with
  | none => m
  | some blk =>
    if r.shn = 0 then m
    else
      let n := blk.drains.get r.hs + 1
      let m := m.setBlock b { blk with drains := blk.drains.set r.hs n }
      if r.f64 || n.toNat % 2 ^ r.shn != 0 then m
      else
        match worst la f xs with
        | some (d, v) =>
          let dev := (resultF Num.f32 { rnK false false with rm := .ru } [] v).1
          m.patina t la (shadowBytes blk f r d.e dev (blk.acc? r.tile false d.e))
        | none =>
          let x := Config.freeWord m.free
          ({ m with free := m.free + 1 }).patina t la
            (shadowBytes blk f r (bitsAt x 0 8) (bitsAt x 8 32) (bitsAt x 32 32))

/-- What both drains do once they have written: histogram, CLR and shadow (R217 to R219). -/
def Mach.afterDrain (m : Mach) (t b : Nat) (la : Launch) (f : Fields) (r : DrainRec) (xs : List Drained) : Mach :=
  match m.block b with
  | none => m
  | some blk =>
    let m := (m.setBlock b (blk.countHist r xs)).shadow t b la f r xs
    match m.block b with
    | none => m
    | some blk => if f.mod.getLsbD 11 then m.setBlock b (blk.clearTiles r.tile (if r.f64 then 2 else 1)) else m

/-- The checks of a drain's record (R226, steps 1 and 4). -/
def drainChecks (blk : Block) (o : Op) (r : DrainRec) (wc : Bool) : Except FaultInfo Unit := do
  need (wc && r.ok) (o.info matrixShape 0)
  need (blk.accOk r.tile r.f64) (o.info accRange 0)

/-- MDRN (R217): into the lanes that are admitted. -/
def mdrnRun (m : Mach) (t b w : Nat) (blk : Block) (la : Launch) (o : Op) (f : Fields) (c : FMap 32) : Mach × Ran :=
  let r := o.drainRec c
  match drainChecks blk o r (wcOk blk f), m.warp b w with
  | .error e, _ => (m, .fault e)
  | .ok _, none => (m, .killed)
  | .ok _, some (_, x) =>
    let xs := drainElems la blk f r (fun p => o.mask.getLsbD (p % blk.width))
    let wide := bitsAt f.mod 4 4 = 0
    let x := xs.foldl (fun x d =>
      let l := d.p % blk.width
      let q := d.p / blk.width
      if wide then (x.setDest f.d f.hint.wt (2 * q) l (BitVec.ofNat 32 d.y)).setDest f.d f.hint.wt (2 * q + 1) l (BitVec.ofNat 32 (d.y / 2 ^ 32))
      else x.setDest f.d f.hint.wt q l (BitVec.ofNat 32 d.y)) x
    ((m.setWarp b w x).afterDrain t b la f r xs, Ran.nothing (orExc (xs.map (·.exc))))

/-- MSTP (R217): one aligned store per element. -/
def mstpRun (m : Mach) (t b : Nat) (blk : Block) (la : Launch) (o : Op) (f : Fields) (a s c : FMap 32) : Mach × Ran :=
  let r := o.drainRec c
  match drainChecks blk o r true with
  | .error e => (m, .fault e)
  | .ok _ =>
    let size := drainSize f
    let addr := o.once64 a
    let stride := sx 32 (o.once32 s)
    if addr % size != 0 || stride % (size : Int) != 0 then (m, .fault (o.info matrixAlign addr))
    else
      let xs := drainElems la blk f r (fun _ => true)
      let place (d : Drained) : Nat :=
        (((addr : Int) + (d.p / 16 : Nat) * stride + ((d.p % 16 * size : Nat) : Int)) % (2 ^ 64 : Nat)).toNat
      let (m, q) := m.checkLanes blk la .g false .write size o.ia o.slot (xs.map (fun d => (0, place d)))
      match q with
      | .error e => (m, .fault { e with fmask := o.mask })
      | .ok ks =>
        let m := (ks.zip xs).foldl (fun m e =>
          m.consumeWrite t blk.ctx e.1.2 (fun m => m.storeThrough blk.part blk.core blk.ctx e.1.2 (leBytes e.2.y size))) m
        (m.afterDrain t b la f r xs, Ran.nothing (orExc (xs.map (·.exc))))

/-! ### Loading and clearing (R213 to R215) -/

/-- The places of rows of a matrix in memory. -/
def rowAddr (a : Nat) (stride : Int) (r : Nat) : Nat := (((a : Int) + (r : Int) * stride) % (2 ^ 64 : Nat)).toNat

/-- Reads a list of rows of `n` bytes. -/
def Mach.coreRows (m : Mach) (t : Nat) (blk : Block) (la : Launch) (o : Op) (n : Nat) (as : List Nat) :
    Mach × Except FaultInfo (Option (List (List Byte))) :=
  let (m, r) := m.checkLanes blk la .g false .read n o.ia o.slot (as.map (fun a => (0, a)))
  match r with
  | .error e => (m, .error { e with fmask := o.mask })
  | .ok ks =>
    let keys := ks.foldr (fun e l => e.2 ++ l) []
    let read := m.sliceKeys blk [] .g keys
    if m.anyBad read then (m.consume t blk.ctx read, .ok none)
    else
      let (m, bs) := m.loadLanes blk la [] t .g ks
      (m, .ok (some (bs.map (·.2))))

/-- MLDB (R213). -/
def mldbRun (m : Mach) (t b : Nat) (blk : Block) (la : Launch) (o : Op) (f : Fields) (a s c : FMap 32) : Mach × Ran :=
  let rl := 8 * 2 ^ bitsAt f.mod 0 3
  let rows := 512 / rl
  let sel := o.once32 c
  let slot := sel % 2 ^ 13
  let nr := sel / 2 ^ 16 % 2 ^ 7
  let n := if 1 ≤ nr && nr ≤ rows then nr else rows
  if !within sel 0x007F1FFF then (m, .fault (o.info matrixShape 0))
  else if blk.bst ≤ slot then (m, .fault (o.info bstageRange 0))
  else
    let (m, r) := m.coreRows t blk la o rl ((List.range n).map (rowAddr (o.once64 a) (sx 32 (o.once32 s))))
    match r with
    | .error e => (m, .fault e)
    | .ok none => (m, .killed)
    | .ok (some rs) =>
      let bytes := (rs.foldr (fun x l => x ++ l) []) ++ leBytes 0 (512 - n * rl)
      match m.block b with
      | none => (m, .killed)
      | some blk => (m.setBlock b { blk with bstage := blk.bstage.setList (slot * 512) bytes }, Ran.nothing 0)

/-- The source format of MLDC. -/
def mldcFmt (sf : Nat) : Fmt := if sf = 0 then Num.f64 else if sf = 1 then Num.f32 else if sf = 2 then Num.f16 else Num.bf16

/-- MLDC (R214). -/
def mldcRun (m : Mach) (t b : Nat) (blk : Block) (la : Launch) (o : Op) (f : Fields) (a s c : FMap 32) : Mach × Ran :=
  let sf := bitsAt f.mod 0 2
  let fmt := mldcFmt sf
  let f64 := decide (sf = 0)
  let size := fmt.bits / 8
  let sel := o.once32 c
  let tile := sel % 2 ^ 10
  let tag : BitVec 16 := BitVec.ofNat 16 (sel / 2 ^ 16)
  let addr := o.once64 a
  let stride := sx 32 (o.once32 s)
  if !within sel 0xFFFF03FF then (m, .fault (o.info matrixShape 0))
  else if !blk.accOk tile f64 then (m, .fault (o.info accRange 0))
  else if addr % size != 0 || stride % (size : Int) != 0 then (m, .fault (o.info matrixAlign addr))
  else
    let (m, r) := m.coreRows t blk la o (16 * size) ((List.range 16).map (rowAddr addr stride))
    match r with
    | .error e => (m, .fault e)
    | .ok none => (m, .killed)
    | .ok (some rs) =>
      let k := rnK (modeCnan la.mode) false
      let xs := (List.range 256).map (fun e =>
        let v := decodeF fmt (leNat (((rs.getD (e / 16) []).drop (e % 16 * size)).take size))
        (e, resultF (accFmt f64) k [v] v))
      match m.block b with
      | none => (m, .killed)
      | some blk =>
        let blk := (blk.setAccs tile f64 (xs.map (fun x => (x.1, x.2.1)))).setTag tile tag
        let blk := if f64 then blk.setTag (tile + 1) tag else blk
        (m.setBlock b blk, Ran.nothing (orExc (xs.map (fun x => x.2.2))))

/-- MCLR (R215). A count of 0 with a tile above the quota faults (DESIGN CHOICE, log entry 90). -/
def mclrRun (m : Mach) (b : Nat) (blk : Block) (o : Op) (a s : FMap 32) : Mach × Ran :=
  let sel := o.once32 a
  let tile := sel % 2 ^ 10
  let n := sel / 2 ^ 16 % 2 ^ 11
  if !within sel 0x07FF03FF then (m, .fault (o.info matrixShape 0))
  else if blk.acc < tile + n then (m, .fault (o.info accRange 0))
  else
    let blk := (List.range n).foldl (fun k i => k.setTag (tile + i) (BitVec.ofNat 16 (o.once32 s))) (blk.clearTiles tile n)
    (m.setBlock b blk, Ran.nothing 0)

/-! ### Constant matrices, histograms and the gang register (R211, R220, R221) -/

/-- The source and destination tiles of MPERM, MRED and MTRN, checked (R226). -/
def constTiles (blk : Block) (o : Op) (f : Fields) (a : FMap 32) : Except FaultInfo (Nat × Nat × Bool) :=
  let sel := o.once32 a
  let src := sel % 2 ^ 10
  let dst := sel / 2 ^ 16 % 2 ^ 10
  let f64 := f.mod.getLsbD 16
  if !within sel 0x03FF03FF then .error (o.info matrixShape 0)
  else if !blk.accOk src f64 || !blk.accOk dst f64 then .error (o.info accRange 0)
  else .ok (src, dst, f64)

/-- MPERM and MTRN: element (m, n) takes the bits of a source element, and the tile its tag (R221). -/
def permRun (m : Mach) (b : Nat) (blk : Block) (o : Op) (f : Fields) (a : FMap 32) (from_ : Nat → Nat) : Mach × Ran :=
  match constTiles blk o f a with
  | .error e => (m, .fault e)
  | .ok (src, dst, f64) =>
    let xs := (List.range 256).map (fun e => (e, blk.acc? src f64 (from_ e)))
    let k := (blk.setAccs dst f64 xs).setTag dst (blk.tags.get src)
    let k := if f64 then k.setTag (dst + 1) (blk.tags.get (src + 1)) else k
    (m.setBlock b k, Ran.nothing 0)

/-- MRED (R221). -/
def mredRun (m : Mach) (b : Nat) (blk : Block) (la : Launch) (o : Op) (f : Fields) (a s : FMap 32) : Mach × Ran :=
  match constTiles blk o f a with
  | .error e => (m, .fault e)
  | .ok (src, dst, f64) =>
    let masks := BitVec.ofNat 32 (o.once32 s)
    let fmt := accFmt f64
    let k := roundAccK la.mode (f.mod.getLsbD 17)
    let js := (List.range 16).filter (fun j => f.mod.getLsbD j)
    let val (t e : Nat) : Val := accVal fmt k (blk.acc? t f64 e)
    let es := (List.range 256).filter (fun e => masks.getLsbD (e / 16) && masks.getLsbD (16 + e % 16))
    let xs := es.map (fun e =>
      let ts := val dst e :: js.map (fun j => val src (if f.fn = 1 then 16 * j + e % 16 else 16 * (e / 16) + j))
      (e, sumProducts fmt k ts [] ts))
    (m.setBlock b (blk.setAccs dst f64 (xs.map (fun x => (x.1, x.2.1)))), Ran.nothing (orExc (xs.map (fun x => x.2.2))))

/-- MHIST (R220). -/
def mhistRun (m : Mach) (b : Nat) (blk : Block) (o : Op) (f : Fields) : Mach × Ran :=
  if !wcOk blk f then (m, .fault (o.info matrixShape 0))
  else
    let hs := bitsAt f.mod 0 3
    let r := o.result f (ceilDiv 32 blk.width) (fun l q =>
      let bin := q * blk.width + l
      if bin < 32 then blk.hist.get (hs * 32 + bin) else 0) 0
    let blk := if f.mod.getLsbD 3 then { blk with hist := blk.hist.drop (fun k => k / 32 = hs) } else blk
    (m.setBlock b blk, .done r)

/-- A gang mask that GANG takes (R211). -/
def gangOk (blk : Block) (w : Nat) (x : DWord) : Bool :=
  let n := popCount x 64
  x = 0 || (2 ≤ n && n ≤ 6 && x.getLsbD w && (lanesOf x 64).all (fun i => i < blk.warpCount))

/-- GANG (R211). -/
def gangRun (m : Mach) (b w : Nat) (blk : Block) (o : Op) (a : FMap 32) : Mach × Ran :=
  let x : DWord := BitVec.ofNat 64 (o.once64 a)
  if !gangOk blk w x then (m, .fault (o.info matrixShape 0))
  else
    match m.warp b w with
    | none => (m, .killed)
    | some (_, wp) => (m.setWarp b w { wp with gang := x }, Ran.nothing 0)

/-- A matrix instruction other than MMA executes (R222). -/
def matrixRun (m : Mach) (t b w : Nat) (blk : Block) (o : Op) (i : Instr) (a s c : FMap 32) : Mach × Ran :=
  let la := m.launchOf blk
  match i.fields with
  | none => (m, .killed)
  | some f =>
    match i with
    | .gang _ => gangRun m b w blk o a
    | .mldb _ => mldbRun m t b blk la o f a s c
    | .mldc _ => mldcRun m t b blk la o f a s c
    | .mclr _ => mclrRun m b blk o a s
    | .mdrn _ => mdrnRun m t b w blk la o f c
    | .mstp _ => mstpRun m t b blk la o f a s c
    | .mperm _ => permRun m b blk o f a (fun e => 16 * (o.once64 s / 2 ^ (4 * (e / 16)) % 16) + e % 16)
    | .mtrn _ => permRun m b blk o f a (fun e => 16 * (e % 16) + e / 16)
    | .mred _ => mredRun m b blk la o f a s
    | _ => mhistRun m b blk o f

/-! ### The engine's queue and gangs (R212, R222, R226) -/

/-- A matrix instruction faults. The fault stands over the warp's later matrix instructions; under a
translation cause it keeps its place, and otherwise it leaves the engine (R226). -/
def Warp.failMat (w : Warp) (op : Nat) (f : FaultInfo) : Warp :=
  let w := w.failOp op f
  { w with
    matFault := if w.matFault.isSome then w.matFault else some (op, f)
    matQ := if isTranslation f.cause then w.matQ else w.matQ.filter (fun k => k != op) }

/-- A matrix instruction has executed: it is complete for its batch, and its flag can complete (R209). -/
def Warp.doneMat (w : Warp) (op : Nat) (flags : BitVec 5) : Warp :=
  { w with
    matQ := w.matQ.filter (fun k => k != op)
    ops := w.ops.upd op (fun o => { o with payload := .sourcesRead [] flags, batchDone := true }) }

/-- The oldest matrix instruction of a warp, if it may execute now: earlier accesses have performed (R223),
and no earlier matrix fault of a translation cause stands (R226). -/
def Warp.matHead (w : Warp) : Option (Nat × Op) :=
  match w.matQ with
  | [] => none
  | k :: _ =>
    match w.ops.find k with
    | none => none
    | some o =>
      let standing : Bool := match w.matFault with
        | some (_, f) => isTranslation f.cause
        | none => false
      if o.fault.isSome || standing || !w.drained o.seq || w.held Op.holdsLoads o.seq || w.held Op.holdsStores o.seq then none
      else some (k, o)

/-- The fault that the standing one passes on to a later instruction (R226). -/
def Warp.standing (w : Warp) (o : Op) : Option FaultInfo := w.matFault.map (fun e => o.info e.2.cause e.2.faddr.toNat)

/-- MMA_ENGINE_ENTRY: the oldest MMA of a warp enters the engine and runs its checks. Without .g it then
executes; with .g it arrives at its rendezvous (R202, R204, R212). -/
def Mach.mmaEntry (m : Mach) (caps : Caps) (t b w : Nat) : Option Mach :=
  match m.warp b w with
  | none => none
  | some (blk, x) =>
    if !m.alive blk then none
    else
      match x.matHead with
      | none => none
      | some (k, o) =>
        match o.payload with
        | .matrix (.mma v) a s c _ false =>
          let la := m.launchOf blk
          let f := v.fields
          let g := 8 ≤ f.fn.toNat
          let x := if g then { x with gangs := x.gangs.put x.gang.toNat ((x.gangs.find x.gang.toNat).getD 0 + 1) } else x
          match x.standing o with
          | some e => some (m.setWarp b w (x.failMat k e))
          | none =>
            if g && (x.gang = 0 || blk.broken.contains x.gang) then
              some (m.setWarp b w (x.failMat k (o.info gangBroken 0)))
            else
              let (m, r) := mmaEnter caps (m.setWarp b w x) t blk la o f s c
              match m.warp b w, r with
              | none, _ => some m
              | some _, .ok none => some m
              | some (_, x), .error e =>
                let x := if isTranslation e.cause && g then { x with gangs := x.gangs.put x.gang.toNat ((x.gangs.find x.gang.toNat).getD 1 - 1) } else x
                some (m.setWarp b w (x.failMat k e))
              | some (blk, x), .ok (some fb) =>
                if g then some (m.setWarp b w (x.setPayload k (.matrix (.mma v) a s c fb true)))
                else
                  let (blk, e) := mmaApply la blk o f a s c fb
                  some (m.setBlock b (blk.setWarp w (x.doneMat k e)))
        | _ => none

/-- An MMA.g that has arrived under a gang mask: its operation, word, operands and format-block. -/
structure Arrived where
  w  : Nat
  k  : Nat
  o  : Op
  f  : Fields
  a  : FMap 32
  s  : FMap 32
  c  : FMap 32
  fb : List Word
  n  : Nat
  deriving DecidableEq, Repr

/-- The arrived MMA.g of warp `w` under a mask. -/
def Block.arrived (blk : Block) (mask : Mask) (w : Nat) : Option Arrived :=
  match blk.warp w with
  | none => none
  | some x =>
    match x.matQ with
    | [] => none
    | k :: _ =>
      match x.ops.find k with
      | none => none
      | some o =>
        match o.payload with
        | .matrix (.mma v) a s c fb true =>
          if x.gang = mask && o.fault.isNone then
            some { w := w, k := k, o := o, f := v.fields, a := a, s := s, c := c, fb := fb,
                   n := (x.gangs.find mask.toNat).getD 0 }
          else none
        | _ => none

/-- What the members of a gang must agree on (R212). -/
def Arrived.agrees (x y : Arrived) : Bool :=
  x.f.fn = y.f.fn && x.o.once32 x.s % 2 ^ 13 = y.o.once32 y.s % 2 ^ 13 && bitsAt x.f.mod 0 16 = bitsAt y.f.mod 0 16
    && fbWord x.fb 1 = fbWord y.fb 1 && fbWord x.fb 6 = fbWord y.fb 6 && fbWord x.fb 7 = fbWord y.fb 7
    && bitsAt (fbWord x.fb 2) 0 4 = bitsAt (fbWord y.fb 2) 0 4

/-- The arrived members, rising, and whether that is every listed warp, at the same count. -/
def Block.gangHere (blk : Block) (mask : Mask) : List Arrived × Bool :=
  let all := (lanesOf mask 64).map (fun w => blk.arrived mask w)
  let here := all.filterMap id
  (here, all.all Option.isSome && here.all (fun x => x.n = (here.head?.map (·.n)).getD 0))

/-- GANG_RENDEZVOUS: every listed warp has arrived and they agree; each tile is updated as the same MMA
without .g would update it (R208, R212). -/
def Mach.gangRun? (m : Mach) (b : Nat) (mask : Mask) : Option Mach :=
  match m.block b with
  | none => none
  | some blk =>
    let (here, all) := blk.gangHere mask
    match here with
    | [] => none
    | x :: rest =>
      if !m.alive blk || !all || !rest.all (fun y => x.agrees y) then none
      else
        let la := m.launchOf blk
        let blk := here.foldl (fun k y =>
          let (k, e) := mmaApply la k y.o y.f y.a y.s y.c y.fb
          match k.warp y.w with
          | some wp => k.setWarp y.w (wp.doneMat y.k e)
          | none => k) blk
        some (m.setBlock b blk)

/-- Whether a listed warp has exited, or has faulted or trapped, before its MMA.g arrived (R212). -/
def Block.leftGang (blk : Block) (mask : Mask) (w : Nat) : Bool :=
  match blk.warp w with
  | none => true
  | some x =>
    (blk.arrived mask w).isNone &&
      ((x.ended && !x.ops.any (fun e => match e.2.payload with
          | .matrix (.mma _) _ _ _ _ _ => true
          | _ => false))
        || x.ops.any (fun e => e.2.fault.isSome) || x.noFlag.isSome
        || (match x.stop with
          | some s => s.how = 0
          | none => false))

/-- GANG_BROKEN: every arrived MMA.g faults, because the members disagree or because a listed warp has left
the gang; in the second case the mask stays broken (R212). -/
def Mach.gangBreak? (m : Mach) (b : Nat) (mask : Mask) : Option Mach :=
  match m.block b with
  | none => none
  | some blk =>
    let (here, all) := blk.gangHere mask
    match here with
    | [] => none
    | x :: rest =>
      let disagree := all && !rest.all (fun y => x.agrees y)
      let left := (lanesOf mask 64).any (fun w => blk.leftGang mask w)
      if !m.alive blk || !(disagree || left) then none
      else
        let blk := here.foldl (fun k y =>
          match k.warp y.w with
          | some wp => k.setWarp y.w (wp.failMat y.k (y.o.info gangBroken 0))
          | none => k) blk
        some (m.setBlock b (if left then { blk with broken := mask :: blk.broken } else blk))

/-! ### Issue -/

/-- The words that each operand of a matrix instruction holds. -/
def matReads (i : Instr) : Nat × Nat × Nat :=
  match i with
  | .gang _ => (2, 0, 0)
  | .mma _ => (0, 1, 2)
  | .mldb _ => (2, 1, 1)
  | .mldc _ => (2, 1, 1)
  | .mclr _ => (1, 1, 0)
  | .mdrn _ => (0, 0, 4)
  | .mstp _ => (2, 1, 4)
  | .mperm _ => (1, 2, 0)
  | .mred _ => (1, 1, 0)
  | .mtrn _ => (1, 0, 0)
  | _ => (0, 0, 0)

/-- The A tile of an MMA: its registers in every lane of the warp (R199, R209). -/
def Cx.tileA (c : Cx) : FMap 32 :=
  valsOf (128 / wcWidth (bitsAt c.f.mod 16 2)) (List.range c.blk.width) (fun l k => c.rd c.f.a k l)

/-- A matrix instruction joins the .mx batch and enters the engine's queue (R209, R222). -/
def actMatrix : Act := fun c =>
  if c.adm = 0 then .ok c
  else
    let (na, nb, nc) := matReads c.i
    let a := match c.i with
      | .mma _ => c.tileA
      | _ => c.capture c.f.a na
    let n := c.w.nextOp
    let d := c.start (some 1) (.matrix c.i a (c.capture c.f.b nb) (c.capture c.f.c nc) [] false)
    .ok { d with w := { d.w with matQ := d.w.matQ ++ [n] } }

/-- GANG (R211): Writes the warp's gang register. -/
def execGang (w : CForm) (s : State) : Host.Outcome State Fault Refusal := issue (.gang w) actMatrix s

/-- MMA (R205): Updates an accumulator tile with an exact sum of products, rounded once. -/
def execMma (w : CForm) (s : State) : Host.Outcome State Fault Refusal := issue (.mma w) actMatrix s

/-- MLDB (R213): Fills a B-stage slot from memory. -/
def execMldb (w : CForm) (s : State) : Host.Outcome State Fault Refusal := issue (.mldb w) actMatrix s

/-- MLDC (R214): Loads an accumulator tile from memory and sets its tag. -/
def execMldc (w : CForm) (s : State) : Host.Outcome State Fault Refusal := issue (.mldc w) actMatrix s

/-- MCLR (R215): Clears a range of tiles and sets their tags. -/
def execMclr (w : CForm) (s : State) : Host.Outcome State Fault Refusal := issue (.mclr w) actMatrix s

/-- MDRN (R217): Drains a tile into registers with conversion. -/
def execMdrn (w : CForm) (s : State) : Host.Outcome State Fault Refusal := issue (.mdrn w) actMatrix s

/-- MSTP (R217): Drains a tile into memory with conversion. -/
def execMstp (w : CForm) (s : State) : Host.Outcome State Fault Refusal := issue (.mstp w) actMatrix s

/-- MPERM (R221): Permutes the rows of a tile. -/
def execMperm (w : CForm) (s : State) : Host.Outcome State Fault Refusal := issue (.mperm w) actMatrix s

/-- MRED (R221): Adds row or column sums into a tile, rounded once. -/
def execMred (w : CForm) (s : State) : Host.Outcome State Fault Refusal := issue (.mred w) actMatrix s

/-- MTRN (R221): Transposes a tile. -/
def execMtrn (w : CForm) (s : State) : Host.Outcome State Fault Refusal := issue (.mtrn w) actMatrix s

/-- MHIST (R220): Reads, and optionally clears, a histogram set. -/
def execMhist (w : CForm) (s : State) : Host.Outcome State Fault Refusal := issue (.mhist w) actMatrix s

end Sys2Proof.Machine
end

