-- ==== Sys2Proof/Machine/Async.lean ====
section
/-!
DEFINITION. Copies, batches, barriers, SLEEP and WAKE (11_async_armature.md R227 to R242, 15_cluster.md R285).
-/
namespace Sys2Proof.Machine
open Sys2Proof

def copyNotProducer : Nat := 0x0D
def copyDesc : Nat := 0x4B
def batchOpen : Nat := 0x4C
def barrierState : Nat := 0x4D

/-- A fault that an issue finds in its operands: it names every admitted lane. -/
def Cx.info (c : Cx) (cause faddr : Nat) : FaultInfo :=
  { cause := cause, ia := c.ia, fmask := c.adm, faddr := BitVec.ofNat 64 faddr, xcode := 0, lane := 0xFF, slot := c.cl.slot }

/-- An issued operation is complete for its batch at once (R234). -/
def Cx.batchDone (c : Cx) (op : Nat) : Cx :=
  { c with w := { c.w with ops := c.w.ops.upd op (fun o => { o with batchDone := true }) } }

/-! ### CPY (R231 to R234) -/

/-- The destination range cut at every multiple of 16: offset and length of each piece (R234). -/
def copyPieces : Nat → Nat → Nat → Nat → List (Nat × Nat)
  | 0, _, _, _ => []
  | fuel + 1, dst, off, n =>
    if n ≤ off then []
    else
      let k := min (n - off) (16 - (dst + off) % 16)
      (off, k) :: copyPieces fuel dst (off + k) n

/-- The spaces of source and destination by DIR (R232). -/
def copySrc (dir : Nat) : Space := if dir = 0 then .g else .s
def copyDst (dir : Nat) : Space := if dir = 1 then .g else .s

/-- CPY's checks, in the order of R233: the cause and the address. -/
def copyCheck (la : Launch) (dir dst src n bar : Nat) : Option (Nat × Nat) :=
  let past (sp : Space) (a : Nat) (lim : Nat) (want : Space) : Bool := sp = want && n != 0 && lim < a + n
  if 2 ^ 24 < n || (bar != 2 ^ 32 - 1 && bar % 8 != 0) then some (copyDesc, 0)
  else if past (copySrc dir) src la.scr .s then some (scratchRange, max src la.scr)
  else if past (copyDst dir) dst la.scr .s then some (scratchRange, max dst la.scr)
  else if bar != 2 ^ 32 - 1 && la.scr < bar + 8 then some (scratchRange, max bar la.scr)
  else if past (copySrc dir) src (2 ^ 57) .g then some (addressRange, max src (2 ^ 57))
  else if past (copyDst dir) dst (2 ^ 57) .g then some (addressRange, max dst (2 ^ 57))
  else none

/-- CPY (R231 to R234). -/
def actCpy : Act := fun c =>
  if c.adm = 0 then .ok c
  else if c.blk.prod = 0xFF || c.wid != c.blk.prod then .error (.of copyNotProducer)
  else
    let l := c.lane
    let dir := bitsAt c.f.mod 0 2
    let dst := if copyDst dir = .g then (c.rd64 c.f.a l).toNat else c.rd32 c.f.a l
    let src := if copySrc dir = .g then (c.rd64 c.f.b l).toNat else c.rd32 c.f.b l
    let n := (c.rd c.f.c 0 l).toNat
    let bar := (c.rd c.f.c 1 l).toNat
    let op := c.w.nextOp
    match copyCheck c.la dir dst src n bar with
    | some (cause, a) => .ok (c.startFault (some 0) (.sourcesRead [] 0) (c.info cause a))
    | none =>
      if n = 0 then .ok ((c.start (some 0) (.sourcesRead [] 0)).batchDone op)
      else .ok (c.start (some 0) (.copy dir dst src n (if bar = 2 ^ 32 - 1 then none else some bar) none
        (copyPieces (n / 16 + 2) dst 0 n) false))

/-! ### Barrier words (R237) -/

def barPend (w : Nat) : Nat := w % 2 ^ 36
def barArr (w : Nat) : Nat := w / 2 ^ 36 % 2 ^ 12
def barExp (w : Nat) : Nat := w / 2 ^ 48 % 2 ^ 12
def barZero (w : Nat) : Bool := w / 2 ^ 60 % 8 = 0
def barPh (w : Nat) : Bool := w.testBit 63

/-- A barrier word from its fields, with the reserved bits of `w`. -/
def barMake (w pend arr : Nat) (ph : Bool) : Nat :=
  pend % 2 ^ 36 + 2 ^ 36 * (arr % 2 ^ 12) + 2 ^ 48 * (w / 2 ^ 48 % 2 ^ 15) + (if ph then 2 ^ 63 else 0)

/-- Settle (R237). -/
def barSettle (w : Nat) : Nat :=
  if barArr w = barExp w && barPend w = 0 then barMake w 0 0 (!barPh w) else w

/-- Arrive (R237); none where it faults with BARRIER_STATE. -/
def barArrive (w bytes : Nat) : Option Nat :=
  if barExp w = 0 || !barZero w || barArr w = barExp w then none
  else some (barSettle (barMake w (barPend w + bytes) (barArr w + 1) (barPh w)))

/-- A copy's subtraction (R234, R237). -/
def barSubtract (w bytes : Nat) : Nat :=
  let x := barMake w (barPend w + 2 ^ 36 - bytes % 2 ^ 36) (barArr w) (barPh w)
  if barExp w != 0 && barZero w then barSettle x else x

/-- BARX without .arv (R239). -/
def barAnnounce (w bytes : Nat) : Option Nat :=
  if barExp w = 0 || !barZero w then none
  else some (barSettle (barMake w (barPend w + bytes) (barArr w) (barPh w)))

/-- Writes a barrier word. -/
def Mach.setBar (m : Mach) (t b : Nat) (global : Bool) (keys : List Nat) (x : Nat) : Mach :=
  m.updateAt t b (if global then .g else .s) keys (leBytes x 8)

/-! ### A copy's pieces (R234) -/

/-- The places of a range in the space that a copy moves to or from. -/
def Mach.copyKeys (m : Mach) (blk : Block) (sp : Space) (acc : Access) (a n : Nat) : Except (Nat × Nat) (List Nat) :=
  match sp with
  | .g => m.coreKeys blk.core blk.ctx acc a n
  | _ => .ok ((List.range n).map (fun i => a + i))

/-- A copy that has not read all of its source: a later one of the warp reads its own after it (06_isa_control.md R143). -/
def Op.unread (o : Op) : Bool :=
  o.fault.isNone && match o.payload with
  | .copy _ _ _ _ _ data _ _ => data.isNone
  | .bulk _ here => here && !o.batchDone
  | _ => false

/-- Whether a copy may read its source: every earlier store, atomic and fence of its warp has performed, and every earlier load
and copy has read (R234, R235, 06_isa_control.md R143). -/
def Warp.sourceTurn (w : Warp) (seq : Nat) : Bool :=
  w.drained seq && !w.held Op.holdsStores seq && !w.held Op.unread seq

/-- A copy's source: what has been read of it before, or its bytes now; or the places of uncorrectable data that it would move
(R234, 16_die.md R300). -/
def Mach.copySource (m : Mach) (blk : Block) (dir src n : Nat) : Option (List Byte) → Except (Nat × Nat) (List Nat ⊕ Mach × List Byte)
  | some d => .ok (.inr (m, d))
  | none =>
    match m.copyKeys blk (copySrc dir) .read src n with
    | .error e => .error e
    | .ok keys =>
      if copySrc dir != .g then .ok (.inr (m, m.placeBytes blk (copySrc dir) keys))
      else if m.anyBad keys then .ok (.inl keys)
      else .ok (.inr (m.brought blk.ctx src n keys, m.bytes keys))

/-- COPY_PIECE_LAND: the piece at an offset lands and subtracts from its barrier. Every source byte is read
before the first piece lands (R234). -/
def Mach.copyLand (m : Mach) (t b w op piece : Nat) : Option Mach :=
  match m.warp b w with
  | none => none
  | some (blk, x) =>
    match x.ops.find op with
    | none => none
    | some o =>
      match o.payload with
      | .copy dir dst src n bar data pieces landed =>
        match pieces.find? (fun p => p.1 = piece) with
        | none => none
        | some (off, k) =>
          if o.fault.isSome || !m.alive blk || (data.isNone && !x.sourceTurn o.seq) then none
          else
            let fails (e : Nat × Nat) : Option Mach := some (m.setWarp b w (x.failOp op (o.info e.1 e.2)))
            match m.copySource blk dir src n data with
            | .error e => fails e
            | .ok (.inl keys) => some (m.consume t blk.ctx keys)
            | .ok (.inr (m, d)) =>
              match m.copyKeys blk (copyDst dir) .write (dst + off) k with
              | .error e => fails e
              | .ok keys =>
                let rest := pieces.filter (fun p => p.1 != piece)
                let x := x.setPayload op (.copy dir dst src n bar (some d) rest (landed || rest.isEmpty))
                let x := { x with ops := x.ops.upd op (fun o => { o with batchDone := rest.isEmpty }) }
                let m := m.setWarp b w x
                let bytes := (d.drop off).take k
                let m := match copyDst dir with
                  | .g => m.consumeWrite t blk.ctx keys (fun m => m.storeThrough blk.part blk.core blk.ctx keys bytes)
                  | _ => m.updateAt t b .s keys bytes
                match bar, m.block b with
                | some bar, some blk =>
                  if m.alive blk then
                    some (m.setBar t b false ((List.range 8).map (fun i => bar + i)) (barSubtract (m.barWord blk false bar) k))
                  else some m
                | _, _ => some m
      | _ => none

/-! ### CPYB (R235) -/

/-- A reserved target (R235). -/
def targetOk (x : Nat) : Bool := x < 0x1000 || x = 0xFFFE || x = 0xFFFF

/-- Whether a target lies outside the package: the host, or another package (21_fabric.md R363). -/
def Mach.outside (m : Mach) (x : Nat) : Bool := x = 0xFFFF || (x < 0x1000 && x != m.pkg.toNat)

/-- A ring descriptor that R236 permits. -/
def RingDesc.ok (r : RingDesc) : Bool :=
  r.logn ≤ 16 && r.base % (32 * 2 ^ r.logn) = 0 && 1 ≤ r.sc && r.sc ≤ 5 && r.zero = 0

/-- A CPYB's operands and its bulk record (R235). -/
structure CpybRec where
  dst   : Nat
  src   : Nat
  dstT  : Nat
  srcT  : Nat
  count : Nat
  tag   : Word
  ring  : Nat
  deriving DecidableEq, Repr

/-- The operands and the record from what was read at issue in a lane. -/
def cpybRec (a b s : FMap 32) (l : Nat) : CpybRec :=
  let w (k : Nat) : Nat := (s.get (resKey k l)).toNat
  { dst := cap64 a l, src := cap64 b l, dstT := w 1 % 2 ^ 16, srcT := w 1 / 2 ^ 16, count := w 0, tag := s.get (resKey 2 l),
    ring := w 3 + 2 ^ 32 * w 4 }

/-- A record that faults with COPY_DESC whatever its ring's descriptor holds (R235, 21_fabric.md R363). -/
def Mach.cpybBad (m : Mach) (r : CpybRec) : Bool :=
  let wide (tg a : Nat) : Bool := tg != 0xFFFF && 2 ^ 57 ≤ a
  !targetOk r.dstT || !targetOk r.srcT || (m.outside r.dstT && m.outside r.srcT) || r.ring = 0 || r.ring % 32 != 0 ||
    wide r.dstT r.dst || wide r.srcT r.src || 2 ^ 57 ≤ r.ring

/-- Enters a transfer in the block-transfer engine (R235). -/
def Mach.startBulk (m : Mach) (t b w op : Nat) (blk : Block) (r : CpybRec) : Mach :=
  { m with
    nextId := m.nextId + 1
    bulks := m.bulks.put m.nextId
      { ctx := blk.ctx, blk := b, warp := w, op := op, dst := r.dst, src := r.src, dstT := r.dstT, srcT := r.srcT,
        count := r.count, tag := r.tag, ring := r.ring, data := none, moved := 0, status := 0, cause := 0, done := false,
        fin := 0, start := t } }

/-- CPYB (R231, R232, R235): it reads its ring's descriptor as a load at .b, checks it with its record, and starts the transfer.
Where the load must wait for earlier accesses of the warp, all that comes at its turn. -/
def actCpyb : Act := fun c =>
  if c.adm = 0 then .ok c
  else if c.blk.prod = 0xFF || c.wid != c.blk.prod then .error (.of copyNotProducer)
  else
    let a := c.capture c.f.a 2
    let b := c.capture c.f.b 2
    let s := c.capture c.f.c 5
    let r := cpybRec a b s c.lane
    let retry : Payload := .retry c.i a b s
    let fails (c : Cx) : Except Trap Cx := .ok (c.startFault (some 0) (.sourcesRead [] 0) (c.info copyDesc 0))
    if c.m.cpybBad r then fails c
    else
      let (m, ks) := c.m.checkLanes c.blk c.la .g false .read 32 c.ia c.cl.slot [(c.lane, r.ring)]
      let c := { c with m := m }
      match ks with
      | .error _ => fails c
      | .ok ks =>
        let keys := ks.foldr (fun e l => e.2 ++ l) []
        if c.w.loadWaits c.w.seq .g false keys then .ok (c.start (some 0) retry)
        else if c.m.anyBad (c.m.sliceKeys c.blk c.w.queue .g keys) then
          .ok ((c.start (some 0) retry).viaMach (fun m => m.consume c.t c.blk.ctx (c.m.sliceKeys c.blk c.w.queue .g keys)))
        else
          let (m, bs) := c.m.loadLanes c.block c.la c.w.queue c.t .g ks
          let c := { c with m := m }
          if (RingDesc.ofBytes ((bs.headD (0, [])).2)).ok then
            .ok (({ c with m := c.m.startBulk c.t c.bid c.wid c.w.nextOp c.blk r }).start (some 0) (.bulk c.m.nextId (!c.m.outside r.srcT)))
          else fails c

/-- The queue entries of operations issued before one. -/
def Warp.before (w : Warp) (seq : Nat) : List QEntry := w.queue.filter (fun q => q.seq < seq)

/-- The turn of a CPYB whose load of the descriptor waited (07_core_memory.md R156); none while it waits. -/
def Mach.cpybTurn (m : Mach) (t b w op : Nat) (blk : Block) (x : Warp) (o : Op) (a y z : FMap 32) : Option Mach :=
  let la := m.launchOf blk
  let r := cpybRec a y z ((lowestBit o.mask).getD 0)
  let fails (m : Mach) : Option Mach := some (m.setWarp b w (x.failOp op (o.info copyDesc 0)))
  let (m, ks) := m.checkLanes blk la .g false .read 32 o.ia o.slot [(0, r.ring)]
  match ks with
  | .error _ => fails m
  | .ok ks =>
    let keys := ks.foldr (fun e l => e.2 ++ l) []
    if x.loadWaits o.seq .g false keys then none
    else if m.anyBad (m.sliceKeys blk (x.before o.seq) .g keys) then
      some (m.consume t blk.ctx (m.sliceKeys blk (x.before o.seq) .g keys))
    else
      let (m, bs) := m.loadLanes blk la (x.before o.seq) t .g ks
      if (RingDesc.ofBytes ((bs.headD (0, [])).2)).ok then
        some ((m.startBulk t b w op blk r).setWarp b w (x.setPayload op (.bulk m.nextId (!m.outside r.srcT))))
      else fails m

/-! ### Batches (R228 to R230) -/

/-- How many batches of its class have been closed since batch n, and whether it is outstanding (R230). -/
def Batches.age (q : Batches) (n : Nat) : Nat := (q.open_ - 1 - BitVec.ofNat 16 n).toNat
def Batches.outstanding (q : Batches) (n : Nat) : Bool := q.age n < q.out

/-- The fault mark of a batch that has retired: the fault of its first faulted operation, in issue order (R230). -/
def Batches.mark (q : Batches) (n : Nat) : Option FaultInfo := (q.bad.find? (fun e => e.2.1 = n)).map (fun e => e.2.2)

/-- A batch's number becomes the open one's: its marks of an earlier round go. -/
def Batches.close (q : Batches) : Batches :=
  { open_ := q.open_ + 1, out := q.out + 1, bad := q.bad.filter (fun e => e.2.1 != (q.open_ + 1).toNat) }

/-- The operations of a batch, oldest first. -/
def Warp.batchOps (w : Warp) (cls n : Nat) : List (Nat × Op) := w.ops.filter (fun e => e.2.batch = some (cls, n))

/-- A BWAIT's report of the first fault among the batches that it waits for: IADDR names the BWAIT (R230). -/
def bwaitInfo (ia slot : Nat) (mask : Mask) (f : FaultInfo) : FaultInfo := { f with ia := ia, fmask := mask, slot := slot, lane := 0xFF }

/-- BCLOSE (R228). -/
def actBclose : Act := fun c =>
  if c.adm = 0 then .ok c
  else
    let k := bitsAt c.f.fn 0 2
    let q := c.w.batch k
    let r := c.result32 (fun _ => q.open_.toNat)
    .ok (({ c with w := c.w.setBatch k q.close }).start none (.result r))

/-- The batches outstanding at issue that a BWAIT waits for, with the fault of one that has retired, or BATCH_OPEN (R230). A `.n`
wait on a batch that has retired reports its fault mark all the same (DEDUCED, log entry 36). -/
def Warp.bwaitBatches (w : Warp) (k : Nat) (le : Bool) (a : Nat) : Option (List Nat × List (Nat × FaultInfo)) :=
  let q := w.batch k
  let num (i : Nat) : Nat := (q.open_ - 1 - BitVec.ofNat 16 i).toNat
  if le then
    if q.out ≤ a then some ([], [])
    else some ((List.range (q.out - a)).map (fun i => num (q.out - 1 - i)), [])
  else
    let n := a % 2 ^ 16
    if n = q.open_.toNat then none
    else if q.outstanding n then some ([n], [])
    else match q.mark n with
      | some f => some ([], [(n, f)])
      | none => some (if (w.batchOps k n).isEmpty then [] else [n], [])

/-- BWAIT (R230). One that names no flag orders nothing and never faults. -/
def actBwait : Act := fun c =>
  if c.adm = 0 || c.flagNo = none then .ok c
  else
    let k := bitsAt c.f.fn 0 2
    match c.w.bwaitBatches k (c.f.fn.getLsbD 2) (c.rd32 c.f.a c.lane) with
    | none => .ok (c.startFault none (.sourcesRead [] 0) (c.info batchOpen 0))
    | some (bs, fs) => .ok (c.start none (.bwait k bs (fs.map (fun e => (e.1, bwaitInfo c.ia c.cl.slot c.adm e.2)))))

/-- A batch retires: the faults of its operations become its marks (R229, R230). -/
def Batches.marked (q : Batches) (n : Nat) (ops : List (Nat × Op)) : Batches :=
  { q with bad := ops.foldl (fun l e => match e.2.fault with
      | some f => l.put e.1 (n, f)
      | none => l) q.bad }

/-- Whether every operation of a batch is complete or has faulted (R229). -/
def Warp.batchOver (w : Warp) (cls n : Nat) : Bool := (w.batchOps cls n).all (fun e => e.2.batchDone || e.2.fault.isSome)

/-- An operation that stands at a translation fault: once that is resolved it is outstanding again (18_traps.md R343). -/
def Op.unresolved (o : Op) : Bool :=
  match o.fault with
  | some f => isTranslation f.cause
  | none => false

/-- Whether a batch holds an operation that is to be outstanding again. -/
def Warp.batchHeld (w : Warp) (cls n : Nat) : Bool := (w.batchOps cls n).any (fun e => e.2.unresolved)

/-- A batch that has retired with an operation at a translation fault, which has been resolved and is over since (DEDUCED, log
entry 36). -/
def Warp.lateBatch (w : Warp) (cls : Nat) : Option Nat :=
  let q := w.batch cls
  w.ops.findSome? (fun e => match e.2.batch with
    | some (k, n) =>
      if k = cls && n != q.open_.toNat && !q.outstanding n && w.batchOver cls n && !w.batchHeld cls n then some n else none
    | none => none)

/-- The batch of a class that retires next, and whether it leaves OUT: the oldest outstanding one, once over (R229); else a
late one. -/
def Warp.retiring (w : Warp) (cls : Nat) : Option (Nat × Bool) :=
  let q := w.batch cls
  let n := (q.open_ - BitVec.ofNat 16 q.out).toNat
  if q.out != 0 && w.batchOver cls n then some (n, true) else (w.lateBatch cls).map (fun n => (n, false))

/-- Enters a batch's fault among those of a BWAIT, oldest batch first (R230). -/
def Batches.insertFault (q : Batches) (n : Nat) (f : FaultInfo) : List (Nat × FaultInfo) → List (Nat × FaultInfo)
  | [] => [(n, f)]
  | e :: es => if q.age e.1 < q.age n then (n, f) :: e :: es else e :: q.insertFault n f es

/-- The exceptions that an operation has raised and that have not entered FLAGS (04_numbers.md R90). -/
def Payload.raised : Payload → BitVec 5
  | .sourcesRead _ y => y
  | .splat _ _ _ _ _ _ y => y
  | _ => 0

/-- The payload once they have. -/
def Payload.entered : Payload → Payload
  | .sourcesRead xs _ => .sourcesRead xs 0
  | .splat i a b d s st _ => .splat i a b d s st 0
  | p => p

/-- Whether a GADD has terms still to add. -/
def Payload.adds : Payload → Bool
  | .terms .. => true
  | _ => false

/-- Operations that no longer matter leave the table: the flag has completed, the batch has retired, nothing is left to add, and no
flag's fault bit stands for a fault (R24). -/
def Op.gone (o : Op) : Bool :=
  o.flagDone && o.batch = none && (o.fault.isNone || (o.reported && o.flag.isNone)) && !o.payload.adds

/-- An operation as a batch retires: one of the batch leaves it, unless it is to be outstanding again; a BWAIT waits for it no
longer and keeps its fault (R229, R230). -/
def Op.retired (o : Op) (q : Batches) (cls n : Nat) : Op :=
  let o := if o.batch = some (cls, n) then
      { o with payload := o.payload.entered, batch := if o.unresolved then o.batch else none }
    else o
  match o.payload with
  | .bwait k bs fs =>
    if k = cls && bs.contains n then
      let fs := match q.mark n with
        | some f => q.insertFault n (bwaitInfo o.ia o.slot o.mask f) fs
        | none => fs
      { o with payload := .bwait k (bs.filter (fun y => y != n)) fs }
    else o
  | _ => o

/-- BATCH_RETIRE: a batch of a class retires (R229). What its operations have raised enters FLAGS and OVF by then (04_numbers.md
R90, 08_field_unit.md R190). -/
def Mach.batchRetire (m : Mach) (t b w cls : Nat) : Option Mach :=
  match m.warp b w with
  | none => none
  | some (blk, x) =>
    match x.retiring cls with
    | none => none
    | some (n, counts) =>
      if !m.alive blk then none
      else
        let x := x.settle t
        let ops := x.batchOps cls n
        let q := (x.batch cls).marked n ops
        let flags : Num.Exc := ops.foldl (fun f e => f ||| e.2.payload.raised) 0#5
        let x := (x.setBatch cls (if counts then { q with out := q.out - 1 } else q)).orFlags flags
        let x := { x with ops := (x.ops.mapVal (fun o => o.retired q cls n)).filter (fun e => !e.2.gone) }
        let blk := if flags = 0 then blk else
          { blk with armPend := blk.armPend ++ [{ at_ := t, warp := w, wr := .ovfOr flags }] }
        some (m.setBlock b (blk.setWarp w x))

/-! ### BAR, BARX and CBAR (R238, R239, 15_cluster.md R285) -/

/-- BAR, BARX and CBAR enter with their operands; they act once earlier accesses have performed (R163). -/
def actBar (na nb : Nat) : Act := fun c => .ok (c.start none (.retry c.i (c.capture c.f.a na) (c.capture c.f.b nb) []))

/-- What a barrier operation's turn gives. -/
inductive BarRan where
  | killed
  | fault (f : FaultInfo)
  | wait (p : Payload)
  | done (r : Result)
  deriving DecidableEq, Repr

/-- Whether a barrier operation's word lies in global memory, and the operation's kind: 0 arrive, 1 wait,
2 sync, 3 BARX. -/
def barForm (i : Instr) : Bool × Nat :=
  match i with
  | .barArrive _ => (false, 0)
  | .barWait _ => (false, 1)
  | .barSync _ => (false, 2)
  | .barx _ => (false, 3)
  | .cbarArrive _ => (true, 0)
  | .cbarWait _ => (true, 1)
  | _ => (true, 2)

/-- A barrier operation's turn: its checks, its update of the word (R237 to R239), or the start of its wait. -/
def Mach.barTurn (m : Mach) (t b : Nat) (blk : Block) (o : Op) (i : Instr) (f : Fields) (a x : FMap 32) : Mach × BarRan :=
  let la := m.launchOf blk
  let (glob, kind) := barForm i
  let sp : Space := if glob then .g else .s
  let addr := if glob then o.once64 a else o.once32 a
  let (m, r) := m.checkLanes blk la sp true (if kind = 1 then .read else .write) 8 o.ia o.slot [(0, addr)]
  match r with
  | .error e => (m, .fault { e with fmask := o.mask })
  | .ok ks =>
    let keys := ks.foldr (fun e l => e.2 ++ l) []
    let key := keys.headD 0
    let w := m.barWord blk glob key
    if glob && m.anyBad keys then (m.consume t blk.ctx keys, .killed)
    else
    let bad : Mach × BarRan := (m, .fault (o.info barrierState addr))
    let m := if glob then m.claim blk.ctx keys else m
    if kind = 1 then (m, .wait (.barWait glob key ((o.once32 x).testBit 0) (barPh w != (o.once32 x).testBit 0)))
    else if glob && barPend w != 0 then bad
    else
      let arv := kind != 3 || f.mod.getLsbD 0
      let bytes := if kind = 3 then o.once32 x else 0
      match (if arv then barArrive w bytes else barAnnounce w bytes) with
      | none => bad
      | some w' =>
        let m := m.setBar t b glob keys w'
        if kind = 2 then (m, .wait (.barWait glob key (barPh w) (barPh w' != barPh w)))
        else if kind = 0 then (m, .done (o.result f 1 (fun _ _ => if barPh w then 1 else 0) 0))
        else (m, .done Result.none)

/-! ### SLEEP and WAKE (R241, R242) -/

/-- SLEEP (R241): the word is read at issue, and a wake that is pending is taken. -/
def actSleep : Act := fun c =>
  if c.adm = 0 then .ok c
  else
    let f := c.f
    let l := c.lane
    let sp : Space := if f.mod.getLsbD 16 then .s else .g
    let addr := if sp = .g then (c.rd64 f.a l).toNat else c.rd32 f.a l
    let acq := f.mod.getLsbD 12
    let scope := scopeIn sp (bitsAt f.mod 9 3)
    let (m, r) := c.m.checkLanes c.blk c.la sp true .read 4 c.ia c.cl.slot [(l, addr)]
    let c := { c with m := m }
    let op := c.w.nextOp
    match r with
    | .error e => .ok (c.startFault none (.retry c.i (c.capture f.a 2) (c.capture f.b 1) (c.capture f.c 1)) { e with fmask := c.adm })
    | .ok ks =>
      let keys := (ks.headD (0, [])).2
      let key := keys.headD 0
      let n := c.rd32 f.c l
      let reads := sp = .g && c.w.drained c.w.seq
      let read := if acq && 2 ≤ scope then keys else c.m.missKeys c.blk.part c.blk.core c.blk.ctx keys
      let c := if reads then { c with m := c.m.claim c.blk.ctx read } else c
      let c := c.start none (.sleep sp key addr (c.rd f.b 0 l) (if n = 0 then none else some (c.t + n)) acq scope f.d c.w.wake)
      let w := { c.w with sleeping := op :: c.w.sleeping, wake := false }
      let c := { c with w := { w with ops := w.ops.upd op (fun o => o.reread c.m c.blk w) } }
      .ok (if reads && c.m.anyBad read then c.viaMach (fun m => m.consume c.t c.blk.ctx read) else c)

/-- A SLEEP is over (R241). -/
def Op.endSleep (o : Op) : Op :=
  match o.payload with
  | .sleep sp key addr cmp due acq scope dest _ => { o with payload := .sleep sp key addr cmp due acq scope dest true }
  | _ => o

/-- SLEEP_TIMEOUT: C cycles have passed since issue (R241). -/
def Mach.sleepTimeout (m : Mach) (now b w op : Nat) : Option Mach :=
  match m.warp b w with
  | none => none
  | some (_, x) =>
    match x.ops.find op with
    | none => none
    | some o =>
      match o.payload with
      | .sleep _ _ _ _ (some due) _ _ _ false =>
        if due ≤ now then some (m.setWarp b w { x with ops := x.ops.put op o.endSleep }) else none
      | _ => none

/-- Every SLEEP of a warp is over: the warp sleeps until all have completed (R241). -/
def Warp.endSleeps (w : Warp) : Warp := { w with ops := w.sleeping.foldl (fun ops op => ops.upd op Op.endSleep) w.ops }

/-- One named warp of a WAKE (R242). -/
def Warp.wakeUp (w : Warp) : Warp :=
  if w.ended then w
  else
    match w.sleeping with
    | [] => { w with wake := true }
    | _ => w.endSleeps

/-- WAKE performs (R242). -/
def Block.wakeAll (blk : Block) (mask : DWord) : Block :=
  { blk with warps := blk.warps.map (fun e => if mask.getLsbD e.1 then (e.1, e.2.wakeUp) else e) }

/-- WAKE (R242). -/
def actWake : Act := fun c => .ok (c.start none (.wake (c.rd64 c.f.a c.lane)))

/-- CPY (R234): Copies bytes between scratchpad and global memory, subtracting from a barrier as pieces land. -/
def execCpy (w : CForm) (s : State) : Host.Outcome State Fault Refusal := issue (.cpy w) actCpy s

/-- CPYB (R235): Starts a bulk transfer between packages or the host. -/
def execCpyb (w : CForm) (s : State) : Host.Outcome State Fault Refusal := issue (.cpyb w) actCpyb s

/-- BCLOSE (R228): Closes the open batch of a class. -/
def execBclose (w : CForm) (s : State) : Host.Outcome State Fault Refusal := issue (.bclose w) actBclose s

/-- BWAIT (R230): Waits for the retirement of batches. -/
def execBwait (w : CForm) (s : State) : Host.Outcome State Fault Refusal := issue (.bwait w) actBwait s

/-- BAR_ARRIVE (R238): Arrives at a scratchpad barrier and returns its phase. -/
def execBarArrive (w : CForm) (s : State) : Host.Outcome State Fault Refusal := issue (.barArrive w) (actBar 1 0) s

/-- BAR_WAIT (R238): Waits until the barrier's phase differs from a token. -/
def execBarWait (w : CForm) (s : State) : Host.Outcome State Fault Refusal := issue (.barWait w) (actBar 1 1) s

/-- BAR_SYNC (R238): Arrives and waits for the phase to flip. -/
def execBarSync (w : CForm) (s : State) : Host.Outcome State Fault Refusal := issue (.barSync w) (actBar 1 0) s

/-- BARX (R239): Announces pending bytes to a barrier, optionally arriving. -/
def execBarx (w : CForm) (s : State) : Host.Outcome State Fault Refusal := issue (.barx w) (actBar 1 1) s

/-- SLEEP (R241): Puts the warp to sleep until a word changes, a wake, a timeout or a halt. -/
def execSleep (w : CForm) (s : State) : Host.Outcome State Fault Refusal := issue (.sleep w) actSleep s

/-- WAKE (R242): Wakes named warps or sets their wake-pending bits. -/
def execWake (w : CForm) (s : State) : Host.Outcome State Fault Refusal := issue (.wake w) actWake s

/-- CBAR_ARRIVE (R285): Arrives at a global barrier word. -/
def execCbarArrive (w : CForm) (s : State) : Host.Outcome State Fault Refusal := issue (.cbarArrive w) (actBar 2 0) s

/-- CBAR_WAIT (R285): Waits for a global barrier's phase to differ from a token. -/
def execCbarWait (w : CForm) (s : State) : Host.Outcome State Fault Refusal := issue (.cbarWait w) (actBar 2 1) s

/-- CBAR_SYNC (R285): Arrives at a global barrier and waits for its phase flip. -/
def execCbarSync (w : CForm) (s : State) : Host.Outcome State Fault Refusal := issue (.cbarSync w) (actBar 2 0) s

end Sys2Proof.Machine
end

