-- ==== Sys2Proof/Machine/Lanes.lean ====
section
/-!
DEFINITION. Predicates, exchange across lanes and reading warp state (06_isa_control.md R115 to R129).
-/
namespace Sys2Proof.Machine
open Sys2Proof
open Sys2Proof.Num

/-- A result of predicates alone, in the admitted lanes. -/
def Cx.resultPreds (c : Cx) (ps : List (Nat × Mask)) (x : Exc) : Result :=
  { Result.none with mask := c.adm, preds := ps, flags := x }

/-- COMB: how a comparison enters its predicate (R116). -/
def combine (comb : Nat) (old new : Mask) : Mask :=
  match comb with
  | 0 => new
  | 1 => old &&& new
  | 2 => old ||| new
  | _ => old ^^^ new

/-- The integer relations of CMP 0 to 5 (R116). -/
def relInt (cmp : Nat) (a b : Int) : Bool :=
  match cmp with
  | 0 => decide (a = b)
  | 1 => decide (a ≠ b)
  | 2 => decide (a < b)
  | 3 => decide (a ≤ b)
  | 4 => decide (b < a)
  | _ => decide (b ≤ a)

/-- A compare's predicates under INV and COMB, which read the old values at issue (R116). -/
def Cx.setp (c : Cx) (cmps : List (Nat × Mask)) : List (Nat × Mask) :=
  cmps.map (fun e =>
    let x := if c.f.mod.getLsbD 10 then ~~~e.2 else e.2
    (e.1, combine (bitsAt c.f.mod 8 2) (c.w.pred e.1) x))

/-- ISETP (R116). -/
def actIsetp : Act := fun c =>
  let w := if c.f.mod.getLsbD 3 then 64 else 32
  let v (o : Operand) (l : Nat) : Int :=
    let x := if w = 64 then (c.rd64 o l).toNat else c.rd32 o l
    if c.f.fn = 0 then sx w x else x
  let m := c.where_ (fun l => relInt (bitsAt c.f.mod 0 3) (v c.f.a l) (v c.f.b l))
  .ok (c.fixed 1 false 0 (c.resultPreds (c.setp [(bitsAt c.f.mod 4 3, m)]) 0))

/-- The relations of FSETP (R116). -/
def relFloat (cmp : Nat) (a b : Val) : Bool :=
  let un := a.isNan || b.isNan
  let o := if un then .eq else Num.cmp a b
  let rel (k : Nat) : Bool :=
    match k with
    | 0 => o == .eq
    | 1 => o != .eq
    | 2 => o == .lt
    | 3 => o != .gt
    | 4 => o == .gt
    | _ => o != .lt
  if cmp = 6 then !un
  else if cmp = 7 then un
  else if cmp < 6 then !un && rel cmp
  else un || rel (cmp - 8)

/-- FSETP: element i goes to p(PD + i); invalid for a signalling NaN, and for a quiet one under .lt, .le,
.gt and .ge (R116, R117). -/
def actFsetp : Act := fun c =>
  let fn := c.f.fn.toNat
  let f := fpFmt fn
  let cmp := bitsAt c.f.mod 0 4
  let v (o : Operand) (l i : Nat) : Val := flush f (modeFtz c.mode) (decodeF f (elemOf f.bits i (c.rdF f o l)))
  let is := List.range (fpElems fn)
  let ms := is.map (fun i =>
    (bitsAt c.f.mod 4 3 + i, c.where_ (fun l => relFloat cmp (v c.f.a l i) (v c.f.b l i))))
  let bad := c.lanes.any (fun l => is.any (fun i =>
    let a := v c.f.a l i
    let b := v c.f.b l i
    a.isSnan || b.isSnan || ((a.isNan || b.isNan) && 2 ≤ cmp && cmp ≤ 5)))
  fixedExcAct (fpLat c.f.fn) false (fun c => c.resultPreds (c.setp ms) (if bad then nv else 0)) c

/-- PLOP's reduction of the chosen predicates (R118). -/
def plop (fn : Nat) (xs : List Bool) : Bool :=
  let k := (xs.filter (fun x => x)).length
  let r := match fn % 4 with
    | 0 => k = xs.length
    | 1 => k != 0
    | 2 => k % 2 = 1
    | _ => k = 1
  if fn < 4 then r else !r

def actPlop : Act := fun c =>
  let ns := (List.range 7).filter (fun n => c.f.mod.getLsbD n)
  let m := c.where_ (fun l => plop c.f.fn.toNat (ns.map (fun n => (c.w.pred n).getLsbD l != c.f.mod.getLsbD (7 + n))))
  .ok (c.fixed 1 false 0 (c.resultPreds [(bitsAt c.f.mod 14 3, m)] 0))

def actPmovP2v : Act := fixedAct 1 (fun c => c.result32 (fun l =>
  ofBits 8 (fun j => c.f.mod.getLsbD j && (c.w.pred j).getLsbD l)))

def actPmovV2p : Act := fun c =>
  let js := (List.range 7).filter (fun j => c.f.mod.getLsbD j)
  .ok (c.fixed 1 false 0 (c.resultPreds (js.map (fun j => (j, c.where_ (fun l => (c.rd32 c.f.a l).testBit j)))) 0))

/-- VOTE over the admitted lanes (R120). -/
def actVote : Act := fun c =>
  let p := c.w.pred (bitsAt c.f.mod 0 3)
  let v := c.where_ (fun l => p.getLsbD l != c.f.mod.getLsbD 3)
  let fn := c.f.fn.toNat
  if fn = 3 then .ok (c.fixed 1 true 0 (c.resultBits 64 (fun _ => v.toNat)))
  else
    let b : Bool := if fn = 0 then v = c.adm else if fn = 1 then v != 0 else v = 0 || v = c.adm
    .ok (c.fixed 1 false 0 (c.resultPreds [(bitsAt c.f.mod 4 3, if b then BitVec.allOnes 64 else 0)] 0))

/-- S, the lanes of a segment (R121). -/
def Cx.segSize (c : Cx) : Nat :=
  let s := bitsAt c.f.mod 4 3
  if s = 0 then c.blk.width else min (4 * 2 ^ s) c.blk.width

/-- The base of a lane's segment (R121). -/
def Cx.segBase (c : Cx) (l : Nat) : Nat := l - l % c.segSize

/-- The admitted lanes of a lane's segment, rising. -/
def Cx.segLanes (c : Cx) (l : Nat) : List Nat :=
  c.lanes.filter (fun j => c.segBase l ≤ j && j < c.segBase l + c.segSize)

/-- The lane that SHFL reads, where it exists (R122). -/
def Cx.shflLane (c : Cx) (l b : Nat) : Option Nat :=
  let s := c.segSize
  let base := c.segBase l
  match c.f.fn.toNat with
  | 0 => some (base + b % s)
  | 1 => if b < s && base + b ≤ l then some (l - b) else none
  | 2 => if b < s && l + b < base + s then some (l + b) else none
  | _ => some (Nat.xor l (b % s))

def actShfl : Act := fun c =>
  let w := if c.f.mod.getLsbD 7 then 64 else 32
  let from_ (l : Nat) : Option Nat :=
    match c.shflLane l (c.rd32 c.f.b l) with
    | some j => if c.adm.getLsbD j then some j else none
    | none => none
  let r := c.resultN (w / 32) (fun l o => c.rd c.f.a o ((from_ l).getD l))
  let valid := c.where_ (fun l => (from_ l).isSome)
  .ok (c.fixed 4 true 0 (if c.f.mod.getLsbD 11 then { r with preds := [(bitsAt c.f.mod 8 3, valid)] } else r))

/-- The reductions of WRED and WSCAN (R123). -/
def reduce2 (op a b : Nat) : Nat :=
  match op with
  | 0 => (a + b) % 2 ^ 32
  | 1 => minMax 0 a b
  | 2 => minMax 1 a b
  | 3 => min a b
  | 4 => max a b
  | 5 => Nat.land a b
  | 6 => Nat.lor a b
  | _ => Nat.xor a b

/-- Their identities (R123). -/
def reduceId (op : Nat) : Nat :=
  match op with
  | 1 => 0x7FFFFFFF
  | 2 => 0x80000000
  | 3 => 0xFFFFFFFF
  | 5 => 0xFFFFFFFF
  | _ => 0

def reduceList (op : Nat) (xs : List Nat) : Nat := xs.foldl (reduce2 op) (reduceId op)

def actWred : Act := varExcAct
  (fun c => c.result32 (fun l => reduceList c.f.fn.toNat ((c.segLanes l).map (fun j => c.rd32 c.f.a j)))) (fun _ => [])

def actWscan : Act := varExcAct
  (fun c => c.result32 (fun l =>
    let js := (c.segLanes l).filter (fun j => if c.f.fn = 0 then j ≤ l else j < l)
    reduceList (bitsAt c.f.mod 12 3) (js.map (fun j => c.rd32 c.f.a j)))) (fun _ => [])

/-- WFRED: the exact sum of a segment, rounded once with the lane's own random word (R124). A trap names the lowest admitted
lane of the segment that raised it. -/
def actWfred : Act := fun c =>
  let f := fpFmt c.f.fn.toNat
  let xs := c.lanes.map (fun l =>
    let k := c.rounding (c.rd32 c.f.c l)
    let vs := inputs f k ((c.segLanes l).map (fun j => decodeF f (c.rdF f c.f.a j)))
    (l, sumProducts f k vs [] vs))
  varExcAct (fun c => c.resultOf (fpBits c.f.fn) xs) (fun c => xs.map (fun e => ((c.segLanes e.1).headD e.1, e.2.2))) c

/-- MATCH (R125). -/
def actMatch : Act := fun c =>
  let w := if c.f.mod.getLsbD 7 then 64 else 32
  let v (l : Nat) : Nat := if w = 64 then (c.rd64 c.f.a l).toNat else c.rd32 c.f.a l
  let same (l : Nat) : List Nat := (c.segLanes l).filter (fun j => v j = v l)
  let allEq (l : Nat) : Bool := (same l).length = (c.segLanes l).length
  let toMask (js : List Nat) : Nat := js.foldl (fun a j => a + 2 ^ j) 0
  varExcAct (fun c =>
    let r := c.resultBits 64 (fun l =>
      if c.f.fn = 0 then toMask (same l) else if allEq l then toMask (c.segLanes l) else 0)
    if c.f.fn = 1 && c.f.mod.getLsbD 11 then { r with preds := [(bitsAt c.f.mod 8 3, c.where_ allEq)] } else r)
    (fun _ => []) c

/-- The 32-bit selectors of S2V (R126). -/
def Cx.stateWord (c : Cx) (sel : Nat) : Word :=
  match sel with
  | 0x01 => c.w.pix
  | 0x02 => c.w.flags
  | 0x03 => c.w.wprio.zeroExtend 32
  | 0x04 => c.w.shash
  | 0x05 => c.mode
  | 0x06 => c.caps.word
  | sel =>
    if 0x08 ≤ sel && sel ≤ 0x0F then c.la.sig.getD (sel - 8) 0
    else if 0x10 ≤ sel && sel ≤ 0x17 then c.nf (sel - 0x10)
    else 0

/-- S2V: CYC is sampled when the operation completes, between issue and completion (R126, R127). -/
def actS2v : Act := fun c =>
  let sel := bitsAt c.f.mod 0 8
  if sel = 0 then .ok (c.start none (.readCyc (c.resultN 2 (fun _ _ => 0))))
  else .ok (c.fixed 1 true 0 (c.resultN 1 (fun _ _ => c.stateWord sel)))

def actFlagsRd : Act := fixedAct 1 (fun c => c.resultN 1 (fun _ _ => c.w.flags))

/-- FLAGS.clr: in its result cycle, when a lane is admitted (R128). -/
def actFlagsClr : Act := fun c =>
  if c.adm = 0 then .ok c
  else .ok (c.fixed 1 false (c.f.mod.extractLsb' 0 5) Result.none)

/-- PRIO: WPRIO changes one cycle after issue, when a lane is admitted (R129). -/
def actPrio : Act := fun c =>
  let n := if c.f.mod.getLsbD 4 then c.rd32 c.f.a 0 else bitsAt c.f.mod 0 4
  if c.adm = 0 then .ok c
  else .ok { c with w := { c.w with prioAt := some (c.t + 1, BitVec.ofNat 4 n) } }

/-- ISETP (R116): Compares integers and writes or combines a predicate. -/
def execIsetp (w : CForm) (s : State) : Host.Outcome State Fault Refusal := issue (.isetp w) actIsetp s

/-- FSETP (R116): Compares floats and writes or combines predicates. -/
def execFsetp (w : CForm) (s : State) : Host.Outcome State Fault Refusal := issue (.fsetp w) actFsetp s

/-- PLOP (R118): Reduces selected predicates to one predicate. -/
def execPlop (w : CForm) (s : State) : Host.Outcome State Fault Refusal := issue (.plop w) actPlop s

/-- PMOV_P2V (R119): Moves predicates into a register. -/
def execPmovP2v (w : CForm) (s : State) : Host.Outcome State Fault Refusal := issue (.pmovP2v w) actPmovP2v s

/-- PMOV_V2P (R119): Moves register bits into predicates. -/
def execPmovV2p (w : CForm) (s : State) : Host.Outcome State Fault Refusal := issue (.pmovV2p w) actPmovV2p s

/-- VOTE (R120): Votes a predicate across admitted lanes, or writes the ballot mask. -/
def execVote (w : CForm) (s : State) : Host.Outcome State Fault Refusal := issue (.vote w) actVote s

/-- SHFL (R122): Exchanges values between lanes of a segment. -/
def execShfl (w : CForm) (s : State) : Host.Outcome State Fault Refusal := issue (.shfl w) actShfl s

/-- WRED (R123): Reduces 32-bit integers across a segment. -/
def execWred (w : CForm) (s : State) : Host.Outcome State Fault Refusal := issue (.wred w) actWred s

/-- WSCAN (R123): Scans 32-bit integers across a segment. -/
def execWscan (w : CForm) (s : State) : Host.Outcome State Fault Refusal := issue (.wscan w) actWscan s

/-- WFRED (R124): Sums floats across a segment exactly and rounds once. -/
def execWfred (w : CForm) (s : State) : Host.Outcome State Fault Refusal := issue (.wfred w) actWfred s

/-- MATCH (R125): Writes masks of lanes holding equal values. -/
def execMatch (w : CForm) (s : State) : Host.Outcome State Fault Refusal := issue (.match w) actMatch s

/-- S2V (R126): Reads a warp or context state word into registers. -/
def execS2v (w : CForm) (s : State) : Host.Outcome State Fault Refusal := issue (.s2v w) actS2v s

/-- FLAGS_RD (R128): Writes FLAGS into every admitted lane. -/
def execFlagsRd (w : CForm) (s : State) : Host.Outcome State Fault Refusal := issue (.flagsRd w) actFlagsRd s

/-- FLAGS_CLR (R128): Clears the FLAGS bits named in the mask. -/
def execFlagsClr (w : CForm) (s : State) : Host.Outcome State Fault Refusal := issue (.flagsClr w) actFlagsClr s

/-- PRIO (R129): Sets the warp's issue priority WPRIO. -/
def execPrio (w : CForm) (s : State) : Host.Outcome State Fault Refusal := issue (.prio w) actPrio s

end Sys2Proof.Machine
end

