-- ==== Sys2Proof/Machine/Armature.lean ====
section
/-!
DEFINITION. The armature's instructions (11_async_armature.md R244 to R251).
-/
namespace Sys2Proof.Machine
open Sys2Proof

def uregNotOwner : Nat := 0x0E
def armatureValue : Nat := 0x0F

/-- The number of an s-level operand. -/
def sNum (o : Operand) : Nat :=
  match o with
  | .s n => n.toNat
  | _ => 0

/-- Whether the warp owns `n` registers from `d` on, by the claims and releases of result cycles up to its
issue (R244, R246). -/
def Cx.owns (c : Cx) (d n : Nat) : Bool :=
  (List.range n).all (fun i => (c.blk.armAt c.t).owner.find (d + i) = some c.wid)

/-- An instruction of the armature: it acts once when a lane is admitted, and its writes have the result cycle
issue + 1 (R244). -/
def armAct (g : Cx → Except Trap (List ArmWrite)) : Act := fun c =>
  if c.adm = 0 then .ok c
  else
    match g c with
    | .error t => .error t
    | .ok ws => .ok (ws.foldl (fun c w => c.armWrite (c.t + 1) w) c)

/-- One that writes D with a word (R244, R247). -/
def armWord (g : Cx → Word) : Act := armAct (fun c =>
  if c.owns (sNum c.f.d) 1 then .ok [.sreg (sNum c.f.d) (g c)] else .error (.of uregNotOwner))

/-- SMOV (R247). -/
def smovWord (c : Cx) : Word := if c.f.mod.getLsbD 19 then (c.f.mod.extractLsb' 0 19).signExtend 32 else c.rd c.f.a 0 c.lane

/-- SALU (R247). -/
def saluWord (fn : Nat) (a b : Word) : Word :=
  match fn with
  | 0 => a + b
  | 1 => a - b
  | 2 => a * b
  | 3 => a &&& b
  | 4 => a ||| b
  | 5 => a ^^^ b
  | 6 => if 32 ≤ b.toNat then 0 else a <<< b.toNat
  | _ => if 32 ≤ b.toNat then 0 else a >>> b.toNat

/-- SSETP (R247). -/
def ssetpWord (c : Cx) : Word :=
  let v (o : Operand) : Int := if c.f.fn = 0 then sx 32 (c.rd32 o c.lane) else c.rd32 o c.lane
  if relInt (bitsAt c.f.mod 0 3) (v c.f.a) (v c.f.b) then 1 else 0

/-- SCLAIM.claim: refused where another warp owns a register of the range by an earlier result cycle, or a
lower-numbered warp claims it in the same one (R246). -/
def actClaim : Act := armAct (fun c =>
  let base := bitsAt c.f.mod 0 6
  let n := bitsAt c.f.mod 6 7
  let rival (p : ArmPend) : Bool := c.t < p.at_ && p.warp != c.wid &&
    match p.wr with
    | .own b k (some _) => b < base + n && base < b + k
    | _ => false
  let free := (List.range n).all (fun i => match (c.blk.armAt c.t).owner.find (base + i) with
    | some k => k = c.wid
    | none => true)
  if free && !c.blk.armPend.any rival then .ok [.own base n (some c.wid)] else .error (.of uregNotOwner))

/-- SCLAIM.rel (R246). -/
def actRel : Act := armAct (fun c =>
  let base := bitsAt c.f.mod 0 6
  let n := bitsAt c.f.mod 6 7
  if c.owns base n then .ok [.own base n none] else .error (.of uregNotOwner))

/-- SBR (R249): the next N instructions of the clause admit no lane. -/
def actSbr : Act := fun c =>
  if c.adm = 0 then .ok c
  else
    let taken := (c.rd c.f.a 0 c.lane != 0) != c.f.mod.getLsbD 3
    .ok (if taken then { c with cl := { c.cl with skip := bitsAt c.f.mod 0 3 + 1 } } else c)

/-- The tile depth of a code (R250). -/
def tileDepth (code : Nat) : Nat := 4 * 2 ^ code

/-- SHPW.wr (R250). -/
def actShpwWr : Act := armAct (fun c =>
  let b := c.rd c.f.b 0 c.lane
  if 5 ≤ bitsAt b 16 3 then .error (.of armatureValue)
  else .ok [.shape (bitsAt c.f.mod 0 4) (c.rd c.f.a 0 c.lane) b])

/-- SHPW.mk's two words from a record and the origins (R250). -/
def shapeMasks (r : Word × Word) (a b : Word) : Word × Word :=
  let m := bitsAt r.1 0 16
  let n := bitsAt r.1 16 16
  let k := bitsAt r.2 0 16
  let kt := tileDepth (bitsAt r.2 16 3)
  let g := max 1 (kt / 16)
  let m0 := bitsAt a 0 16
  let n0 := bitsAt a 16 16
  let k0 := bitsAt b 0 16
  let bits (w : Nat) (p : Nat → Bool) : Nat := (List.range w).foldl (fun x i => if p i then x + 2 ^ i else x) 0
  (BitVec.ofNat 32 (bits 16 (fun i => m0 + i < m) + 2 ^ 16 * bits 16 (fun j => n0 + j < n)),
   BitVec.ofNat 32 (bits 32 (fun i => i < kt / g && k0 + i * g < k)))

/-- SHPW.mk (R250). -/
def actShpwMk : Act := armAct (fun c =>
  let d := sNum c.f.d
  if !c.owns d 2 then .error (.of uregNotOwner)
  else
    let r := (c.cl.arm.shapes.find (bitsAt c.f.mod 0 4)).getD (0, 0)
    let (x, y) := shapeMasks r (c.rd c.f.a 0 c.lane) (c.rd c.f.b 0 c.lane)
    .ok [.sreg d x, .sreg (d + 1) y])

/-- LSCL.set (R251). -/
def actLsclSet : Act := armAct (fun c =>
  let a := c.rd c.f.a 0 c.lane
  let e := bitsAt a 23 8
  if a.getLsbD 31 || e = 0 || e = 255 then .error (.of armatureValue) else .ok [.scale a 0])

/-- LSCL.upd's new LS and GCNT (R251): LS is positive and normal, so that its patterns are ordered as its values. -/
def lossUpdate (a : Arm) (limit : Word) : Word × Word :=
  if a.ovf.getLsbD 0 || a.ovf.getLsbD 2 then
    (if a.ls.toNat < 0x34000000 then 0x33800000#32 else a.ls - 0x800000#32, 0)
  else
    let g := min (a.gcnt.toNat + 1) (2 ^ 32 - 1)
    if limit != 0 && limit.toNat ≤ g then (if 0x4B000000 ≤ a.ls.toNat then 0x4B800000#32 else a.ls + 0x800000#32, 0)
    else (a.ls, BitVec.ofNat 32 g)

/-- LSCL.upd (R251). -/
def actLsclUpd : Act := armAct (fun c =>
  if !c.owns (sNum c.f.d) 1 then .error (.of uregNotOwner)
  else
    let (ls, g) := lossUpdate c.cl.arm (c.rd c.f.a 0 c.lane)
    .ok [.scale ls g, .sreg (sNum c.f.d) ls])

/-- OVFT.clr (R247). -/
def actOvftClr : Act := armAct (fun c => .ok [.ovfClr (c.f.mod.extractLsb' 0 5)])

/-! ### SLD and SST (R248) -/

/-- The space, size and address of SLD and SST. -/
def armSpace (f : Fields) : Space := if bitsAt f.mod 16 2 = 0 then .c else if bitsAt f.mod 16 2 = 1 then .s else .g
def armSize (f : Fields) : Nat := 4 * 2 ^ bitsAt f.mod 14 2
def armAddr (f : Fields) (base : Nat) : Nat := formAddr (armSpace f) base 0 (sx 9 (bitsAt f.mod 0 9) * (armSize f : Nat))

/-- The base of SLD and SST: two registers under .g. -/
def Cx.armBase (c : Cx) : Nat := if armSpace c.f = .g then (c.rd64 c.f.a c.lane).toNat else c.rd32 c.f.a c.lane

/-- SLD: it reads when its turn comes among the warp's accesses (R248). -/
def actSld : Act := fun c =>
  if c.adm = 0 then .ok c
  else if !c.owns (sNum c.f.d) (armSize c.f / 4) then .error (.of uregNotOwner)
  else .ok (c.start none (.retry c.i (c.capture c.f.a 2) [] []))

/-- SST: a store of one lane (R248). -/
def actSst : Act := fun c =>
  if c.adm = 0 then .ok c
  else
    let f := c.f
    let size := armSize f
    let as := [(c.lane, armAddr f c.armBase)]
    let x := c.capture f.c (size / 4)
    let (m, r) := c.m.checkLanes c.blk c.la (armSpace f) false .write size c.ia c.cl.slot as
    let c := { c with m := m }
    match r with
    | .error e => .ok (c.startFaultFold (.retry c.i (c.capture f.a 2) [] x) { e with fmask := c.adm })
    | .ok ks => .ok (c.enterStore (armSpace f) false 1 (storeAcc size as ks (fun l => capBytes x size l)))

/-- SMOV (R247): Writes a uniform register from an operand or immediate. -/
def execSmov (w : CForm) (s : State) : Host.Outcome State Fault Refusal := issue (.smov w) (armWord smovWord) s

/-- SALU (R247): Computes a scalar arithmetic or logic result into a uniform register. -/
def execSalu (w : CForm) (s : State) : Host.Outcome State Fault Refusal := issue (.salu w) (armWord (fun c => saluWord c.f.fn.toNat (c.rd c.f.a 0 c.lane) (c.rd c.f.b 0 c.lane))) s

/-- SSETP (R247): Writes a scalar comparison result. -/
def execSsetp (w : CForm) (s : State) : Host.Outcome State Fault Refusal := issue (.ssetp w) (armWord ssetpWord) s

/-- SLD (R248): Loads uniform registers from memory. -/
def execSld (w : CForm) (s : State) : Host.Outcome State Fault Refusal := issue (.sld w) actSld s

/-- SST (R248): Stores uniform registers through the store queue. -/
def execSst (w : CForm) (s : State) : Host.Outcome State Fault Refusal := issue (.sst w) actSst s

/-- SBR (R249): Makes the next N instructions of the clause admit no lane when a condition holds. -/
def execSbr (w : CForm) (s : State) : Host.Outcome State Fault Refusal := issue (.sbr w) actSbr s

/-- V2S (R247): Copies a vector value from the lowest admitted lane into a uniform register. -/
def execV2s (w : CForm) (s : State) : Host.Outcome State Fault Refusal := issue (.v2s w) (armWord (fun c => c.rd c.f.a 0 c.lane)) s

/-- SHPW_WR (R250): Writes a shape record. -/
def execShpwWr (w : CForm) (s : State) : Host.Outcome State Fault Refusal := issue (.shpwWr w) actShpwWr s

/-- SHPW_MK (R250): Turns a shape record and origins into MMA masks. -/
def execShpwMk (w : CForm) (s : State) : Host.Outcome State Fault Refusal := issue (.shpwMk w) actShpwMk s

/-- LSCL_RD (R251): Reads the loss scale. -/
def execLsclRd (w : CForm) (s : State) : Host.Outcome State Fault Refusal := issue (.lsclRd w) (armWord (fun c => c.cl.arm.ls)) s

/-- LSCL_SET (R251): Sets the loss scale and clears the growth count. -/
def execLsclSet (w : CForm) (s : State) : Host.Outcome State Fault Refusal := issue (.lsclSet w) actLsclSet s

/-- LSCL_UPD (R251): Halves or grows the loss scale by the overflow word. -/
def execLsclUpd (w : CForm) (s : State) : Host.Outcome State Fault Refusal := issue (.lsclUpd w) actLsclUpd s

/-- SCLAIM_CLAIM (R246): Claims ownership of a range of uniform registers. -/
def execSclaimClaim (w : CForm) (s : State) : Host.Outcome State Fault Refusal := issue (.sclaimClaim w) actClaim s

/-- SCLAIM_REL (R246): Releases owned uniform registers. -/
def execSclaimRel (w : CForm) (s : State) : Host.Outcome State Fault Refusal := issue (.sclaimRel w) actRel s

/-- OVFT_RD (R247): Reads the block's overflow word. -/
def execOvftRd (w : CForm) (s : State) : Host.Outcome State Fault Refusal := issue (.ovftRd w) (armWord (fun c => c.cl.arm.ovf.zeroExtend 32)) s

/-- OVFT_CLR (R247): Clears bits of the overflow word. -/
def execOvftClr (w : CForm) (s : State) : Host.Outcome State Fault Refusal := issue (.ovftClr w) actOvftClr s

end Sys2Proof.Machine
end

