-- ==== Sys2Proof/Machine/SysRegs.lean ====
section
/-!
DEFINITION. The registers that SYSR and SYSW reach (18_traps.md R348): CSCHED, CLSTAT, a die's status and
power registers, quota words, channel records and context words.
-/
namespace Sys2Proof.Machine
open Sys2Proof

def Cluster.init : Cluster := { fusep := 0, terr := 0, derr := 0 }
def Channel.init : Channel := { own := 0, v := false, ret := false }

def Mach.cluster (m : Mach) (k : Nat) : Cluster := (m.clusters.find k).getD .init
def Mach.setCluster (m : Mach) (k : Nat) (x : Cluster) : Mach := { m with clusters := m.clusters.put k x }
def Mach.channel (m : Mach) (k : Nat) : Channel := (m.channels.find k).getD .init
def Mach.setChannel (m : Mach) (k : Nat) (x : Channel) : Mach := { m with channels := m.channels.put k x }

/-- SVC of a core's CSCHED; cores come out of reset in greedy-then-oldest service (12_core_scheduling.md R267). -/
def Mach.svc (m : Mach) (core : Nat) : Nat := (m.csched.find core).getD 1

/-- CLSTAT (15_cluster.md R283). -/
def Cluster.word (c : Cluster) : Word := c.derr ++ c.terr ++ c.fusep

/-- A die's status register (16_die.md R303). -/
def Die.status (d : Die) : Word := 0#1 ++ d.uesrc ++ d.uech ++ d.uecnt ++ d.cecnt

/-- THR: the die withholds starts, for its current or its temperature (23_physical.md R398, R399). -/
def Die.throttled (d : Die) : Bool := d.thr || d.hot || d.seven

/-- DPWR (23_physical.md R398). -/
def Die.dpwr (d : Die) : Word :=
  0#8 ++ d.tj ++ 0#1 ++ BitVec.ofBool d.off ++ BitVec.ofBool d.hot ++ BitVec.ofBool d.throttled ++ d.ilim

/-- A channel record (16_die.md R291). -/
def Channel.word (c : Channel) : Word := 0#26 ++ BitVec.ofBool c.ret ++ BitVec.ofBool c.v ++ c.own

/-- The die that an index of a selector names; none where the index names nothing. -/
def sysDie (sel idx : Nat) : Option Nat :=
  if sel = 1 then some (idx / 64)
  else if sel = 2 then some (idx / 16)
  else if sel = 3 || sel = 4 then some idx
  else if sel = 0x20 then some (idx / 32)
  else if 0x10 ≤ sel && sel ≤ 0x14 then (if idx < 16 * 512 then some (idx % 512 / 64) else none)
  else if idx < 256 then some 0 else none

/-- Whether an index names what the part has: its die is present, and its stack is on where the index names a
core, a cluster or a channel (R348, 23_physical.md R400). -/
def Mach.sysIndexOk (m : Mach) (caps : Caps) (sel idx : Nat) : Bool :=
  match sysDie sel idx with
  | none => false
  | some d =>
    if 0x30 ≤ sel then true
    else d < caps.nstack.toNat && (sel = 3 || sel = 4 || !(m.die d).off)

/-- SYSR: the register, and the machine with its RC fields cleared (R348). -/
def Mach.sysRead (m : Mach) (sel idx : Nat) : Word × Mach :=
  if sel = 1 then (BitVec.ofNat 32 (m.svc idx), m)
  else if sel = 2 then
    let c := m.cluster idx
    (c.word, m.setCluster idx { c with terr := 0, derr := 0 })
  else if sel = 3 then
    let d := m.die idx
    (d.status, m.setDie idx { d with cecnt := 0, uecnt := 0 })
  else if sel = 4 then ((m.die idx).dpwr, m)
  else if sel = 0x20 then ((m.channel idx).word, m)
  else if sel < 0x20 then (m.quotaWord (idx / 512) (idx % 512) (sel - 0x10), m)
  else ((m.ctx idx).word (sel - 0x30), m)

/-- The writable bits of the quota words (12_core_scheduling.md R257). -/
def quotaMask (k : Nat) : Word := [0xF1FF#32, 0x7FFF7FFF#32, 0x7FFF7FFF#32, 0x1FFFFF#32, 0x7FFFFFF#32].getD k 0

/-- The writable bits of the context words (17_package.md R313). -/
def ctxMask (k : Nat) : Word := if k = 0 then 0xFFFF00F1 else if k = 5 then 0x1F1F else if k = 15 then 0 else 0xFFFFFFFF

/-- Writes the fields of a mask. -/
def maskIn (mask old new : Word) : Word := (old &&& ~~~mask) ||| (new &&& mask)

/-- Writes a quota word of a partition on a core. -/
def Mach.setQuota (m : Mach) (part core k : Nat) (x : Word) : Mach :=
  let ws := (List.range 5).map (fun j => m.quotaWord part core j)
  { m with quota := m.quota.put (part * 512 + core) (ws.set k x) }

/-- Whether a partition has a resident block on a core (R257). -/
def Mach.residentOn (m : Mach) (part core : Nat) : Bool :=
  m.blocks.any (fun b => b.2.part = part && b.2.core = core && !b.2.past)

def SlotSt.init : SlotSt := { active := [], last := none, lastAt := none, fresh := true, refill := [] }

/-- An issue slot of a core. -/
def Mach.slotOf (m : Mach) (core slot : Nat) : SlotSt := (m.slots.find (core * 4 + slot)).getD .init
def Mach.setSlotOf (m : Mach) (core slot : Nat) (x : SlotSt) : Mach := { m with slots := m.slots.put (core * 4 + slot) x }

/-- Writes a core's CSCHED: round robin starts afresh (13_program_issue_trace.md R273). -/
def Mach.setCsched (m : Mach) (core svc : Nat) : Mach :=
  (List.range 4).foldl (fun m k => m.setSlotOf core k { m.slotOf core k with fresh := true })
    { m with csched := m.csched.put core svc }

/-- Whether a channel may take a new OWN or V: it is unowned, so that its zeroisation is over, and the new owner is not being
cleared (16_die.md R291). -/
def Mach.mayOwn (m : Mach) (c : Channel) (own : BitVec 4) (v : Bool) : Bool :=
  let p := m.part own.toNat
  (c.own = own && c.v = v) || (!c.v && !(v && (p.zeroing || p.clearing)))

/-- A context record takes its word 0: what the caches hold under its ID is dropped where the record is removed or goes to
another partition (01_device.md R12). -/
def Mach.retag (m : Mach) (t ctx : Nat) (old new : Word) : Mach :=
  if bitsAt old 4 4 = bitsAt new 4 4 && (old.getLsbD 0 = new.getLsbD 0) then m else m.dropCached t ctx

/-- SYSW: the machine after the write, or none where a rule forbids it at that moment (R348). A write of a reserved SVC to CSCHED keeps the
value and still counts as a write of it (DESIGN CHOICE, log entry 92). -/
def Mach.sysWrite (m : Mach) (t sel idx : Nat) (x : Word) : Option Mach :=
  if sel = 1 then
    some (m.setCsched idx (if bitsAt x 0 2 < 2 then bitsAt x 0 2 else m.svc idx))
  else if sel = 2 || sel = 3 then some m
  else if sel = 4 then
    let d := m.die idx
    some (m.setDie idx { d with ilim := if bitsAt x 0 12 < 64 then 64 else x.extractLsb' 0 12 })
  else if sel = 0x20 then
    let c := m.channel idx
    if (x.getLsbD 4 && c.ret) || !m.mayOwn c (x.extractLsb' 0 4) (x.getLsbD 4) then none
    else some (m.setChannel idx { own := x.extractLsb' 0 4, v := x.getLsbD 4, ret := c.ret || x.getLsbD 5 })
  else if sel < 0x20 then
    let part := idx / 512
    let core := idx % 512
    let k := sel - 0x10
    if m.residentOn part core then none
    else some (m.setQuota part core k (maskIn (quotaMask k) (m.quotaWord part core k) x))
  else
    let c := m.ctx idx
    let k := sel - 0x30
    let y := maskIn (ctxMask k) (c.word k) x
    if c.state != 0 then none
    else some ((if k = 0 then m.retag t idx (c.word 0) y else m).setCtx idx (c.setWord k y))

end Sys2Proof.Machine
end

