-- ==== Sys2Proof/Machine/System.lean ====
section
/-!
DEFINITION. TRAP, HALT, MQCHK, SHASH, SYSR and SYSW (18_traps.md R345 to R348, 17_package.md R332, R333).
ERET stands in Machine/Traps.lean and CTXSV in Machine/Preempt.lean.
-/
namespace Sys2Proof.Machine
open Sys2Proof

def haltRequest : Nat := 0x11
def sysIndex : Nat := 0x15
def sysState : Nat := 0x16
def maqDiverge : Nat := 0x84

/-- HALT (R347). -/
def actHalt : Act := fun c => if c.adm = 0 then .ok c else .error (.of haltRequest)

/-- MQCHK (17_package.md R332): nothing with the maquette off. Otherwise it is checked as a .g ST or LD, and
acts when every earlier fold of the warp has been made. -/
def actMqchk : Act := fun c =>
  if c.adm = 0 || c.la.mqm = 0 then .ok c
  else
    let a := c.capture c.f.a 2
    let retry : Payload := .retry c.i a [] []
    let (m, r) := c.m.checkLanes c.blk c.la .g true (if c.la.mqm = 1 then .write else .read) 4 c.ia c.cl.slot
      [(c.lane, (c.rd64 c.f.a c.lane).toNat)]
    let c := { c with m := m }
    match r with
    | .error e => .ok (c.startFaultFold retry { e with fmask := c.adm })
    | .ok _ =>
      let d := c.start none retry
      .ok { d with w := { d.w with folds := d.w.folds ++ [.waiting c.w.nextOp] } }

/-- SHASH.set and SHASH.clr, at their place in the order of folds (17_package.md R333). -/
def actShash (x : Cx → Word) : Act := fun c =>
  if c.adm = 0 then .ok c
  else .ok { c with w := ({ c.w with folds := c.w.folds ++ [Fold.set (x c)] }).foldShash }

/-- SYSR (R348). -/
def actSysr : Act := fun c =>
  if c.adm = 0 then .ok c
  else
    let sel := bitsAt c.f.mod 0 16
    let idx := c.rd32 c.f.a c.lane
    if c.m.sysIndexOk c.caps sel idx then
      let (x, m) := c.m.sysRead sel idx
      let c := { c with m := m }
      .ok (c.start none (.result (c.result32 (fun _ => x.toNat))))
    else .ok (c.startFault none (.sourcesRead [] 0) (c.info sysIndex 0))

/-- SYSW (R348). -/
def actSysw : Act := fun c =>
  if c.adm = 0 then .ok c
  else
    let sel := bitsAt c.f.mod 0 16
    let idx := c.rd32 c.f.a c.lane
    if c.m.sysIndexOk c.caps sel idx then
      match c.m.sysWrite c.t sel idx (c.rd c.f.b 0 c.lane) with
      | some m => .ok (({ c with m := m }).start none (.sourcesRead [] 0))
      | none => .ok (c.startFault none (.sourcesRead [] 0) (c.info sysState 0))
    else .ok (c.startFault none (.sourcesRead [] 0) (c.info sysIndex 0))

/-- TRAP (R345): Traps precisely with SOFTWARE_TRAP. -/
def execTrap (w : IForm) (s : State) : Host.Outcome State Fault Refusal := issue (.trap w) (actTrap 0x0B w.imm) s

/-- HALT (R347): Stops the warp with HALT_REQUEST and kills the context. -/
def execHalt (w : ZForm) (s : State) : Host.Outcome State Fault Refusal := issue (.halt w) actHalt s

/-- MQCHK (R332): Stores or checks SHASH against memory by maquette mode. -/
def execMqchk (w : CForm) (s : State) : Host.Outcome State Fault Refusal := issue (.mqchk w) actMqchk s

/-- SHASH_SET (R333): Sets SHASH at its place in fold order. -/
def execShashSet (w : CForm) (s : State) : Host.Outcome State Fault Refusal := issue (.shashSet w) (actShash (fun c => c.rd c.f.a 0 c.lane)) s

/-- SHASH_CLR (R333): Clears SHASH at its place in fold order. -/
def execShashClr (w : CForm) (s : State) : Host.Outcome State Fault Refusal := issue (.shashClr w) (actShash (fun _ => 0)) s

/-- SYSR (R348): Reads a system register, clearing its RC fields. -/
def execSysr (w : CForm) (s : State) : Host.Outcome State Fault Refusal := issue (.sysr w) actSysr s

/-- SYSW (R348): Writes a system register that has no row of its own. -/
def execSysw (w : CForm) (s : State) : Host.Outcome State Fault Refusal := issue (.sysw w) actSysw s

end Sys2Proof.Machine
end

