-- ==== Sys2Proof/Machine/Gossip.lean ====
section
/-!
DEFINITION. Gossip regions: their storage, the exchange, the mass counters and the gossip instructions
(21_fabric.md R370 to R386).
-/
namespace Sys2Proof.Machine
open Sys2Proof

def gossipDesc : Nat := 0xA6

/-! ### Storage -/

/-- A slot of a context. -/
def Mach.gossipOf (m : Mach) (ctx rgn : Nat) : Option Gossip := (m.ctx ctx).gossip.find rgn
def Mach.setGossip (m : Mach) (ctx rgn : Nat) (g : Gossip) : Mach :=
  let c := m.ctx ctx
  m.setCtx ctx { c with gossip := c.gossip.put rgn g }

/-- The places of `n` bytes of a bound region, by the translations kept at binding (R371). -/
def Gossip.keys (g : Gossip) (p : Part) (va n : Nat) : List Nat :=
  (List.range n).foldr (fun i l =>
    let a := va + i
    (((g.pins.find (a / 2 ^ 16)).bind (fun pa => p.place (pa + a % 2 ^ 16))).toList ++ l)) []

/-- A 64-bit word of a bound region. -/
def Mach.regionWord (m : Mach) (p : Part) (g : Gossip) (va : Nat) : DWord :=
  BitVec.ofNat 64 (leNat (m.bytes (g.keys p va 8)))

/-- A write of a bound region; no L1 keeps the line, so that a load finds the home slice's word (R372). -/
def Mach.regionWrite (m : Mach) (ctx : Nat) (p : Part) (g : Gossip) (va : Nat) (data : List Byte) : Mach :=
  let keys := g.keys p va data.length
  let m := m.write ctx keys data
  { m with l1 := m.l1.filter (fun e => !keys.any (fun k => k / 128 = e.line)) }

/-- The addresses of a value, a weight and a spread record (R370). -/
def Gossip.valueAt (g : Gossip) (c i : Nat) : Nat := g.vbase + 8 * (g.values * c + i)
def Gossip.weightAt (g : Gossip) (c : Nat) : Nat := g.wbase + 8 * c
def Gossip.spreadAt (g : Gossip) (c j : Nat) : Nat := g.sbase + 4 * (g.nn * c + j)
/-- k, the exponent of the values' grid. -/
def Gossip.k (g : Gossip) : Int := sx 8 g.kbyte

/-- The values of a chunk, and the places of all its bytes. -/
def Mach.chunkValues (m : Mach) (p : Part) (g : Gossip) (c : Nat) : List DWord :=
  (List.range g.values).map (fun i => m.regionWord p g (g.valueAt c i))
def Gossip.chunkKeys (g : Gossip) (p : Part) (c : Nat) : List Nat :=
  g.keys p (g.valueAt c 0) (8 * g.values) ++ g.keys p (g.weightAt c) 8

/-- Writes a chunk's values and weight in one step. -/
def Mach.setChunk (m : Mach) (ctx : Nat) (p : Part) (g : Gossip) (c : Nat) (vs : List DWord) (w : DWord) : Mach :=
  (m.regionWrite ctx p g (g.valueAt c 0) (vs.foldr (fun v l => leBytes v.toNat 8 ++ l) [])).regionWrite ctx p g
    (g.weightAt c) (leBytes w.toNat 8)

/-- The sum of words modulo 2^64. -/
def sumWords (xs : List DWord) : DWord := xs.foldl (fun a x => a + x) 0

/-- Counter `sel` of a slot (R379): TOTV, TOTW, HELDV, HELDW, HELDN, GADDV, REFN. -/
def Gossip.counter (g : Gossip) (sel : Nat) : DWord := g.mass.getD sel 0
def Gossip.count (g : Gossip) (sel : Nat) (x : DWord) : Gossip :=
  { g with mass := (List.range 7).map (fun k => if k = sel then g.counter k + x else g.counter k) }

/-- Whether a chunk of a slot has a message whose decision the sender has not learned (R373). -/
def Mach.undecided (m : Mach) (ctx rgn c : Nat) : Bool :=
  m.gmsgs.any (fun e => e.2.ctx = ctx && e.2.rgn = rgn && e.2.msg.c = c)

/-- Whether any message of a slot is undecided. -/
def Mach.slotUndecided (m : Mach) (ctx rgn : Nat) : Bool := m.gmsgs.any (fun e => e.2.ctx = ctx && e.2.rgn = rgn)

/-! ### The exchange (R373) -/

/-- Whether a link is down. -/
def Mach.isDown (m : Mach) (link : Nat) : Bool := (m.links.find link).getD false

/-- The link that carries a message: a free value picks it among those that are up (DESIGN CHOICE, log entry 79). -/
def Mach.carrier (m : Mach) : Nat :=
  let ups := (List.range 32).filter (fun l => !m.isDown l)
  (ups.drop (Config.gossipLink m.free % ups.length)).headD 0

/-- The snapshot: the chunk's values and weight are halved, and the halves are sent to neighbour `j`. -/
def Mach.snapshot (m : Mach) (t ctx rgn c j : Nat) (step : Option (Nat × Nat × Nat)) (g : Gossip) : Mach :=
  let part := m.ctxPart ctx
  let p := m.part part
  if m.anyBad (g.chunkKeys p c) then m.consume t ctx (g.chunkKeys p c)
  else
    let vs := m.chunkValues p g c
    let w := m.regionWord p g (g.weightAt c)
    let hs := vs.map (fun v => v.sshiftRight 1)
    let hw := w.sshiftRight 1
    let msg : GossipMsg :=
      { src := m.pkg.toNat, ctx := ctx, ftid := p.ftid, rkey := BitVec.ofNat 32 (g.word 0), slot := rgn,
        nch := BitVec.ofNat 32 g.nch, csz := g.csz, k := BitVec.ofNat 8 g.kbyte, seq := m.nextId, c := c, h := hs, hw := hw }
    let sent : GMsg := { ctx := ctx, rgn := rgn, nbr := j, msg := msg, sent := t, link := m.carrier, cut := false, step := step }
    let g := ((((({ g with msgs := g.msgs + 1 }).count 0 (0 - sumWords hs)).count 1 (0 - hw)).count 2 (sumWords hs)).count 3 hw).count 4 1
    let m := m.setChunk ctx p g c ((vs.zip hs).map (fun x => x.1 - x.2)) (w - hw)
    let m := m.setGossip ctx rgn g
    { m with gmsgs := m.gmsgs.put m.nextId sent, nextId := m.nextId + 1, free := m.free + 1 }

/-- Whether the engine still exchanges for a context: until the kill's drain (R374, R387). -/
def Mach.exchanging (m : Mach) (ctx : Nat) : Bool := (m.ctx ctx).v && (m.ctx ctx).state != 5

/-- A free-running slot's next exchange (R374): due, not stopped, and its chunk's last message decided. -/
def Mach.freeRunNext (m : Mach) (now ctx rgn : Nat) : Option (Gossip × Nat × Nat) :=
  match m.gossipOf ctx rgn with
  | none => none
  | some g =>
    if m.exchanging ctx && g.gmode = 0 && !g.stopped && !g.unbinding && g.due ≤ now && g.nn != 0 && !m.undecided ctx rgn g.chunk then
      some (g, g.chunk, (g.chunk + g.pass) % g.nn)
    else none

/-- FREE_RUN_TICK (R374). -/
def Mach.freeRunTick (m : Mach) (now ctx rgn : Nat) : Option Mach :=
  (m.freeRunNext now ctx rgn).map (fun (g, c, j) =>
    let g := { g with
      due := now + g.rate.toNat
      chunk := if c + 1 < g.nch then c + 1 else 0
      pass := if c + 1 < g.nch then g.pass else g.pass + 1 }
    m.snapshot now ctx rgn c j none g)

/-- An operation that a warp's later gossip operations wait for: one that reads first, a fence, a copy that has not read its
source, or a gossip operation that has not begun (R388, 06_isa_control.md R143). A GADD and a GCTL.step are none: they order nothing
without a GSYNC and without a wait on their flag. -/
def Op.beforeGossip (o : Op) : Bool :=
  match o.payload with
  | .gossip i _ _ _ => o.fault.isNone && (match i with
    | .gadd _ => false
    | .gsync _ => false
    | .gctlStep _ => false
    | _ => true)
  | .terms .. => false
  | _ => o.holdsLoads || o.holdsStores

/-- Whether a warp's gossip operation may begin: every earlier store and atomic of its warp has performed, and every earlier
access of it (R388). -/
def Warp.gossipTurn (w : Warp) (seq : Nat) : Bool := w.drained seq && !w.held Op.beforeGossip seq

/-- A GADD whose terms have not all been applied. -/
def Op.unapplied (o : Op) : Bool :=
  match o.payload with
  | .gossip (.gadd _) _ _ _ => o.fault.isNone
  | .terms .. => true
  | _ => false

/-- Whether terms of a slot's GADDs still have to be applied. -/
def Mach.termsDue (m : Mach) (ctx rgn : Nat) : Bool :=
  m.blocks.any (fun b => b.2.ctx = ctx && b.2.warps.any (fun w => w.2.ops.any (fun o => match o.2.payload with
    | .terms r _ => r = rgn
    | _ => false)))

/-- The neighbour and chunk of a GCTL.step, or the cause that stops it (R380, R385). -/
def stepTarget (g : Option Gossip) (a b : Nat) : Except Nat (Gossip × Nat × Nat) :=
  match g with
  | none => .error gossipDesc
  | some g =>
    if g.unbinding || g.gmode != 1 || g.nn ≤ a then .error gossipDesc
    else if g.nch ≤ b then .error gossipRange
    else .ok (g, b, a)

/-- RGN of a gossip instruction. -/
def rgnOf (f : Fields) : Nat := bitsAt f.mod 4 3

/-- The GCTL.step operations that stand at their turn for a slot's chunk and neighbour. -/
def Mach.steppers (m : Mach) (ctx rgn c j : Nat) : List (Nat × Nat × Nat) :=
  m.blocks.foldr (fun b l =>
    if b.2.ctx = ctx && m.alive b.2 then
      b.2.warps.foldr (fun w l =>
        w.2.ops.foldr (fun o l =>
          match o.2.payload with
          | .gossip (.gctlStep w') a x _ =>
            if o.2.fault.isNone && bitsAt w'.mod 4 3 = rgn && o.2.once32 a = j && o.2.once32 x = c && w.2.gossipTurn o.2.seq then
              (b.1, w.1, o.1) :: l
            else l
          | _ => l) l) l
    else l) []

/-- GOSSIP_SNAPSHOT: a step's snapshot, or a free-running one (R373, R374). A step restarts a stopped slot (R385). -/
def Mach.gossipSnapshot (m : Mach) (now ctx rgn c j : Nat) : Option Mach :=
  match m.steppers ctx rgn c j with
  | (b, w, op) :: _ =>
    match stepTarget (m.gossipOf ctx rgn) j c with
    | .error _ => none
    | .ok (g, _, _) =>
      if m.undecided ctx rgn c then none
      else
        let m := m.snapshot now ctx rgn c j (some (b, w, op)) { g with stopped := false }
        match m.warp b w with
        | some (_, x) => some (m.setWarp b w (x.setPayload op (.atomicResult false Result.none [])))
        | none => some m
  | [] =>
    match m.freeRunNext now ctx rgn with
    | some (_, c', j') => if c' = c && j' = j then m.freeRunTick now ctx rgn else none
    | none => none

/-- The spread record that an application writes (R377). -/
def spreadWord (g : Gossip) (vs hs : List DWord) (w hw : DWord) : Nat :=
  if w.toInt ≤ 0 || hw.toInt ≤ 0 then Num.f32.inf false
  else
    let d := (vs.zip hs).foldl (fun a x => max a (x.1.toInt * hw.toInt - x.2.toInt * w.toInt).natAbs) 0
    if d = 0 then 0
    else
      (Num.resultF Num.f32 { rm := .ru, gr := false, ftz := false, cnan := true, rand := 0, grand := none } []
        (Num.divFin false d (g.k + 62) (w.toNat * hw.toNat) 0)).1

/-- The index of a package in a slot's neighbours. -/
def Gossip.nbrIndex (g : Gossip) (src : Nat) : Option Nat := (List.range g.nn).find? (fun j => g.nbr j = src)

/-- Whether the receiver applies a message (R373): it is whole, and its context, slot and sender are as R373 asks. -/
def Mach.accepts (m : Mach) (x : GossipMsg) : Option (Gossip × Nat) :=
  let c := m.ctx x.ctx
  if !c.v || c.state = 5 || (m.part c.part).ftid != x.ftid then none
  else
    match c.gossip.find x.slot with
    | none => none
    | some g =>
      match g.nbrIndex x.src with
      | none => none
      | some j =>
        if !g.unbinding && g.word 0 = x.rkey.toNat && g.nch = x.nch.toNat && g.csz = x.csz && g.kbyte = x.k.toNat
            && x.c < g.nch && x.h.length = g.values then some (g, j) else none

/-- Applies a message (R373, R377). -/
def Mach.applyMsg (m : Mach) (t : Nat) (x : GossipMsg) (g : Gossip) (j : Nat) : Mach :=
  let p := m.part (m.ctxPart x.ctx)
  let keys := g.chunkKeys p x.c ++ g.keys p (g.spreadAt x.c j) 4
  if m.anyBad keys then m.consume t x.ctx keys
  else
    let vs := m.chunkValues p g x.c
    let w := m.regionWord p g (g.weightAt x.c)
    let m := m.regionWrite x.ctx p g (g.spreadAt x.c j) (leBytes (spreadWord g vs x.h w x.hw) 4)
    let m := m.setChunk x.ctx p g x.c ((vs.zip x.h).map (fun y => y.1 + y.2)) (w + x.hw)
    m.setGossip x.ctx x.slot ((g.count 0 (sumWords x.h)).count 1 x.hw)

/-- GOSSIP_MESSAGE_ARRIVE: the receiver decides each message once; an enquiry is a message that does not arrive
whole (R373, DESIGN CHOICE, log entry 44). -/
def Mach.gossipArrive (m : Mach) (t : Nat) (x : GossipMsg) : Mach :=
  let id := (x.src, x.ctx, x.slot, x.seq)
  if m.verdicts.any (fun v => v.1 = id) then m
  else
    match m.accepts x with
    | some (g, j) =>
      let m := m.applyMsg t x g j
      { m with verdicts := (id, true) :: m.verdicts }
    | none => { m with verdicts := (id, false) :: m.verdicts }

/-- GOSSIP_ENQUIRY: no answer within 1 ms, or the link that carried the message has gone down since the last enquiry; an enquiry
without a route is repeated every 1 ms (R373). -/
def Mach.gossipEnquiry (m : Mach) (now id : Nat) : Option Mach :=
  match m.gmsgs.find id with
  | none => none
  | some x =>
    if 600000 + x.sent ≤ now || x.cut then some { m with gmsgs := m.gmsgs.put id { x with sent := now, cut := false } }
    else none

/-- Adds a refused message's halves back (R373). -/
def Mach.addBack (m : Mach) (t : Nat) (x : GMsg) (g : Gossip) : Mach :=
  let p := m.part (m.ctxPart x.ctx)
  if m.anyBad (g.chunkKeys p x.msg.c) then m.consume t x.ctx (g.chunkKeys p x.msg.c)
  else
    let vs := m.chunkValues p g x.msg.c
    let w := m.regionWord p g (g.weightAt x.msg.c)
    let m := m.setChunk x.ctx p g x.msg.c ((vs.zip x.msg.h).map (fun y => y.1 + y.2)) (w + x.msg.hw)
    m.setGossip x.ctx x.rgn (((g.count 0 (sumWords x.msg.h)).count 1 x.msg.hw).count 6 1)

/-- GOSSIP_DECISION_LEARNED (R373, R379). A decision that finds its slot gone changes nothing (R387). -/
def Mach.gossipLearned (m : Mach) (t id : Nat) (applied : Bool) : Option Mach :=
  match m.gmsgs.find id with
  | none => none
  | some x =>
    let m := { m with gmsgs := m.gmsgs.del id }
    let m := match m.gossipOf x.ctx x.rgn with
      | none => m
      | some g =>
        let g := ((g.count 2 (0 - sumWords x.msg.h)).count 3 (0 - x.msg.hw)).count 4 (0 - 1)
        if applied then m.setGossip x.ctx x.rgn g else m.addBack t x g
    match x.step with
    | none => some m
    | some (b, w, op) =>
      match m.warp b w with
      | some (_, y) => some (m.setWarp b w (y.setPayload op (.atomicResult true Result.none [])))
      | none => some m

/-! ### Instructions at their turn -/

/-- Two ranges overlap. -/
def overlaps (a b : Nat × Nat) : Bool := a.1 < b.1 + b.2 && b.1 < a.1 + a.2

/-- Whether GCTL.start refuses a descriptor (R370, R371). -/
def Mach.regionRefused (m : Mach) (ctx : Nat) (g : Gossip) : Bool :=
  let rs := g.ranges
  let ns := (List.range g.nn).map g.nbr
  g.nch = 0 || 2 ^ 24 < g.nch || 2 < g.csz || g.nn = 0 || 8 < g.nn || 1 < g.gmode ||
  g.word 3 != 0 || g.word 14 != 0 || g.word 15 != 0 ||
  (List.range 8).any (fun j => g.nn ≤ j && g.nbr j != 0) ||
  g.vbase % 64 != 0 || g.wbase % 8 != 0 || g.sbase % 4 != 0 ||
  rs.any (fun r => 2 ^ 57 < r.1 + r.2) ||
  (List.range 3).any (fun i => (List.range i).any (fun j => overlaps (rs.getD i (0, 0)) (rs.getD j (0, 0)))) ||
  (m.ctx ctx).gossip.any (fun e => e.2.ranges.any (fun r => rs.any (overlaps r))) ||
  ns.any (fun n => n = m.pkg.toNat || 4095 < n) || ns.eraseDups.length != ns.length

/-- The translations of a range's granules, or the fault of the first that fails (R371). -/
def Mach.pinRange (m : Mach) (ctx : Nat) : List (Nat × Nat) → Tbl Nat → Except (Nat × Nat) (Tbl Nat)
  | [], ps => .ok ps
  | (va, n) :: rest, ps =>
    match m.translateEngine ctx va .write with
    | .error c => .error (c, va)
    | .ok pa =>
      match m.offIndex ((m.part (m.ctxPart ctx)).places pa n) with
      | some i => .error (paRange, va + i)
      | none => m.pinRange ctx rest (ps.put (va / 2 ^ 16) (pa - va % 2 ^ 16))

/-- The words that binding a slot reads, and the spread records that it writes. -/
def Gossip.sumKeys (g : Gossip) (p : Part) : List Nat := g.keys p g.vbase (8 * (g.values * g.nch)) ++ g.keys p g.wbase (8 * g.nch)
def Gossip.spreadKeys (g : Gossip) (p : Part) : List Nat := g.keys p g.sbase (4 * (g.nn * g.nch))

/-- Binds a slot (R371): +∞ in every spread record, the counters from the storage, RATE 4096. It consumes uncorrectable words that it
sums, or granules of which it writes a part (16_die.md R300, R301). -/
def Mach.bindRegion (m : Mach) (t ctx rgn : Nat) (g : Gossip) : Mach :=
  let p := m.part (m.ctxPart ctx)
  if m.anyBad (g.sumKeys p) then m.consume t ctx (g.sumKeys p)
  else m.consumeWrite t ctx (g.spreadKeys p) fun m =>
  let m := m.claim ctx (g.sumKeys p)
  let m := (List.range (g.nn * g.nch)).foldl (fun m i =>
    m.regionWrite ctx p g (g.sbase + 4 * i) (leBytes (Num.f32.inf false) 4)) m
  let sumAt (base n : Nat) : DWord := sumWords ((List.range n).map (fun i => m.regionWord p g (base + 8 * i)))
  let g := { g with
    rate := 4096, due := t
    mass := [sumAt g.vbase (g.values * g.nch), sumAt g.wbase g.nch, 0, 0, 0, 0, 0] }
  let lines := g.ranges.foldr (fun r l => g.keys p r.1 r.2 ++ l) []
  ({ m with l1 := m.l1.filter (fun e => !lines.any (fun k => k / 128 = e.line)) }).setGossip ctx rgn g

/-- An empty slot with a descriptor. -/
def Gossip.ofDesc (desc : List Word) : Gossip :=
  { desc := desc, stopped := false, unbinding := false, rate := 4096, pass := 0, chunk := 0, due := 0, msgs := 0,
    mass := [], pins := [] }

/-- The 16 words of a descriptor at its places. -/
def Mach.descWords (m : Mach) (keys : List Nat) : List Word :=
  (List.range 16).map (fun k => BitVec.ofNat 32 (leNat (m.bytes ((keys.drop (4 * k)).take 4))))

/-- A 64-byte descriptor at an address: its places, or the fault. -/
def Mach.descKeys (m : Mach) (blk : Block) (a cause : Nat) : Except (Nat × Nat) (List Nat) :=
  if a % 64 != 0 then .error (cause, 0)
  else if 2 ^ 57 < a + 64 then .error (addressRange, max a (2 ^ 57))
  else m.coreKeys blk.core blk.ctx .read a 64

/-- GCTL.start at its turn (R371). -/
def Mach.gctlStart (m : Mach) (t : Nat) (blk : Block) (o : Op) (rgn a : Nat) : Mach × Ran :=
  if (m.gossipOf blk.ctx rgn).isSome then (m, .fault (o.info gossipDesc 0))
  else
    match m.descKeys blk a gossipDesc with
    | .error (c, va) => (m, .fault (o.info c va))
    | .ok keys =>
      let g := Gossip.ofDesc (m.descWords keys)
      if m.anyBad keys then (m.consume t blk.ctx keys, .killed)
      else if m.regionRefused blk.ctx g then (m, .fault (o.info gossipDesc 0))
      else
        let m := m.brought blk.ctx a 64 keys
        match m.pinRange blk.ctx (g.ranges.foldr (fun r l => granuleChunks (r.2 / 2 ^ 16 + 2) r.1 r.2 ++ l) []) [] with
        | .error (c, va) => (m, .fault (o.info c va))
        | .ok ps => (m.bindRegion t blk.ctx rgn { g with pins := ps }, Ran.nothing 0)

/-- The lanes of an operation that fail an index check, and the fault that they give (R380). -/
def Op.indexFault (o : Op) (bad : Nat → Bool) : Option FaultInfo :=
  if (lanesOf o.mask 64).any bad then some { o.info gossipRange 0 with fmask := maskOf 64 (fun l => o.mask.getLsbD l && bad l) }
  else none

/-- GADD at its turn: its index check, and its terms, onto the grid, with their addresses and exceptions (R381). -/
def gaddRun (o : Op) (g : Gossip) (a b c : FMap 32) : Except FaultInfo (List (Nat × DWord) × Num.Exc) :=
  match o.indexFault (fun l => g.nch ≤ cap32 b l || g.values ≤ cap32 c l) with
  | some f => .error f
  | none =>
    let xs := (lanesOf o.mask 64).map (fun l =>
      (g.valueAt (cap32 b l) (cap32 c l), Num.ontoGrid (Num.decodeF Num.f32 (cap32 a l)) g.k))
    .ok (xs.map (fun x => (x.1, x.2.1)), orExc (xs.map (fun x => x.2.2)))

/-- The terms of a GADD are applied, those of a chunk in one event with all others (R376, R379, R381). -/
def Mach.gaddApply (m : Mach) (t : Nat) (blk : Block) (rgn : Nat) (xs : List (Nat × DWord)) : Mach :=
  match m.gossipOf blk.ctx rgn with
  | none => m
  | some g =>
    let p := m.part blk.part
    let keys := xs.foldr (fun x l => g.keys p x.1 8 ++ l) []
    if m.anyBad keys then m.consume t blk.ctx keys
    else
      let q := sumWords (xs.map (·.2))
      (xs.foldl (fun m x => m.regionWrite blk.ctx p g x.1 (leBytes (m.regionWord p g x.1 + x.2).toNat 8)) m).setGossip blk.ctx rgn
        ((g.count 0 q).count 5 q)

/-- One quotient of GRD (R382). -/
def grdValue (r : Num.Rnd) (g : Gossip) (v w : DWord) : Nat × Num.Exc :=
  if w = 0 then (Num.f32.qnan, Num.nv)
  else if v = 0 then (0, 0#5)
  else Num.resultF Num.f32 r [] (Num.divFin (decide (v.toInt < 0) != decide (w.toInt < 0)) v.toInt.natAbs g.k w.toInt.natAbs (-62))

/-- GRD at its turn (R382); an enabled exception is the operation's fault and still sets FLAGS (04_numbers.md R87, R89). -/
def Mach.grdRun (m : Mach) (t : Nat) (blk : Block) (o : Op) (f : Fields) (g : Gossip) (a b c : FMap 32) : Mach × Ran :=
  let p := m.part blk.part
  let mode := (m.launchOf blk).mode
  let ls := lanesOf o.mask 64
  match o.indexFault (fun l => g.nch ≤ cap32 b l || g.values ≤ cap32 c l) with
  | some e => (m, .fault e)
  | none =>
    let keys := ls.foldr (fun l ks => g.keys p (g.valueAt (cap32 b l) (cap32 c l)) 8 ++ g.keys p (g.weightAt (cap32 b l)) 8 ++ ks) []
    if m.anyBad keys then (m.consume t blk.ctx keys, .killed)
    else
      let m := m.claim blk.ctx keys
      let xs := ls.map (fun l => (l, grdValue (roundingOf mode (bitsAt f.mod 0 3) (f.mod.getLsbD 3) (cap32 a l)) g
        (m.regionWord p g (g.valueAt (cap32 b l) (cap32 c l))) (m.regionWord p g (g.weightAt (cap32 b l)))))
      let e := orExc (xs.map (fun x => x.2.2))
      match excCause mode e with
      | some cause =>
        (m, .trap { o.info cause 0 with lane := (firstTrapLane mode cause (xs.map (fun x => (x.1, x.2.2)))).getD 0xFF } e)
      | none =>
        (m, .done (o.result f 1 (fun l _ => BitVec.ofNat 32 (((xs.find? (fun x => x.1 = l)).map (fun x => x.2.1)).getD 0)) e))

/-- GSPRD at its turn: the spread records are patterns of no sign, ordered as their values (R383). -/
def Mach.gsprdRun (m : Mach) (t : Nat) (blk : Block) (o : Op) (f : Fields) (g : Gossip) (b c : FMap 32) : Mach × Ran :=
  let p := m.part blk.part
  let first := o.once32 b
  let n := o.once32 c
  if n != 0 && g.nch < first + n then (m, .fault (o.info gossipRange 0))
  else if m.anyBad (g.keys p (g.spreadAt first 0) (4 * g.nn * n)) then
    (m.consume t blk.ctx (g.keys p (g.spreadAt first 0) (4 * g.nn * n)), .killed)
  else
    let m := m.claim blk.ctx (g.keys p (g.spreadAt first 0) (4 * g.nn * n))
    let x := (List.range (g.nn * n)).foldl (fun a i =>
      max a (leNat (m.bytes (g.keys p (g.spreadAt first 0 + 4 * i) 4)))) 0
    (m, .done (o.result f 1 (fun _ _ => BitVec.ofNat 32 x) 0))

/-- A gossip operation's turn: its outcome, or none while it waits. A GADD completes with its terms read, and keeps them. -/
def Mach.gossipRun (m : Mach) (t b w op : Nat) (blk : Block) (o : Op) (i : Instr) (f : Fields) (a x c : FMap 32) :
    Mach × Option Ran :=
  let rgn := rgnOf f
  let ctx := blk.ctx
  let fail (cause : Nat) : Mach × Option Ran := (m, some (.fault (o.info cause 0)))
  match i, m.gossipOf ctx rgn with
  | .gsync _, _ => (m, some (Ran.nothing 0))
  | .gctlStart _, _ => let r := m.gctlStart t blk o rgn (o.once64 a); (r.1, some r.2)
  | _, none => fail gossipDesc
  | .gadd _, some g =>
    match gaddRun o g a x c, m.warp b w with
    | .error e, _ => (m, some (.fault e))
    | .ok (xs, e), some (_, y) => (m.setWarp b w (y.setPayload op (.terms rgn xs)), some (Ran.nothing e))
    | .ok _, none => (m, none)
  | .grd _, some g => let r := m.grdRun t blk o f g a x c; (r.1, some r.2)
  | .gsprd _, some g => let r := m.gsprdRun t blk o f g x c; (r.1, some r.2)
  | .gmass _, some g =>
    let y := g.counter (bitsAt f.mod 8 4)
    (m, some (.done (o.result f 2 (fun _ k => BitVec.ofNat 32 (bitsAt y (32 * k) 32)) 0)))
  | .gctlStop _, some g =>
    let unb := f.mod.getLsbD 7
    let m1 := m.setGossip ctx rgn { g with stopped := true, unbinding := g.unbinding || unb }
    if !unb then (m1, some (Ran.nothing 0))
    else if m.slotUndecided ctx rgn || m.termsDue ctx rgn then (m1, none)
    else
      let k := m.ctx ctx
      (m.setCtx ctx { k with gossip := k.gossip.del rgn }, some (Ran.nothing 0))
  | .gctlRate _, some g =>
    if g.stopped then fail gossipDesc
    else
      let r := BitVec.ofNat 32 (o.once32 a)
      (m.setGossip ctx rgn { g with rate := r, due := g.due - g.rate.toNat + r.toNat }, some (Ran.nothing 0))
  | .gctlStep _, some g =>
    match stepTarget (some g) (o.once32 a) (o.once32 x) with
    | .error cause => fail cause
    | .ok _ => (m, none)
  | _, _ => (m, none)

/-- Whether a gossip operation's turn changes anything now: a step waits for its snapshot, an unbinding for its slot's
decisions and terms, and a GSYNC for its warp's earlier GADDs (R384, R385). -/
def Mach.gossipReady (m : Mach) (blk : Block) (w : Warp) (o : Op) (i : Instr) (f : Fields) (a x : FMap 32) : Bool :=
  match i, m.gossipOf blk.ctx (rgnOf f) with
  | .gsync _, _ => !w.held Op.unapplied o.seq
  | .gctlStep _, g => (match stepTarget g (o.once32 a) (o.once32 x) with
    | .error _ => true
    | .ok _ => false)
  | .gctlStop _, some g => !(g.unbinding && f.mod.getLsbD 7 && (m.slotUndecided blk.ctx (rgnOf f) || m.termsDue blk.ctx (rgnOf f)))
  | _, _ => true

/-- From the issue of a GCTL.stop.unb its slot refuses every incoming message and starts no exchange (R385). -/
def Cx.unbinds (c : Cx) : Cx :=
  match c.i, c.m.gossipOf c.blk.ctx (rgnOf c.f) with
  | .gctlStop _, some g =>
    if c.adm != 0 && c.f.mod.getLsbD 7 then { c with m := c.m.setGossip c.blk.ctx (rgnOf c.f) { g with unbinding := true } } else c
  | _, _ => c

/-- Issues a gossip instruction with its operands as read at issue; GADD's terms and GRD's random word are read
by lane (R380, R381). -/
def actGossip : Act := fun c =>
  .ok (c.unbinds.start none (.gossip c.i
    (match c.i with
      | .gadd _ => valsOf 1 c.lanes (fun l _ => BitVec.ofNat 32 (c.rdF Num.f32 c.f.a l))
      | _ => c.capture c.f.a 2)
    (c.capture c.f.b 1) (c.capture c.f.c 1)))

/-- GSYNC (R384); one that names no flag orders nothing. -/
def actGsync : Act := fun c => if c.flagNo = none then .ok c else actGossip c

/-- FREE_RUN_TICK (R374): Every RATE cycles a free-running slot starts its next chunk exchange. -/
def execFreeRunTick (ctx rgn : Nat) (s : State) : Host.Outcome State Fault Refusal :=
  eventW s ((s.m.freeRunTick s.now ctx rgn).map (fun m => (s.now, m)))

/-- GOSSIP_SNAPSHOT (R373): A link engine halves a chunk and sends the halves to a neighbour. -/
def execGossipSnapshot (ctx rgn chunk nbr : Nat) (s : State) : Host.Outcome State Fault Refusal :=
  eventW s ((s.m.gossipSnapshot s.now ctx rgn chunk nbr).map (fun m => (s.now, m)))

/-- GOSSIP_MESSAGE_ARRIVE (R373): A receiver decides an arriving message, applying or refusing it. -/
def execGossipMessageArrive (x : GossipMsg) (s : State) : Host.Outcome State Fault Refusal :=
  eventW s (some (s.now, s.m.gossipArrive s.now x))

/-- GOSSIP_ENQUIRY (R373): A sender with no answer after 1 ms or a failed link enquires about its message. -/
def execGossipEnquiry (msg : Nat) (s : State) : Host.Outcome State Fault Refusal :=
  event s ((s.m.gossipEnquiry s.now msg).map (fun m => (s.now, m)))

/-- GOSSIP_DECISION_LEARNED (R373): A sender learns a decision, adding halves back on a refusal. -/
def execGossipDecisionLearned (msg : Nat) (applied : Bool) (s : State) : Host.Outcome State Fault Refusal :=
  eventW s ((s.m.gossipLearned s.now msg applied).map (fun m => (s.now, m)))

/-- GADD (R381): Adds float terms onto gossip region values. -/
def execGadd (w : CForm) (s : State) : Host.Outcome State Fault Refusal := issue (.gadd w) actGossip s

/-- GRD (R382): Reads value divided by weight from a gossip region. -/
def execGrd (w : CForm) (s : State) : Host.Outcome State Fault Refusal := issue (.grd w) actGossip s

/-- GSPRD (R383): Reads the largest spread record over a chunk range. -/
def execGsprd (w : CForm) (s : State) : Host.Outcome State Fault Refusal := issue (.gsprd w) actGossip s

/-- GSYNC (R384): Completes once the warp's earlier GADDs are applied. -/
def execGsync (w : CForm) (s : State) : Host.Outcome State Fault Refusal := issue (.gsync w) actGsync s

/-- GCTL_START (R371): Binds a region slot from a descriptor and starts it. -/
def execGctlStart (w : CForm) (s : State) : Host.Outcome State Fault Refusal := issue (.gctlStart w) actGossip s

/-- GCTL_STOP (R385): Stops snapshots, optionally unbinding the slot. -/
def execGctlStop (w : CForm) (s : State) : Host.Outcome State Fault Refusal := issue (.gctlStop w) actGossip s

/-- GCTL_RATE (R385): Sets the exchange rate of a slot. -/
def execGctlRate (w : CForm) (s : State) : Host.Outcome State Fault Refusal := issue (.gctlRate w) actGossip s

/-- GCTL_STEP (R385): Performs one stepped exchange of a chunk. -/
def execGctlStep (w : CForm) (s : State) : Host.Outcome State Fault Refusal := issue (.gctlStep w) actGossip s

/-- GMASS (R386): Reads a mass counter of a slot. -/
def execGmass (w : CForm) (s : State) : Host.Outcome State Fault Refusal := issue (.gmass w) actGossip s

end Sys2Proof.Machine
end

