-- ==== Sys2Proof/Machine/Coll.lean ====
section
/-!
DEFINITION. Collectives (21_fabric.md R364 to R369).
-/
namespace Sys2Proof.Machine
open Sys2Proof

def collDesc : Nat := 0xA4
def collAbort : Nat := 0xA5

/-- A collective descriptor's fields (R364), from its 16 words. -/
structure CollDesc where
  tag  : Word
  g    : Nat
  rank : Nat
  n    : Nat
  k    : Int
  it   : Nat
  ot   : Nat
  rnd  : Nat
  root : Nat
  memb : Nat
  zero : Bool
  deriving DecidableEq, Repr

def collFields (ws : List Word) : CollDesc :=
  let w (k : Nat) : Word := ws.getD k 0
  { tag := w 0, g := bitsAt (w 1) 0 16, rank := bitsAt (w 1) 16 16, n := (w 2).toNat, k := sx 8 (bitsAt (w 3) 0 8),
    it := bitsAt (w 3) 8 8, ot := bitsAt (w 3) 16 8, rnd := bitsAt (w 3) 24 8, root := bitsAt (w 4) 0 16,
    memb := (w 6).toNat + 2 ^ 32 * (w 7).toNat,
    zero := bitsAt (w 4) 16 16 = 0 && w 5 = 0 && (List.range 8).all (fun i => w (8 + i) = 0) }

/-- A descriptor that R364 permits, its member list apart. -/
def CollDesc.ok (d : CollDesc) (fn width : Nat) (reg : Bool) : Bool :=
  1 ≤ d.g && d.g ≤ 4096 && d.rank < d.g && 1 ≤ d.n && d.n ≤ 2 ^ 28 && d.it ≤ 1 && d.ot ≤ 1 && d.rnd ≤ 4 &&
  d.root < d.g && d.zero && d.memb % 2 = 0 && !(2 ≤ fn && d.it != d.ot) && !(reg && (d.it != 0 || d.ot != 0 || d.n != width))

/-- A member list that R364 permits. -/
def membersOk (ms : List Nat) (rank pkg : Nat) : Bool :=
  ms.getD rank 0 = pkg && ms.all (fun x => x ≤ 4095) && ms.eraseDups.length = ms.length

/-- The number of source and of destination elements (R367). -/
def CollDesc.srcLen (d : CollDesc) (fn : Nat) : Nat := if fn = 1 then d.g * d.n else d.n
def CollDesc.dstLen (d : CollDesc) (fn : Nat) : Nat := if fn = 2 then d.g * d.n else d.n
def elemSize (ty : Nat) : Nat := if ty = 0 then 4 else 8

/-- The places of a range of global memory; one beyond the address space fails with ADDRESS_RANGE (R149). -/
def Mach.rangeKeys (m : Mach) (blk : Block) (acc : Access) (a n : Nat) : Except (Nat × Nat) (List Nat) :=
  if 2 ^ 57 < a + n then .error (addressRange, max a (2 ^ 57)) else m.coreKeys blk.core blk.ctx acc a n

/-- The places of a COLL's source and destination, in its memory form (R365, R367). -/
def Mach.collKeys (m : Mach) (blk : Block) (d : CollDesc) (fn dst src : Nat) : Except (Nat × Nat) (List Nat × List Nat) :=
  match m.rangeKeys blk .read src (d.srcLen fn * elemSize d.it) with
  | .error e => .error e
  | .ok ks => (m.rangeKeys blk .write dst (d.dstLen fn * elemSize d.ot)).map (fun kd => (ks, kd))

/-- The 16-bit package numbers of a member list at its places. -/
def Mach.members (m : Mach) (g : Nat) (keys : List Nat) : List Nat :=
  (List.range g).map (fun i => leNat (m.bytes ((keys.drop (2 * i)).take 2)))

/-- A COLL's acceptance at its turn: its checks, then its place among the instances of its tag (R364, R366). The
descriptor and the member list are kept from there on, in words 0 to 15 and from 16 on. One that reads uncorrectable data consumes
it, and joins nothing (16_die.md R300). -/
def Mach.collAccept (m : Mach) (t : Nat) (blk : Block) (o : Op) (f : Fields) (a b c : FMap 32) :
    Except FaultInfo (Mach × Option (FMap 32 × Nat)) :=
  let reg := f.mod.getLsbD 16
  let fn := f.fn.toNat
  match m.descKeys blk (o.once64 c) collDesc with
  | .error (cause, va) => .error (o.info cause va)
  | .ok keys =>
    let ws := m.descWords keys
    let d := collFields ws
    if m.anyBad keys then .ok (m.consume t blk.ctx keys, none)
    else if !d.ok fn blk.width reg then .error (o.info collDesc 0)
    else
      let m := m.brought blk.ctx (o.once64 c) 64 keys
      match m.rangeKeys blk .read d.memb (2 * d.g) with
      | .error (cause, va) => .error (o.info cause va)
      | .ok keys =>
        let ms := m.members d.g keys
        if m.anyBad keys then .ok (m.consume t blk.ctx keys, none)
        else if !membersOk ms d.rank m.pkg.toNat then .error (o.info collDesc 0)
        else
          match (if reg then .ok ([], []) else m.collKeys blk d fn (o.once64 a) (o.once64 b)) with
          | .error (cause, va) => .error (o.info cause va)
          | .ok _ =>
            let k := ((m.colls.find? (fun e => e.ctx = blk.ctx && e.tag = d.tag)).map (fun e => e.count)).getD 0 + 1
            let rest := m.colls.filter (fun e => !(e.ctx = blk.ctx && e.tag = d.tag))
            .ok ({ m.brought blk.ctx d.memb (2 * d.g) keys with colls := { ctx := blk.ctx, tag := d.tag, count := k } :: rest },
              some (((ws ++ ms.map (BitVec.ofNat 32)).foldl (fun (s : FMap 32 × Nat) x => (s.1.set s.2 x, s.2 + 1)) ([], 0)).1, k))

/-- The words that members must agree on (R366): TAG, G, N, K, IT, OT, RND and ROOT. -/
def agreeWords (ws : List Word) : List Nat :=
  [(ws.getD 0 0).toNat, bitsAt (ws.getD 1 0) 0 16, (ws.getD 2 0).toNat, (ws.getD 3 0).toNat, bitsAt (ws.getD 4 0) 0 16]

/-- One element onto the grid (R367). -/
def collTerm (d : CollDesc) (x : DWord) : DWord × Num.Exc :=
  if d.it = 1 then (x, 0#5) else Num.ontoGrid (Num.decodeF Num.f32 (x.toNat % 2 ^ 32)) d.k

/-- Out (R367). -/
def collOut (mode : Word) (d : CollDesc) (q : DWord) : Nat × Num.Exc :=
  if d.ot = 1 then (q.toNat, 0#5)
  else
    let k : Num.Rnd :=
      { rm := Num.rmOf d.rnd (modeRnd mode), gr := false, ftz := modeFtz mode, cnan := modeCnan mode, rand := 0, grand := none }
    Num.drainF Num.f32 k q d.k

/-- The destination's elements from every rank's source (R367). -/
def collResult (mode : Word) (d : CollDesc) (fn : Nat) (srcs : List (List DWord)) : List (Nat × Num.Exc) :=
  let elem (r i : Nat) : DWord := (srcs.getD r []).getD i 0
  (List.range (d.dstLen fn)).map (fun i =>
    if fn = 2 then ((elem (i / d.n) (i % d.n)).toNat, 0#5)
    else if fn = 3 then ((elem d.root i).toNat, 0#5)
    else
      let at_ := if fn = 1 then d.rank * d.n + i else i
      collOut mode d (sumWords ((List.range d.g).map (fun r => (collTerm d (elem r at_)).1))))

/-- The exceptions of a member's own source (R367). -/
def collSrcExc (d : CollDesc) (fn : Nat) (src : List DWord) : Num.Exc :=
  if 2 ≤ fn then 0#5 else orExc (src.map (fun x => (collTerm d x).2))

/-- The elements of bytes. -/
def elemsOf (size : Nat) (bs : List Byte) (n : Nat) : List DWord :=
  (List.range n).map (fun i => BitVec.ofNat 64 (leNat ((bs.drop (size * i)).take size)))

/-- A COLL that has been accepted and waits for its instance. -/
def Mach.collOp (m : Mach) (b w op : Nat) : Option (Block × Warp × Op × Fields × FMap 32 × FMap 32 × FMap 32) :=
  match m.warp b w with
  | none => none
  | some (blk, x) =>
    match x.ops.find op with
    | none => none
    | some o =>
      match o.payload with
      | .coll i a y c inst =>
        if inst = 0 || o.fault.isSome || !m.alive blk then none
        else i.fields.map (fun f => (blk, x, o, f, a, y, c))
      | _ => none

/-- The other members that an instance needs: each other rank once, with a source of its length (R366). -/
def membersPresent (d : CollDesc) (fn : Nat) (others : List CollMember) : Bool :=
  (List.range d.g).all (fun r => r = d.rank || others.any (fun x => x.rank = r && x.src.length = d.srcLen fn))
  && others.length + 1 = d.g

/-- The instance of its tag that an accepted COLL joins. -/
def Op.instance_ (o : Op) : Nat :=
  match o.payload with
  | .coll _ _ _ _ k => k
  | _ => 0

/-- Whether an arriving member is accepted into a COLL's instance: it comes under the context ID and the FTID, and joins the
instance of the same number (R361, R366). -/
def Mach.joins (m : Mach) (blk : Block) (o : Op) (z : CollMember) : Bool :=
  z.ctx = blk.ctx && z.ftid = (m.part blk.part).ftid && z.inst = o.instance_

/-- COLL_INSTANCE_RUN (R366, R367): with what the other members bring. A disagreement faults; otherwise the
destination is written, and the operation completes for its batch in the memory form (R368). -/
def Mach.collRun (m : Mach) (t b w op : Nat) (others : List CollMember) : Option Mach :=
  match m.collOp b w op with
  | none => none
  | some (blk, x, o, f, a, y, c) =>
    let ws := c.getList 0 16
    let d := collFields ws
    let ms := (c.getList 16 d.g).map (·.toNat)
    let reg := f.mod.getLsbD 16
    let fn := f.fn.toNat
    let fails (e : Nat × Nat) : Option Mach := some (m.setWarp b w (x.failOp op (o.info e.1 e.2)))
    if !others.all (m.joins blk o) then none
    else if others.any (fun z => z.fn != f.fn || z.reg != reg || agreeWords z.desc != agreeWords ws || z.membs != ms) then
      fails (collDesc, 0)
    else if !membersPresent d fn others then none
    else
      match (if reg then .ok ([], []) else m.collKeys blk d fn (o.once64 a) (o.once64 y)) with
      | .error e => fails e
      | .ok (ks, kd) =>
        if m.anyBad ks then some (m.consume t blk.ctx ks)
        else
          let src := if reg then (List.range blk.width).map (fun l => if o.mask.getLsbD l then (a.get (resKey 0 l)).zeroExtend 64 else 0)
            else elemsOf (elemSize d.it) (m.bytes ks) (d.srcLen fn)
          let srcs := (List.range d.g).map (fun r =>
            if r = d.rank then src else ((others.find? (fun z => z.rank = r)).map (fun z => z.src)).getD [])
          let out := collResult (m.launchOf blk).mode d fn srcs
          let exc := collSrcExc d fn src ||| orExc ((out.zip (List.range out.length)).map (fun e =>
            if reg && !o.mask.getLsbD e.2 then 0#5 else e.1.2))
          if reg then
            some (m.setWarp b w (x.setPayload op (.result (o.result f 1 (fun l _ => BitVec.ofNat 32 (out.getD l (0, 0#5)).1) exc))))
          else
            let x := x.setPayload op (.sourcesRead [] exc)
            let x := { x with ops := x.ops.upd op (fun o => { o with batchDone := true }) }
            let m := (m.setWarp b w x).brought blk.ctx (o.once64 a) ks.length ks
            some (m.updateAt t b .g kd (out.foldr (fun e l => leBytes e.1 (elemSize d.ot) ++ l) []))

/-- COLL_ABORT (R369): the destination keeps its old bytes (DESIGN CHOICE, log entry 46). -/
def Mach.collAbortOp (m : Mach) (b w op : Nat) : Option Mach :=
  match m.collOp b w op with
  | none => none
  | some (_, x, o, _) => some (m.setWarp b w (x.failOp op (o.info collAbort 0)))

/-- COLL (R365): it joins the open .cl batch (R368). -/
def actColl : Act := fun c =>
  let reg := c.f.mod.getLsbD 16
  .ok (c.start (some 3) (.coll c.i
    (if reg then c.captureF c.f.a 1 else c.capture c.f.a 2)
    (c.capture c.f.b 2) (c.capture c.f.c 2) 0))

/-- COLL (R365): Joins a collective instance over memory or registers. -/
def execColl (w : CForm) (s : State) : Host.Outcome State Fault Refusal := issue (.coll w) actColl s

/-- COLL_INSTANCE_RUN (R367): A collective instance runs once all members have joined. -/
def execCollInstanceRun (blk w op : Nat) (others : List CollMember) (s : State) : Host.Outcome State Fault Refusal :=
  eventW s ((s.m.collRun s.now blk w op others).map (fun m => (s.now, m)))

/-- COLL_ABORT (R369): A member killed or unreachable for 1 ms aborts the instance. -/
def execCollAbort (blk w op : Nat) (s : State) : Host.Outcome State Fault Refusal :=
  event s ((s.m.collAbortOp blk w op).map (fun m => (s.now, m)))

end Sys2Proof.Machine
end

