-- ==== Sys2Proof/Machine/Sched.lean ====
section
/-!
DEFINITION. Starting clauses: what keeps a clause from starting (03_encoding.md R57), its pattern
(12_core_scheduling.md R260, R261), the active set and its refills (R258, R259, 02_warp_state.md R36, R37), and
the choice of the warp (R262 to R265).
-/
namespace Sys2Proof.Machine
open Sys2Proof

/-! ### The next clause -/

/-- The instructions of a clause whose header stands at `pc`. -/
def Mach.clauseBody (m : Mach) (core ctx pc len : Nat) : List Instr :=
  (List.range (len + 1)).filterMap (fun k =>
    match m.fetchWord core ctx (pc + 12 * (k + 1)) with
    | .ok w => decode w
    | .error _ => none)

/-- A clause's pattern from its first occupied cycle (R260). -/
def beatsFrom : Nat → List Instr → List Beat
  | _, [] => []
  | t, i :: is =>
    match i.fields, i.shape with
    | some f, some sh =>
      let regs := bankRegs sh f
      let at_ := t + bankCost regs
      let op := match i.op with
        | some o => o.1
        | none => 0
      { first := t, issue := at_, op := op, fn := f.fn.toNat, regs := regs } :: beatsFrom (at_ + 1 + f.hint.stall.toNat) is
    | _, _ => beatsFrom t is

/-- The number of distinct registers of a list in a bank (02_warp_state.md R42). -/
def bankLoad (rs : List Nat) (b : Nat) : Nat := (rs.filter (fun r => r % 4 = b)).eraseDups.length

/-- Two instructions of one pack that may share their cycles (R261). -/
def coIssue (a b : Beat) : Bool :=
  a.first = b.first && a.issue = b.issue && a.op = b.op && a.fn = b.fn &&
  (List.range 4).all (fun k =>
    let both := bankLoad (a.regs ++ b.regs) k
    both ≤ bankLoad a.regs k && both ≤ bankLoad b.regs k)

/-- Whether a clause's pattern collides with a started clause's (R261). -/
def collides (samePack : Bool) (xs ys : List Beat) : Bool :=
  xs.any (fun a => ys.any (fun b => a.first ≤ b.issue && b.first ≤ a.issue && !(samePack && coIssue a b)))

/-- What stands in the way of a warp's next clause from one PC slot. -/
inductive NextClause where
  /-- The slot is empty. -/
  | empty
  /-- The header cannot be fetched, or is none: the cause (R62, 16_die.md R297). -/
  | bad (cause : Nat)
  /-- A flag of its WAIT mask has its fault bit set (02_warp_state.md R24). -/
  | faulted (k : Nat)
  /-- A flag of its WAIT mask is not clear. -/
  | waiting
  /-- A flag, a queue or a COLL's register has no room for it (R57). -/
  | held
  | ready (hdr : Header) (body : List Instr)
  deriving DecidableEq, Repr

/-- Whether an operation is in its unit, or will be again: it has not faulted for good (18_traps.md R343). -/
def Op.engaged (o : Op) : Bool :=
  match o.fault with
  | some f => isTranslation f.cause
  | none => true

/-- The operations of a warp that a test holds for and that have not faulted for good. -/
def Warp.countOps (w : Warp) (p : Payload → Bool) : Nat := (w.ops.filter (fun e => p e.2.payload && e.2.engaged)).length

/-- Instructions by the unit queue that they enter (R57). -/
def entersQueue : Instr → Bool
  | .st _ => true
  | .sst _ => true
  | .axch _ => true
  | .acas _ => true
  | .aadd _ => true
  | .amnmx _ => true
  | .alop _ => true
  | .agadd _ => true
  | .ainc _ => true
  | .mqchk _ => true
  | _ => false
def opcodeOf (i : Instr) : Nat :=
  match i.op with
  | some o => o.1
  | none => 0
def entersField (i : Instr) : Bool := 0x90 ≤ opcodeOf i && opcodeOf i ≤ 0x97
def entersMatrix (i : Instr) : Bool := 0xA0 ≤ opcodeOf i && opcodeOf i ≤ 0xAA

/-- The batch class that a BCLOSE closes. -/
def closesOf (i : Instr) : Option Nat :=
  match i with
  | .bclose w => some (bitsAt w.fn 0 2)
  | _ => none

/-- Whether every unit queue has room for a clause (R57): the store queue 32 (07_core_memory.md R156), the field
unit 8 (08_field_unit.md R191), the matrix engine 8 (10_matrix.md R223), the copy engine 16 and 16 and the
batches 64 (11_async_armature.md R228, R231). -/
def Warp.roomFor (w : Warp) (body : List Instr) : Bool :=
  let n (p : Instr → Bool) : Nat := (body.filter p).length
  w.queue.length + n entersQueue ≤ 32 &&
  w.countOps (fun p => match p with
    | .field .. => true
    | .splat .. => true
    | _ => false) + n entersField ≤ 8 &&
  w.countOps (fun p => match p with
    | .matrix .. => true
    | _ => false) + n entersMatrix ≤ 8 &&
  (w.ops.filter (fun e => match e.2.payload with
    | .copy .. => !e.2.batchDone && e.2.engaged
    | _ => false)).length + n (fun i => opcodeOf i = 0xB0) ≤ 16 &&
  (w.ops.filter (fun e => match e.2.payload with
    | .bulk .. => !e.2.batchDone
    | .retry (.cpyb _) _ _ _ => e.2.engaged
    | _ => false)).length + n (fun i => opcodeOf i = 0xB1) ≤ 16 &&
  (List.range 4).all (fun k => (w.batch k).out + n (fun i => closesOf i = some k) ≤ 64)

/-- Whether every flag has room for the increments of a clause (R57, 02_warp_state.md R23). -/
def Warp.flagRoom (w : Warp) (h : Header) (body : List Instr) : Bool :=
  let uses (fs : Nat) : Nat := (body.filter (fun i => match i.fields, i.shape with
    | some f, some sh => sh.cls = .variable && bitsAt f.mod 18 2 = fs
    | _, _ => false)).length
  let n (k : Nat) : Nat :=
    (if h.e1 && h.f1.toNat = k then uses 1 else 0) + (if h.e2 && h.f2.toNat = k then uses 2 else 0)
  (List.range 12).all (fun k => n k = 0 || (w.counts.get k).toNat + n k ≤ 63)

/-- The main-file registers and the buffer entries that a write of a destination reaches (02_warp_state.md R34). -/
def Warp.reached (w : Warp) (d : Operand) (n : Nat) (wt : Bool) : List Nat × List Nat :=
  let rs := match d with
    | .b k => if wt then (w.mapOf k.toNat).toList else []
    | _ => opRegs d n
  let own := match d with
    | .b k => [k.toNat]
    | _ => []
  (rs, own ++ rs.foldr (fun r l => w.mappers r ++ l) [])

/-- Whether a clause reads or writes a register that an outstanding COLL writes, one that stands at a translation fault
included (02_warp_state.md R25, 21_fabric.md R368). -/
def Warp.collHolds (w : Warp) (body : List Instr) : Bool :=
  let pending : List (List Nat × List Nat) := w.ops.filterMap (fun e =>
    if e.2.flagDone || (e.2.fault.isSome && !e.2.unresolved) then none
    else match e.2.word with
      | some (.coll c) => if c.mod.getLsbD 16 then some (w.reached c.d 1 c.hint.wt) else none
      | _ => none)
  let hit (x : List Nat × List Nat) : Bool :=
    pending.any (fun p => p.1.any (fun r => x.1.contains r) || p.2.any (fun k => x.2.contains k))
  !pending.isEmpty && body.any (fun i => match i.fields, i.shape with
    | some f, some sh =>
      hit (w.reached f.d sh.d.count f.hint.wt) ||
      (srcUses sh f).any (fun u => hit (opRegs u.1 u.2.1, match u.1 with
        | .b k => [k.toNat]
        | _ => []))
    | _, _ => false)

/-- The state of a warp's next clause from a PC slot (R57, R62). -/
def Mach.nextClause (m : Mach) (blk : Block) (w : Warp) (s : Nat) : NextClause :=
  let p := w.slot s
  let pc := p.pc.toNat
  if !p.live then .empty
  else
    match m.isHeader blk.core blk.ctx pc with
    | .error c => .bad c
    | .ok false => .bad brxTarget
    | .ok true =>
      match m.fetchWord blk.core blk.ctx pc with
      | .error c => .bad c
      | .ok word =>
        match decodeHeader word with
        | none => .bad brxTarget
        | some h =>
          match (List.range 12).find? (fun k => h.wait.getLsbD k && w.bits.getLsbD k) with
          | some k => .faulted k
          | none =>
            if (List.range 12).any (fun k => h.wait.getLsbD k && w.counts.get k != 0) then .waiting
            else
              let body := m.clauseBody blk.core blk.ctx pc h.len.toNat
              if w.roomFor body && w.flagRoom h body && !w.collHolds body then .ready h body else .held

/-- The PC slot whose clause the warp starts next: the one whose turn it is, or the other where only that one
can start, but for the clause that follows a divergent BRA (06_isa_control.md R141). -/
def Mach.nextSlot (m : Mach) (blk : Block) (w : Warp) : Nat :=
  if w.nextFirst && (w.slot w.turn).live then w.turn
  else
  match m.nextClause blk w w.turn with
  | .ready .. => w.turn
  | .bad _ => w.turn
  | .faulted _ => w.turn
  | _ =>
    match m.nextClause blk w (1 - w.turn) with
    | .empty => w.turn
    | .waiting => w.turn
    | .held => w.turn
    | _ => 1 - w.turn

/-- A warp that stands at a clause boundary and may start a clause by the state of its block (R260, R269, 18_traps.md R341). -/
def Block.mayStart (b : Block) (wid : Nat) (w : Warp) : Bool :=
  w.stop.isNone && w.clause.isNone && !w.ended && w.sleeping.isEmpty && !b.out && !b.past &&
  (if b.halted then b.handler = some wid else b.primary.isNone)

/-- Whether a warp is ready: it could start a clause but for collisions and refills (R258). One that a fault without a flag is to stop
at its next clause is ready like any other, and stops where it would have started (R268). -/
def Mach.warpReady (m : Mach) (t : Nat) (b : Block) (wid : Nat) (w : Warp) : Bool :=
  b.mayStart wid w && w.free ≤ t && m.alive b &&
  match m.nextClause b w (m.nextSlot b w) with
  | .ready .. => true
  | _ => false

/-! ### Packs -/

/-- The warps of a block that lie in a pack, by index (R256). -/
def Block.packWarps (b : Block) (k : Nat) : Tbl Warp := b.warps.filter (fun e => e.1 / (64 / b.width) = k)
def Block.packOf (b : Block) (wid : Nat) : Nat := wid / (64 / b.width)
def Block.packs (b : Block) : Nat := (b.warpCount + 64 / b.width - 1) / (64 / b.width)

/-- The blocks that stand on a core. -/
def Mach.onCore (m : Mach) (core : Nat) : Tbl Block := m.blocks.filter (fun b => b.2.core = core && !b.2.out && !b.2.past)

/-- The resident packs of an issue slot. -/
def Mach.slotPacks (m : Mach) (core slot : Nat) : List PackId :=
  (m.onCore core).foldr (fun b l =>
    ((List.range b.2.packs).filter (fun k => k % 4 = slot)).map (fun k => { blk := b.1, k := k }) ++ l) []

/-- The warps of a pack with their block. -/
def Mach.packMembers (m : Mach) (p : PackId) : List (Block × Nat × Warp) :=
  match m.block p.blk with
  | none => []
  | some b => (b.packWarps p.k).map (fun e => (b, e.1, e.2))

/-- The effective priority of a warp (R262). -/
def Mach.effPrio (m : Mach) (b : Block) (t : Nat) (w : Warp) : Nat :=
  min (w.settle t).wprio.toNat (bitsAt (m.quotaWord b.part b.core 0) 12 4)

/-- The highest effective priority of a pack's live warps. -/
def Mach.packPrio (m : Mach) (t : Nat) (p : PackId) : Nat :=
  (m.packMembers p).foldl (fun a e => if e.2.2.ended then a else max a (m.effPrio e.1 t e.2.2)) 0

/-- A warp that is to go on inside its clause (02_warp_state.md R40). -/
def Block.midClause (b : Block) (w : Warp) : Bool := w.clause.isSome && w.stop.isNone && !b.out && !b.past

/-- Whether a pack may enter: a warp of it is ready, or is to go on inside a clause with which it was restored (R258). -/
def Mach.packReady (m : Mach) (t : Nat) (p : PackId) : Bool :=
  (m.packMembers p).any (fun e => m.warpReady t e.1 e.2.1 e.2.2 || (m.alive e.1 && e.1.midClause e.2.2))
def Mach.packUrgent (m : Mach) (p : PackId) : Bool := (m.packMembers p).any (fun e => e.2.2.urgent)

/-- Placement order of a pack: its block's on the core, then its index (R258). -/
def Mach.packAge (m : Mach) (p : PackId) : Nat × Nat :=
  match m.block p.blk with
  | some b => (b.age, p.k)
  | none => (0, p.k)
def older (a b : Nat × Nat) : Bool := a.1 < b.1 || (a.1 = b.1 && a.2 < b.2)

/-- The better of two candidates to enter (R258, R265). -/
def Mach.entersFirst (m : Mach) (t : Nat) (a b : PackId) : Bool :=
  let ua := m.packUrgent a
  let ub := m.packUrgent b
  let pa := m.packPrio t a
  let pb := m.packPrio t b
  if ua != ub then ua else if pa != pb then pb < pa else older (m.packAge a) (m.packAge b)

/-- The element of a list that comes before every other by an order. -/
def bestOf {α : Type} (before : α → α → Bool) : List α → Option α
  | [] => none
  | a :: as =>
    match bestOf before as with
    | none => some a
    | some b => some (if before b a then b else a)

/-- The candidates outside the active set (R258). -/
def Mach.candidates (m : Mach) (t core slot : Nat) : List PackId :=
  let act := (m.slotOf core slot).active
  (m.slotPacks core slot).filter (fun p => !act.any (fun a => a.1 = p) && m.packReady t p)

/-- The patterns of the clauses that are under way on a slot, with their packs. -/
def Mach.started (m : Mach) (core slot : Nat) : List (PackId × List Beat) :=
  (m.slotPacks core slot).foldr (fun p l =>
    (m.packMembers p).filterMap (fun e => e.2.2.clause.map (fun c => (p, c.beats))) ++ l) []

/-- Whether a cycle of a slot is taken: by a refill, by a started clause, or by the last instruction of a clause that has
ended in it (R260). -/
def Mach.occupied (m : Mach) (core slot t : Nat) : Bool :=
  (m.slotOf core slot).refill.any (fun r => r.1 ≤ t && t < r.1 + r.2) ||
  (m.slotPacks core slot).any (fun p => (m.packMembers p).any (fun e => t < e.2.2.issuedTo)) ||
  (m.started core slot).any (fun e => e.2.any (fun b => b.first ≤ t && t ≤ b.issue))

/-- The first run of `n` free cycles from `t` on, and after every earlier refill (R259, R273). -/
def Mach.freeRun (m : Mach) (core slot n : Nat) : Nat → Nat → Nat
  | 0, t => t
  | fuel + 1, t =>
    if (List.range n).any (fun i => m.occupied core slot (t + i)) then m.freeRun core slot n fuel (t + 1) else t

/-- Refills the mapped entries of a warp's buffer; an unmapped one reads zero (02_warp_state.md R35, R37). -/
def Warp.refill (w : Warp) (width : Nat) : Warp :=
  let ks := (List.range 16).filterMap (fun k => (w.mapOf k).map (fun r => (k, r)))
  let w := { w with buf := [], deadB := 0 }
  ks.foldl (fun w e =>
    let w := { w with buf := (List.range width).foldl (fun f l => f.set (regKey e.1 l) (w.reg e.2 l)) w.buf }
    if w.deadV.getLsbD e.2 then { w with deadB := w.deadB ||| (1#16 <<< e.1) } else w) w

/-- m of a pack's refill: the most mapped registers in any one bank (R259). -/
def refillCost (ws : List Warp) : Nat :=
  let rs := ws.foldr (fun w l => (List.range 16).filterMap w.mapOf ++ l) []
  1 + (List.range 4).foldl (fun a b => max a (rs.filter (fun r => r % 4 = b)).length) 0

/-- Changes every warp of a pack that has not ended. -/
def Mach.mapPack (m : Mach) (p : PackId) (f : Block → Warp → Warp) : Mach :=
  match m.block p.blk with
  | none => m
  | some b => m.setBlock p.blk { b with warps := b.warps.map (fun e =>
      if b.packOf e.1 = p.k && !e.2.ended then (e.1, f b e.2) else e) }

/-- Whether a pattern shares a cycle of a slot with a started clause that it may not share, or with a refill (R260, R261). -/
def Mach.clashes (m : Mach) (core slot : Nat) (p : PackId) (beats : List Beat) : Bool :=
  (m.started core slot).any (fun x => collides (x.1 = p) beats x.2) ||
  (m.slotOf core slot).refill.any (fun r => beats.any (fun x => x.first < r.1 + r.2 && r.1 ≤ x.issue))

/-- The first cycle from `t` on at which the rest of a clause clashes with nothing on its slot. -/
def Mach.fitAt (m : Mach) (core slot : Nat) (p : PackId) (body : List Instr) : Nat → Nat → Nat
  | 0, t => t
  | fuel + 1, t => if m.clashes core slot p (beatsFrom t body) then m.fitAt core slot p body fuel (t + 1) else t

/-- A warp goes on inside its clause from cycle `t` on: the rest of the clause has its own pattern (12_core_scheduling.md R272,
DEDUCED, log entry 56). -/
def Mach.retimeWarp (m : Mach) (t b w : Nat) : Mach :=
  match m.warp b w with
  | none => m
  | some (blk, x) =>
    match x.clause with
    | none => m
    | some c =>
      let body := (m.clauseBody blk.core blk.ctx c.head c.hdr.len.toNat).drop c.pos
      let p : PackId := { blk := b, k := blk.packOf w }
      let at_ := m.fitAt blk.core (p.k % 4) p body 4096 t
      m.setWarp b w { x with clause := some { c with next := at_, beats := beatsFrom at_ body } }

/-- The warps of a block that a test names and that stand inside a clause go on, one after the other. -/
def Mach.retime (m : Mach) (t b : Nat) (p : Nat → Bool) : Mach :=
  match m.block b with
  | none => m
  | some blk =>
    let goes (w : Nat) (x : Warp) : Bool := p w && blk.midClause x
    let clear (x : Warp) : Warp := { x with clause := x.clause.map (fun c => { c with beats := [] }) }
    let m := m.setBlock b { blk with warps := blk.warps.map (fun e => if goes e.1 e.2 then (e.1, clear e.2) else e) }
    (blk.warps.filter (fun e => goes e.1 e.2)).foldl (fun m e => m.retimeWarp t b e.1) m

/-- PACK_ENTER: the first candidate takes a free entry and refills (R258, R259), reading the registers in this cycle (DESIGN CHOICE, log
entry 86). A warp that is to go on inside a clause keeps its
buffer data, and goes on after the refill (02_warp_state.md R40). -/
def Mach.packEnter (m : Mach) (t core slot : Nat) : Option Mach :=
  let sl := m.slotOf core slot
  if 4 ≤ sl.active.length then none
  else
    match bestOf (m.entersFirst t) (m.candidates t core slot) with
    | none => none
    | some p =>
      let n := refillCost (((m.packMembers p).filter (fun e => !e.2.2.ended)).map (fun e => e.2.2))
      let from_ := sl.refill.foldl (fun a r => max a (r.1 + r.2)) t
      let at_ := m.freeRun core slot n 4096 from_
      let m := m.mapPack p (fun b w => if w.clause.isSome then w else (w.settle t).refill b.width)
      let m := m.setSlotOf core slot { sl with
        active := sl.active ++ [(p, at_ + n)]
        refill := sl.refill.filter (fun r => t < r.1 + r.2) ++ [(at_, n)] }
      some (m.retime (at_ + n) p.blk (fun w => (m.block p.blk).any (fun b => b.packOf w = p.k)))

/-- Whether a live warp stands where R36 lets it leave, for a candidate of a priority and urgency. -/
def Mach.mayLeave (m : Mach) (t : Nat) (b : Block) (w : Warp) (prio : Nat) (urgent : Bool) : Bool :=
  w.stop.isNone && w.clause.isNone && !b.halted &&
  (!w.sleeping.isEmpty || (w.yp && (urgent || m.effPrio b t w ≤ prio)) ||
    (match m.nextClause b w (m.nextSlot b w) with
     | .waiting => true
     | .faulted _ => true
     | _ => false))

/-- Whether a pack may leave the active set for a candidate (R258). -/
def Mach.packMayLeave (m : Mach) (t : Nat) (p : PackId) (prio : Nat) (urgent : Bool) : Bool :=
  (m.packMembers p).all (fun e => e.2.2.ended || m.mayLeave t e.1 e.2.2 prio urgent)

/-- The order in which active packs leave: the lowest highest priority first, then the youngest (R258). -/
def Mach.leavesFirst (m : Mach) (t : Nat) (a b : PackId) : Bool :=
  let pa := m.packPrio t a
  let pb := m.packPrio t b
  if pa != pb then pa < pb else older (m.packAge b) (m.packAge a)

/-- The pack that leaves a full active set for the first candidate (R258).
A pack whose refill is not over stays (DEDUCED, log entry 49). -/
def Mach.leaver (m : Mach) (t core slot : Nat) : Option PackId :=
  let sl := m.slotOf core slot
  if sl.active.length < 4 then none
  else
    match bestOf (m.entersFirst t) (m.candidates t core slot) with
    | none => none
    | some c =>
      let prio := m.packPrio t c
      let urgent := m.packUrgent c
      bestOf (m.leavesFirst t) (((sl.active.filter (fun a => a.2 ≤ t)).map (·.1)).filter (fun p => m.packMayLeave t p prio urgent))

/-- DESCHEDULE: the pack leaves, and its buffer data is discarded while the map is kept (02_warp_state.md R37). -/
def Mach.deschedule (m : Mach) (t core slot : Nat) (p : PackId) : Option Mach :=
  if m.leaver t core slot = some p then
    let sl := m.slotOf core slot
    let m := m.mapPack p (fun _ w => { w.settle t with buf := [], deadB := 0 })
    some (m.setSlotOf core slot { sl with active := sl.active.filter (fun a => a.1 != p) })
  else none

/-! ### Starting a clause -/

/-- Whether a die withholds the starts of a cycle: every second one for its current or at 105 °C, and all but one in eight after
1 ms there (23_physical.md R398, R399, DESIGN CHOICE, log entry 47). -/
def Die.withholds (d : Die) (t : Nat) : Bool := if d.seven then t % 8 != 0 else (d.thr || d.hot) && t % 2 != 0

/-- A warp of E: its block's number, block, index and warp, with its PC slot, header and body (R260). -/
structure Starter where
  blk  : Nat
  b    : Block
  wid  : Nat
  w    : Warp
  slot : Nat
  hdr  : Header
  body : List Instr
  pack : PackId
  deriving DecidableEq, Repr

/-- The warp as a starter at cycle `t`, if it is in E. -/
def Mach.starter (m : Mach) (t core slot : Nat) (p : PackId) (e : Block × Nat × Warp) : Option Starter :=
  let (b, wid, w) := e
  if !(b.mayStart wid w && w.free ≤ t && m.alive b) then none
  else
    let s := m.nextSlot b w
    match m.nextClause b w s with
    | .ready h body =>
      if m.clashes core slot p (beatsFrom t body) then none else some { blk := p.blk, b := b, wid := wid, w := w, slot := s, hdr := h, body := body, pack := p }
    | _ => none

/-- A warp that has been ready for so long that its slot keeps its cycles for it: every ready warp starts within 4096 (R266,
DESIGN CHOICE, log entry 81). -/
def Warp.overdue (w : Warp) : Bool := 3072 ≤ w.readyFor

/-- The packs of a full active set that make way for the urgent packs outside it, as many as those are: their warps wait where R36
lets them leave until the whole pack stands so, and a pack outside comes in within R266's bound (DESIGN CHOICE, log entry 81). -/
def Mach.makeWay (m : Mach) (t core slot : Nat) : List PackId :=
  let sl := m.slotOf core slot
  if sl.active.length < 4 then []
  else
    let n := ((m.candidates t core slot).filter m.packUrgent).length
    let ps := sl.active.map (·.1)
    ps.filter (fun p => (ps.filter (fun q => m.leavesFirst t q p)).length < n)

/-- E (R260). While a ready warp of the active set is overdue, only overdue warps are in it, so that the clauses that stand in its
way end; a warp of a pack that makes way is not in it before it is overdue. A core of a stack that is off starts nothing
(23_physical.md R400). -/
def Mach.starters (m : Mach) (t core slot : Nat) : List Starter :=
  let d := m.die (core / 64)
  let ps := ((m.slotOf core slot).active.filter (fun a => a.2 ≤ t)).map (·.1)
  if m.occupied core slot t || d.withholds t || d.off then []
  else
    let way := m.makeWay t core slot
    let es := (ps.foldr (fun p l => (m.packMembers p).filterMap (m.starter t core slot p) ++ l) []).filter (fun e =>
      !way.contains e.pack || e.w.overdue || !m.mayLeave t e.b e.w 0 true)
    if ps.any (fun p => (m.packMembers p).any (fun e => e.2.2.overdue && m.warpReady t e.1 e.2.1 e.2.2)) then
      es.filter (fun e => e.w.overdue)
    else es

/-- Age of a warp (R263). -/
def Starter.older (a b : Starter) : Bool := a.b.age < b.b.age || (a.b.age = b.b.age && a.wid < b.wid)

/-- Round-robin place: resident position, then octet offset (R262). -/
def Starter.place (a : Starter) : Nat × Nat := (a.b.pos.getD a.pack.k 0, a.wid)

/-- The place of the warp that started the slot's most recent clause (R262, R273). -/
def SlotSt.lastPlace (sl : SlotSt) : Option (Nat × Nat) := if sl.fresh then none else sl.lastAt

/-- The policy's choice among E (R262, R263). -/
def Mach.policy (m : Mach) (t core slot : Nat) (es : List Starter) : Option Starter :=
  let sl := m.slotOf core slot
  if m.svc core = 1 then
    match es.find? (fun e => sl.last = some (e.blk, e.wid)) with
    | some e => some e
    | none => bestOf Starter.older es
  else
    let top := es.foldl (fun a e => max a (m.effPrio e.b t e.w)) 0
    let es := es.filter (fun e => m.effPrio e.b t e.w = top)
    let after := match sl.lastPlace with
      | some l => es.filter (fun e => older l e.place)
      | none => es
    bestOf (fun a b => older a.place b.place) (if after.isEmpty then es else after)

/-- The warp that starts, and the warps whose yields are spent (R264, R265). -/
def Mach.choose (m : Mach) (t core slot : Nat) (es : List Starter) : Option Starter × List Starter :=
  match bestOf Starter.older (es.filter (fun e => e.w.urgent)) with
  | some e => (some e, [])
  | none =>
    let ys := es.filter (fun e => e.w.yield_.isSome)
    if es.length ≤ 1 || ys.isEmpty then (m.policy t core slot es, [])
    else
      let rest := es.filter (fun e => e.w.yield_.isNone)
      (m.policy t core slot (if rest.isEmpty then es else rest), ys)

/-- Starts a clause (R57, R33, 11_async_armature.md R245). -/
def Mach.startClause (m : Mach) (t : Nat) (e : Starter) : Mach :=
  let w := e.w.settle t
  let cl : Clause :=
    { hdr := e.hdr, head := (w.slot e.slot).pc.toNat, slot := e.slot, pos := 0, next := t, skip := 0,
      arm := e.b.armAt (t - 2), beats := beatsFrom t e.body }
  let w := { w with
    h0 := none, h1 := none, clause := some cl, urgent := false, readyFor := 0, yield_ := none, nextFirst := false }
  m.setBlock e.blk ((e.b.settleArm (t - 2)).setWarp e.wid w)

/-- The fetch of a clause looks its lines up at their home slices (16_die.md R289). -/
def Mach.codeSeen (m : Mach) (b w : Nat) : Mach :=
  match m.warp b w with
  | none => m
  | some (blk, x) =>
    match x.clause with
    | none => m
    | some c =>
      let n := 12 * (c.hdr.len.toNat + 2)
      match m.coreKeys blk.core blk.ctx .fetch c.head n with
      | .ok ks => m.brought blk.ctx c.head n ks
      | .error _ => m

/-- CLAUSE_START at the current cycle. A warp that a fault without a flag stops there does not start (R268). -/
def Mach.clauseStart (m : Mach) (t core slot : Nat) : Option Mach :=
  let (pick, spent) := m.choose t core slot (m.starters t core slot)
  match pick with
  | none => none
  | some e =>
    if e.w.noFlag.isSome then none else
    let m := spent.foldl (fun m y => match m.warp y.blk y.wid with
      | some (_, w) => m.setWarp y.blk y.wid { w with yield_ := none }
      | none => m) m
    let sl := m.slotOf core slot
    match m.warp e.blk e.wid with
    | none => none
    | some (b, w) =>
      some (((m.startClause t { e with b := b, w := w }).codeSeen e.blk e.wid).setSlotOf core slot
        { sl with last := some (e.blk, e.wid), lastAt := some e.place, fresh := false, refill := sl.refill.filter (fun r => t < r.1 + r.2) })

/-- WARP_URGENT (R265). -/
def Mach.warpUrgent (m : Mach) (t b w : Nat) : Option Mach :=
  match m.warp b w with
  | none => none
  | some (blk, x) =>
    if !x.urgent && 2048 ≤ x.readyFor && m.warpReady t blk w x then some (m.setWarp b w { x with urgent := true }) else none

/-- A cycle ends: every warp that is ready has waited one more, unless its die withholds starts in it; one that is not starts
counting afresh (R265, 23_physical.md R398). -/
def Mach.countReady (m : Mach) (t : Nat) : Mach :=
  { m with blocks := m.blocks.mapVal (fun b => { b with warps := b.warps.map (fun e =>
      (e.1, { e.2 with readyFor :=
        if !m.warpReady t b e.1 e.2 then 0
        else if (m.die (b.core / 64)).withholds t then e.2.readyFor
        else e.2.readyFor + 1 })) }) }

/-- CLAUSE_START (R57): The slot starts a warp's clause once its waits, room and timing allow and the policy picks it. -/
def execClauseStart (core slot : Nat) (s : State) : Host.Outcome State Fault Refusal :=
  event s ((s.m.clauseStart s.now core slot).map (fun m => (s.now, m)))

/-- DESCHEDULE (R36): A pack leaves the active set at a permitted clause boundary, discarding buffer data. -/
def execDeschedule (core slot : Nat) (pack : PackId) (s : State) : Host.Outcome State Fault Refusal :=
  event s ((s.m.deschedule s.now core slot pack).map (fun m => (s.now, m)))

/-- PACK_ENTER (R258): A ready pack enters a free active entry. -/
def execPackEnter (core slot : Nat) (s : State) : Host.Outcome State Fault Refusal :=
  event s ((s.m.packEnter s.now core slot).map (fun m => (s.now, m)))

/-- WARP_URGENT (R265): A warp ready for 2048 cycles without starting becomes urgent. -/
def execWarpUrgent (blk w : Nat) (s : State) : Host.Outcome State Fault Refusal :=
  event s ((s.m.warpUrgent s.now blk w).map (fun m => (s.now, m)))

end Sys2Proof.Machine
end

