-- ==== Sys2Proof/Machine/Maquette.lean ====
section
/-!
DEFINITION. The maquette's log and its replay gates (17_package.md R328 to R331).
-/
namespace Sys2Proof.Machine
open Sys2Proof

/-- The blocks of a launch (R310). -/
def Launch.blocks (la : Launch) : Nat := la.nx * la.ny * la.nz

/-- The offset of segment 0, and the bytes of a segment for n channels (R328). -/
def mqBase (nb : Nat) : Nat := (0x40 + 2 * nb + 63) / 64 * 64
def mqSeg (la : Launch) (n : Nat) : Nat := (la.mqlen - mqBase la.blocks) / n / 8 * 8

/-- The virtual address of segment j. -/
def Mach.mqSegAt (m : Mach) (la : Launch) (j : Nat) : Nat :=
  la.mqlog + mqBase la.blocks + j * mqSeg la (m.part la.part).cht.length

/-- The header of a log (R328): LFL is 0 until the launch completes. -/
def Mach.mqHeader (m : Mach) (la : Launch) (lfl : Nat) : List Byte :=
  let n := (m.part la.part).cht.length
  leBytes 0x4F424D51 4 ++ leBytes n 2 ++ leBytes lfl 2 ++ leBytes la.blocks 4 ++ leBytes (mqSeg la n) 4

/-- Writes part of a log; what cannot be written is dropped (DESIGN CHOICE, log entry 51). -/
def Mach.mqWrite (m : Mach) (t : Nat) (la : Launch) (va : Nat) (data : List Byte) : Mach :=
  match m.writeVirt t la.ctx va data with
  | .ok m => m
  | .error _ => m

/-- Begins a log: the header, and the count of zero of every segment that holds one (R328, R329). -/
def Mach.mqBegin (m : Mach) (t : Nat) (la : Launch) : Mach :=
  let m := m.mqWrite t la la.mqlog (m.mqHeader la 0 ++ leBytes 0 48)
  let n := (m.part la.part).cht.length
  if mqSeg la n < 8 then m else (List.range n).foldl (fun m j => m.mqWrite t la (m.mqSegAt la j) (leBytes 0 8)) m

/-- The bytes of a log entry (R328). -/
def mqEntry (b w n : Nat) : List Byte := leBytes (b + 2 ^ 32 * w + 2 ^ 40 * n) 8

/-- The segment that serves a home slice. -/
def Part.segOf (p : Part) (slice : Nat) : Nat := (indexWhere (fun c => c = slice) p.cht 0).getD 0

/-- Record mode: a slice admits a group of a warp (R329). A recorder that has stopped has the count 0. -/
def Mach.mqRecord (m : Mach) (t id : Nat) (la : Launch) (b w slice : Nat) : Mach :=
  let p := m.part la.part
  let j := p.segOf slice
  let seg := m.mqSegAt la j
  let put (m : Mach) (x : Nat × Nat × Nat × Nat) : Mach :=
    { m with launches := m.launches.upd id (fun l => { l with logPos := l.logPos.put j x }) }
  let fresh (k : Nat) : Mach :=
    if 8 + 8 * (k + 1) ≤ mqSeg la p.cht.length then
      let m := m.mqWrite t la (seg + 8 + 8 * k) (mqEntry b w 1)
      put (m.mqWrite t la seg (leBytes (k + 1) 8)) (k + 1, b, w, 1)
    else { put m (k, b, w, 0) with launches := (put m (k, b, w, 0)).launches.upd id (fun l => { l with mqst := l.mqst ||| 1 }) }
  match la.logPos.find j with
  | none => fresh 0
  | some (k, b', w', n) =>
    if n = 0 then m
    else if b' = b && w' = w && n < 65535 then
      put (m.mqWrite t la (seg + 8 * k) (mqEntry b w (n + 1))) (k, b, w, n + 1)
    else fresh k

/-- Entry `i` of a segment: block, warp and count; none where the segment is exhausted, or is too short for it. -/
def Mach.mqEntryAt (m : Mach) (la : Launch) (j i : Nat) : Option (Nat × Nat × Nat) :=
  let seg := m.mqSegAt la j
  if mqSeg la (m.part la.part).cht.length < 8 + 8 * (i + 1) then none
  else
  match m.readVirt la.ctx seg 8, m.readVirt la.ctx (seg + 8 + 8 * i) 8 with
  | .ok n, .ok e =>
    if i < leNat n then some (leNat e % 2 ^ 32, leNat e / 2 ^ 32 % 64, leNat e / 2 ^ 40 % 2 ^ 16) else none
  | _, _ => none

/-- The places that a slice's gate reads: its segment's count and its current entry. -/
def Mach.gateKeys (m : Mach) (la : Launch) (j : Nat) : List Nat :=
  let seg := m.mqSegAt la j
  let at_ (va : Nat) : List Nat := ((m.engineKeys la.ctx .read va 8).toOption).getD []
  at_ seg ++ at_ (8 * ((la.gates.find j).getD (0, 0)).2 + seg + 8)

/-- What a slice's gate shows: the entry's block and warp, the groups left of it and its number (R330). -/
def Mach.gate (m : Mach) (la : Launch) (j : Nat) : Option (Nat × Nat × Nat × Nat) :=
  let (left, i) := (la.gates.find j).getD (0, 0)
  (m.mqEntryAt la j i).map (fun e => (e.1, e.2.1, (if left = 0 then e.2.2 else left), i))

/-- Whether a replay launch has entries left (R330). -/
def Mach.mqLeft (m : Mach) (la : Launch) : Bool :=
  (List.range (m.part la.part).cht.length).any (fun j => (m.gate la j).isSome)

/-- At completion: LFL (R329), or the divergence bit (R330). -/
def Mach.mqEnd (m : Mach) (t id : Nat) (la : Launch) : Mach :=
  if la.mqm = 1 then m.mqWrite t la la.mqlog (m.mqHeader la (if la.mqst.getLsbD 0 then 3 else 1))
  else if la.mqm = 2 && m.mqLeft la then
    { m with launches := m.launches.upd id (fun l => { l with mqst := l.mqst ||| 2 }) }
  else m

end Sys2Proof.Machine
end

