-- ==== Sys2Proof/Machine/Complete.lean ====
section
/-!
DEFINITION. Operations as they complete or fault: VAR_COMPLETE (02_warp_state.md R23), the report of a fault (R24,
07_core_memory.md R170), and the turn of an operation that waited or that is re-executed (18_traps.md R343).
-/
namespace Sys2Proof.Machine
open Sys2Proof

/-! ### Completion -/

/-- The flag count that an operation lowers: the one in the trap shadow for an operation issued before the
handler's entry (18_traps.md R341). -/
def Warp.lower (w : Warp) (op : Nat) (flag : Option Nat) : Warp :=
  match flag with
  | none => w
  | some k =>
    match w.shadow with
    | some sh =>
      if op < sh.mark then { w with shadow := some { sh with counts := sh.counts.set k (sh.counts.get k - 1) } }
      else { w with counts := w.counts.set k (w.counts.get k - 1) }
    | none => { w with counts := w.counts.set k (w.counts.get k - 1) }

/-- An operation that the table no longer needs is dropped. -/
def Warp.sweep (w : Warp) : Warp := { w with ops := w.ops.filter (fun e => !e.2.gone) }

/-- An operation completes (R23): its result is written, its exceptions enter FLAGS (R26) and OVF, its fold is
made (R29), and its flag's count falls. -/
def Mach.complete (m : Mach) (t b w op : Nat) (o : Op) (r : Result) (xs : List Word) : Mach :=
  match m.warp b w with
  | none => m
  | some (blk, x) =>
    let x := (((x.settle t).writeResult r).note t r).lower op o.flag
    let x := { x with ops := x.ops.upd op (fun o => { o with flagDone := true, batchDone := o.batchDone || r.dest.isSome }) }
    let x := (x.foldOp op xs).sweep
    let blk := if r.flags = 0 then blk else
      { blk with armPend := blk.armPend ++ [{ at_ := t, warp := w, wr := .ovfOr r.flags }] }
    m.setBlock b (blk.setWarp w x)

/-- The result of an operation that has none but exceptions. -/
def flagsOnly (x : BitVec 5) : Result := { Result.none with flags := x }

/-- Takes what an execution gave: its fault stays to be reported, and its result completes it. -/
def Mach.took (m : Mach) (t b w op : Nat) (o : Op) (r : Ran) : Mach :=
  match r with
  | .killed => m
  | .fault e => (match m.warp b w with
    | some (_, x) => m.setWarp b w (x.failOp op e)
    | none => m)
  | .trap e flags => (match m.warp b w with
    | some (_, x) => m.setWarp b w ((x.setPayload op (.result (flagsOnly flags))).failOp op e)
    | none => m)
  | .done r => m.complete t b w op o r []

/-! ### Re-execution and waiting turns -/

/-- The operation that an atomic performs (07_core_memory.md R166). -/
def rmwOf (i : Instr) (f : Fields) : Option RmwOp :=
  match i with
  | .axch _ => some .xchg
  | .acas _ => some .cas
  | .aadd _ => some .add
  | .amnmx _ => some (.mnmx (f.mod.extractLsb' 8 2))
  | .alop _ => some (.lop (f.mod.extractLsb' 8 2))
  | .agadd _ => some (.gadd (f.mod.extractLsb' 0 8))
  | .ainc _ => some .inc
  | _ => none

/-- Puts an entry among the queue's by issue order. -/
def insertQ (q : QEntry) : List QEntry → List QEntry
  | [] => [q]
  | p :: ps => if q.seq < p.seq then q :: p :: ps else p :: insertQ q ps

/-- A load's turn (07_core_memory.md R156, R163): none while it waits. -/
def Mach.loadTurn (m : Mach) (t b w op : Nat) (blk : Block) (x : Warp) (o : Op) (sp : Space) (size scope : Nat) (acq : Bool)
    (as : List (Nat × Nat)) (fin : Mach → List (Nat × List Byte) → Mach) : Option Mach :=
  let (m, r) := m.checkLanes blk (m.launchOf blk) sp false .read size o.ia o.slot as
  match r with
  | .error e => some (m.setWarp b w (x.failOp op e))
  | .ok ks =>
    let keys := ks.foldr (fun e l => e.2 ++ l) []
    if x.loadWaits o.seq sp acq keys then none
    else
      let m := if acq then m.acquire blk.part blk.core blk.ctx (scopeIn sp scope) else m
      let read := m.sliceKeys blk (x.before o.seq) sp keys
      if m.anyBad read then some (m.consume t blk.ctx read)
      else
      let (m, bs) := m.loadLanes blk (m.launchOf blk) (x.before o.seq) t sp ks
      some (fin m bs)

/-- A store that is re-executed enters the queue at its place in issue order (R156, 18_traps.md R343). -/
def Mach.storeTurn (m : Mach) (b w op : Nat) (blk : Block) (x : Warp) (o : Op) (sp : Space) (rel : Bool) (scope size : Nat)
    (as : List (Nat × Nat)) (data : Nat → List Byte) : Mach :=
  let (m, r) := m.checkLanes blk (m.launchOf blk) sp false .write size o.ia o.slot as
  match r with
  | .error e => m.setWarp b w (x.failOp op e)
  | .ok ks =>
    let acc := storeAcc size as ks data
    let q : QEntry := { seq := o.seq, space := sp, rel := rel, acq := false, scope := scope, kind := .store acc }
    let x := x.setPayload op (.sourcesRead (foldWords (acc.map (fun a => (a.addr, a.data)))) 0)
    m.setWarp b w { x with queue := insertQ q x.queue }

/-- An atomic that is re-executed. -/
def Mach.atomicTurn (m : Mach) (b w op : Nat) (blk : Block) (x : Warp) (o : Op) (f : Fields) (k : RmwOp) (a y z : FMap 32) : Mach :=
  let sp := atomicSpace f
  let as := (lanesOf o.mask 64).map (fun l => (l, if sp = .g then cap64 a l else cap32 a l))
  let (m, r) := m.checkLanes blk (m.launchOf blk) sp true .write (atomicSize f) o.ia o.slot as
  match r with
  | .error e => m.setWarp b w (x.failOp op e)
  | .ok ks =>
    let x := x.setPayload op (atomicPayload f k o.mask y)
    m.setWarp b w { x with queue := insertQ (atomicEntry o.seq op f k y z as ks) x.queue }

/-- Whether every fold before an operation's own has been made (02_warp_state.md R29, 17_package.md R332). -/
def Warp.foldTurn (w : Warp) (op : Nat) : Bool :=
  w.folds.all (fun f => match f with
    | .waiting n => op ≤ n
    | _ => true)

/-- MQCHK's turn (17_package.md R332): in record mode its store enters the queue, in replay mode it loads and compares. -/
def Mach.mqchkTurn (m : Mach) (t b w op : Nat) (blk : Block) (x : Warp) (o : Op) (a : FMap 32) : Option Mach :=
  let la := m.launchOf blk
  let addr := o.once64 a
  if !x.foldTurn op then none
  else
    let (m, r) := m.checkLanes blk la .g true (if la.mqm = 1 then .write else .read) 4 o.ia o.slot [(0, addr)]
    match r with
    | .error e => some (m.setWarp b w (x.failOp op { e with fmask := o.mask }))
    | .ok ks =>
      let keys := ks.foldr (fun e l => e.2 ++ l) []
      if la.mqm = 1 then
        let acc : LaneAcc := { lane := 0, addr := addr, keys := keys, data := leBytes x.shash.toNat 4, data2 := [] }
        let q : QEntry := { seq := o.seq, space := .g, rel := false, acq := false, scope := 1, kind := .store [acc] }
        some ((m.setWarp b w { x with queue := insertQ q x.queue }).complete t b w op o Result.none [])
      else if x.loadWaits o.seq .g false keys then none
      else
        let read := m.sliceKeys blk (x.before o.seq) .g keys
        if m.anyBad read then some (m.consume t blk.ctx read)
        else
        let (m, bs) := m.loadLanes blk la (x.before o.seq) t .g ks
        if (bs.all (fun e => leNat e.2 = x.shash.toNat)) then some (m.complete t b w op o Result.none [])
        else some (m.setWarp b w (x.failOp op (o.info maqDiverge addr)))

/-- The turn of an operation that waited for earlier accesses or whose fault has been resolved. -/
def Mach.retryTurn (m : Mach) (t b w op : Nat) (blk : Block) (x : Warp) (o : Op) (i : Instr) (a y z : FMap 32) : Option Mach :=
  match i.fields with
  | none => none
  | some f =>
    let ls := lanesOf o.mask 64
    let lane := (lowestBit o.mask).getD 0
    let quiet := x.drained o.seq && !x.held Op.holdsStores o.seq
    match i with
    | .cpyb _ => m.cpybTurn t b w op blk x o a y z
    | .ld _ =>
      let size := 2 ^ bitsAt f.mod 15 3
      m.loadTurn t b w op blk x o (spaceOf f.fn.toNat) size (bitsAt f.mod 9 3) (f.mod.getLsbD 12) (memAddrs f ls a y)
        (fun m bs => m.complete t b w op o (loadResult f.d f.hint.wt o.mask size (f.mod.getLsbD 14) bs) [])
    | .sld _ =>
      let n := armSize f / 4
      let base := if armSpace f = .g then cap64 a lane else cap32 a lane
      m.loadTurn t b w op blk x o (armSpace f) (armSize f) 1 false [(lane, armAddr f base)] (fun m bs =>
        match m.warp b w with
        | none => m
        | some (blk, x) =>
          let ws := (List.range n).map (fun k =>
            ({ at_ := t, warp := w, wr := .sreg (sNum f.d + k) (BitVec.ofNat 32 (leNat (((bs.headD (0, [])).2.drop (4 * k)).take 4))) } : ArmPend))
          m.setBlock b ({ blk with armPend := blk.armPend ++ ws }.setWarp w (x.setPayload op (.after (t + 2)))))
    | .st _ =>
      let sp := spaceOf f.fn.toNat
      let size := 2 ^ bitsAt f.mod 15 3
      some (m.storeTurn b w op blk x o sp (f.mod.getLsbD 12) (scopeIn sp (bitsAt f.mod 9 3)) size (memAddrs f ls a y)
        (fun l => capBytes z size l))
    | .sst _ =>
      let base := if armSpace f = .g then cap64 a lane else cap32 a lane
      some (m.storeTurn b w op blk x o (armSpace f) false 1 (armSize f) [(lane, armAddr f base)] (fun l => capBytes z (armSize f) l))
    | .cmnt _ =>
      match m.cmnt t blk (bitsAt f.mod 0 2) (o.once64 a) (o.once32 y) with
      | .error e => some (m.setWarp b w (x.failOp op { o.info e.1 e.2 with fmask := 1#64 <<< lane }))
      | .ok m => some (m.complete t b w op o Result.none [])
    | .sleep _ =>
      let sp : Space := if f.mod.getLsbD 16 then .s else .g
      let addr := if sp = .g then o.once64 a else o.once32 a
      let (m, r) := m.checkLanes blk (m.launchOf blk) sp true .read 4 o.ia o.slot [(lane, addr)]
      match r with
      | .error e => some (m.setWarp b w (x.failOp op { e with fmask := o.mask }))
      | .ok ks =>
        let n := o.once32 z
        let x := x.setPayload op (.sleep sp (((ks.headD (0, [])).2).headD 0) addr (BitVec.ofNat 32 (o.once32 y))
          (if n = 0 then none else some (t + n)) (f.mod.getLsbD 12) (scopeIn sp (bitsAt f.mod 9 3)) f.d x.wake)
        some (m.setWarp b w { x with sleeping := op :: x.sleeping.filter (fun k => k != op), wake := false })
    | .mqchk _ => m.mqchkTurn t b w op blk x o a
    | _ =>
      match rmwOf i f with
      | some k => some (m.atomicTurn b w op blk x o f k a y z)
      | none =>
        if !quiet then none
        else
          match m.barTurn t b blk o i f a y with
          | (m, .killed) => some m
          | (m, .fault e) => some (m.setWarp b w (x.failOp op e))
          | (m, .done r) => some (m.complete t b w op o r [])
          | (m, .wait p) => (match m.warp b w with
            | some (_, x) => some (m.setWarp b w (x.setPayload op p))
            | none => some m)

/-- Whether the earlier accesses that a fence's kind names have performed; a fence does not wait for gossip adds
(07_core_memory.md R161). -/
def Warp.fenceDone (w : Warp) (seq kind : Nat) : Bool :=
  let reads := !w.ops.any (fun e => e.2.seq < seq && e.2.fault.isNone && e.2.readsFirst && !e.2.unapplied)
  let earlier := w.queue.filter (fun q => q.seq < seq)
  match kind with
  | 1 => w.drained seq
  | 2 => reads && !w.held (fun o => o.again atomicInstr) seq && earlier.all (fun q => match q.kind with
    | .store _ => true
    | .atomic .. => false)
  | _ => reads && w.drained seq

/-- Whether an earlier COLL of the warp waits to be accepted, one at a translation fault included: they are accepted in issue
order (21_fabric.md R366). -/
def Warp.collTurn (w : Warp) (seq : Nat) : Bool :=
  w.drained seq && !w.ops.any (fun e => e.2.seq < seq && (e.2.fault.isNone || e.2.unresolved) && match e.2.payload with
    | .coll _ _ _ _ inst => inst = 0
    | _ => false)

/-- The cycle counter's registers (06_isa_control.md R126, R127). -/
def Mach.cycResult (m : Mach) (t core : Nat) (r : Result) : Result :=
  let c : DWord := BitVec.ofNat 64 (t - (m.die (core / 64)).base)
  { r with vals := valsOf 2 (lanesOf r.mask 64) (fun _ k => BitVec.ofNat 32 (bitsAt c (32 * k) 32)) }

/-- Whether an operation's completion would leave its fold behind an earlier one: a flag that has fallen tells that the fold has
been made (06_isa_control.md R126). -/
def Warp.foldHeld (w : Warp) (op : Nat) : Bool := w.folds.contains (.waiting op) && !w.foldTurn op

/-- The terms of a GADD whose flag has completed are applied (21_fabric.md R381, R384). -/
def Mach.termsTurn (m : Mach) (t b w op : Nat) (blk : Block) (rgn : Nat) (xs : List (Nat × DWord)) : Mach :=
  let m := m.gaddApply t blk rgn xs
  match m.warp b w with
  | some (_, x) => m.setWarp b w (x.setPayload op (.sourcesRead [] 0)).sweep
  | none => m

/-- VAR_COMPLETE: the operation completes, or takes the next step towards it; none where it still waits. -/
def Mach.varComplete (m : Mach) (t b w op : Nat) : Option Mach :=
  match m.warp b w with
  | none => none
  | some (blk, x) =>
    match x.ops.find op with
    | none => none
    | some o =>
      if !m.alive blk || o.fault.isSome || (o.flagDone && !o.payload.adds) then none
      else
        let x := x.settle t
        let m := m.setWarp b w x
        let blk := blk.setWarp w x
        let done (r : Result) (xs : List Word) : Option Mach := some (m.complete t b w op o r xs)
        match o.payload with
        | .result r => done r []
        | .sourcesRead xs e => if x.foldHeld op then none else done (flagsOnly e) xs
        | .atomicResult true r xs => if x.foldHeld op then none else done r xs
        | .atomicResult false _ _ => none
        | .readCyc r => done (m.cycResult t blk.core r) []
        | .after due => if due ≤ t then done Result.none [] else none
        | .fence kind scope =>
          if x.fenceDone o.seq kind then
            let m := if kind = 0 || kind = 2 then m.acquire blk.part blk.core blk.ctx scope else m
            some (m.complete t b w op o Result.none [])
          else none
        | .retry i a y z => m.retryTurn t b w op blk x o i a y z
        | .field i a y =>
          if x.drained o.seq && !x.held Op.holdsLoads o.seq then
            let r := fieldRun m t b blk o i a y
            some (r.1.took t b w op o r.2)
          else none
        | .splat .. => none
        | .matrix i a y z _ _ =>
          (match i, x.matHead with
          | .mma _, _ => none
          | _, some (k, _) =>
            if k != op then none
            else
              match x.standing o with
              | some e => some (m.setWarp b w (x.failMat op e))
              | none =>
                let (m, r) := matrixRun m t b w blk o i a y z
                match r, m.warp b w with
                | .killed, _ => some m
                | _, none => some m
                | .fault e, some (_, x) => some (m.setWarp b w (x.failMat op e))
                | .trap e flags, some (_, x) => some (m.setWarp b w ((x.setPayload op (.result (flagsOnly flags))).failMat op e))
                | .done r, some (_, x) => some ((m.setWarp b w (x.doneMat op 0)).complete t b w op o r [])
          | _, none => none)
        | .copy .. => done Result.none []
        | .bulk _ _ => done Result.none []
        | .bwait _ bs fs => if bs.isEmpty && fs.isEmpty then done Result.none [] else none
        | .barWait g _ _ met =>
          if met then
            let m := m.acquire blk.part blk.core blk.ctx (if g then 2 else 1)
            some (m.complete t b w op o Result.none [])
          else none
        | .sleep .. => none
        | .wake mask =>
          if x.drained o.seq then
            let m := m.setBlock b (blk.wakeAll mask)
            some (m.complete t b w op o Result.none [])
          else none
        | .gossip i a y z =>
          (match i.fields with
          | none => none
          | some f =>
            if x.gossipTurn o.seq && m.gossipReady blk x o i f a y then
              match m.gossipRun t b w op blk o i f a y z with
              | (m, some r) => some (m.took t b w op o r)
              | (m, none) => some m
            else none)
        | .terms rgn xs => some (m.termsTurn t b w op blk rgn xs)
        | .coll i a y z inst =>
          (match i.fields with
          | none => none
          | some f =>
            if inst != 0 || !x.collTurn o.seq then none
            else
              match m.collAccept t blk o f a y z with
              | .error e => some (m.setWarp b w (x.failOp op e))
              | .ok (m, none) => some m
              | .ok (m, some (z, k)) => some (m.setWarp b w (x.setPayload op (.coll i a y z k))))
        | .sys .. => none

/-! ### Faults -/

/-- The fault that a BWAIT reports once its batches have retired: that of the oldest that holds one (11_async_armature.md R230). -/
def Op.bwaitFault (o : Op) : Option FaultInfo :=
  match o.payload with
  | .bwait _ [] ((_, f) :: _) => some f
  | _ => none

/-- The fault of an operation that waits to be reported. -/
def Op.toReport (o : Op) : Option FaultInfo :=
  if o.reported then none
  else match o.fault with
    | some f => some f
    | none => if o.flagDone then none else o.bwaitFault

/-- A fault is reported: the flag's fault bit, or a fault that names no flag (R24, R170). The exceptions of a faulting
arithmetic operation still set FLAGS (R26); the folds after it proceed (R29). -/
def Mach.operationFault (m : Mach) (t b w op : Nat) : Option Mach :=
  match m.warp b w with
  | none => none
  | some (blk, x) =>
    match x.ops.find op with
    | none => none
    | some o =>
      match o.toReport with
      | none => none
      | some f =>
        let x := x.settle t
        let e : BitVec 5 := match o.payload with
          | .result r => r.flags
          | _ => 0
        let x := x.orFlags e
        let x := x.unfoldOp op
        let x := { x with ops := x.ops.upd op (fun o => { o with fault := some f, reported := true }) }
        let x := match o.flag with
          | none => { x with noFlag := x.noFlag.or (some f) }
          | some k =>
            let bit : BitVec 12 := 1#12 <<< k
            match x.shadow with
            | some sh =>
              if op < sh.mark then { x with shadow := some { sh with bits := sh.bits ||| bit } } else { x with bits := x.bits ||| bit }
            | none => { x with bits := x.bits ||| bit }
        let blk := if e = 0 then blk else { blk with armPend := blk.armPend ++ [{ at_ := t, warp := w, wr := .ovfOr e }] }
        some (m.setBlock b (blk.setWarp w x))

end Sys2Proof.Machine
end

