-- ==== Sys2Proof/Machine/Perform.lean ====
section
/-!
DEFINITION. Stores and atomics as they perform (07_core_memory.md R156, R167, 17_package.md R329, R330), and the
other events of the memory system and the engines.
-/
namespace Sys2Proof.Machine
open Sys2Proof

/-- The oldest entry of a warp's queue, if nothing earlier of the warp holds it back, an earlier store or atomic that is to be executed
again included (R156, R161, R163). -/
def Warp.queueHead (w : Warp) : Option QEntry :=
  match w.queue with
  | [] => none
  | q :: _ => if w.held Op.holdsStores q.seq || w.held Op.storesAgain q.seq then none else some q

/-- The oldest entry leaves the queue. -/
def Warp.popQueue (w : Warp) : Warp := { w with queue := w.queue.tail }

/-- Whether a place lies in a granule that its partition protects (17_package.md R309). -/
def Mach.protectedKey (m : Mach) (part key : Nat) : Bool :=
  match (m.part part).paOf key with
  | some pa => (m.part part).protectedPA pa
  | none => false

/-- A store performs, its lanes in ascending order, so that the highest lane's byte stays (R152). Its lanes together repair an
uncorrectable granule that they write whole (16_die.md R301). -/
def Mach.storeLanes (m : Mach) (t b : Nat) (blk : Block) (sp : Space) (acc : List LaneAcc) : Mach :=
  let keys := acc.foldr (fun a l => a.keys ++ l) []
  let data := acc.foldr (fun a l => a.data.take a.keys.length ++ l) []
  match sp with
  | .g => m.consumeWrite t blk.ctx keys (fun m => m.storeThrough blk.part blk.core blk.ctx keys data)
  | sp =>
    match m.block b with
    | some blk => m.setBlock b ((keys.zip data).foldl (fun k e => k.writeByte t sp e.1 e.2) blk)
    | none => m

/-- A returning atomic's result and folds from its lanes' old values (R166, 02_warp_state.md R29). -/
def atomicResult (r : Result) (size : Nat) (acc : List LaneAcc) (old : List (Nat × Nat)) : Result × List Word :=
  let val (l : Nat) : Nat := ((old.find? (fun e => e.1 = l)).map (·.2)).getD 0
  ({ r with vals := acc.foldl (fun f a => (List.range (size / 4)).foldl (fun f k =>
      f.set (resKey k a.lane) (BitVec.ofNat 32 (val a.lane / 2 ^ (32 * k)))) f) [] },
   foldWords (acc.map (fun a => (a.addr, leBytes (val a.lane) size))))

/-- One group of an atomic performs at its slice, in ascending lane order; the entry leaves the queue with its
last group, after which an acquiring atomic invalidates the L1 (R163, R167, R168, 15_cluster.md R281). -/
def Mach.atomicGroup (m : Mach) (t b w : Nat) (blk : Block) (q : QEntry) (slice : Nat) : Option Mach :=
  match q.kind with
  | .store _ => none
  | .atomic op rmw size mq red acc old =>
    let here := (pendingLanes acc old).filter (fun a => a.slice q.space = slice)
    if here.isEmpty then none
    else
      let keys := here.foldr (fun a l => a.keys ++ l) []
      if q.space = .g && m.anyBad keys then some (m.consume t blk.ctx keys)
      else
        let (m, old) := here.foldl (fun (s : Mach × List (Nat × Nat)) a =>
          let (m, x) := s.1.rmwLane t b blk.core blk.ctx blk.part size q.space rmw a
          (m, s.2 ++ [(a.lane, x)])) (m, old)
        match m.warp b w with
        | none => some m
        | some (_, x) =>
          if (pendingLanes acc old).isEmpty then
            let m := if q.acq then m.acquire blk.part blk.core blk.ctx q.scope else m
            let x := x.popQueue
            if red then some (m.setWarp b w x)
            else
              match x.ops.find op with
              | some o =>
                (match o.payload with
                | .atomicResult _ r _ =>
                  let (r, xs) := atomicResult r size acc old
                  some (m.setWarp b w (x.setPayload op (.atomicResult true r xs)))
                | _ => some (m.setWarp b w x))
              | none => some (m.setWarp b w x)
          else
            let x := { x with queue := { q with kind := .atomic op rmw size mq red acc old } :: x.queue.tail }
            some (m.setWarp b w x)

/-- Whether an entry is a .mq atomic of a launch in a maquette mode (R169). -/
def tracked (la : Launch) (mode : Nat) (q : QEntry) : Bool :=
  la.mqm = mode && match q.kind with
    | .atomic _ _ _ mq _ _ _ => mq && q.space = .g
    | .store _ => false

/-- The accesses of an entry that have not performed. -/
def QEntry.lanesLeft (q : QEntry) : List LaneAcc :=
  match q.kind with
  | .store acc => acc
  | .atomic _ _ _ _ _ acc old => pendingLanes acc old

/-- The accesses of an entry that reach a granule which has come to be protected since its issue (17_package.md R309). -/
def Mach.protectedLanes (m : Mach) (blk : Block) (q : QEntry) : List LaneAcc :=
  if q.space = .g then q.lanesLeft.filter (fun a => a.keys.any (m.protectedKey blk.part)) else []

/-- The atomic of an entry, while its flag has not completed. -/
def Warp.queuedOp (x : Warp) (q : QEntry) : Option (Nat × Op) :=
  match q.kind with
  | .store _ => none
  | .atomic op _ _ _ _ _ _ => (match x.ops.find op with
    | some o => if o.flagDone then none else some (op, o)
    | none => none)

/-- PAGE_WRITE of the accesses of an entry. -/
def protectedFault (x : Warp) (q : QEntry) (hit : List LaneAcc) : FaultInfo :=
  let o := (x.queuedOp q).map (·.2)
  { cause := pageWrite, ia := (o.map (·.ia)).getD 0, fmask := maskOf 64 (fun l => hit.any (fun a => a.lane = l)),
    faddr := BitVec.ofNat 64 ((hit.head?.map (·.addr)).getD 0), xcode := 0, lane := 0xFF, slot := (o.map (·.slot)).getD 0 }

/-- A queued store or atomic that a protected granule has come to hold back writes nothing and stays queued: PAGE_WRITE is
reported, once, and it performs when that has been resolved (17_package.md R309, DEDUCED, log entry 52). -/
def Mach.protectFault (m : Mach) (b w : Nat) (x : Warp) (q : QEntry) (hit : List LaneAcc) : Option Mach :=
  let f := protectedFault x q hit
  match x.queuedOp q with
  | some (op, o) => if o.fault.isSome then none else some (m.setWarp b w (x.failOp op f))
  | none => if x.noFlag.isSome then none else some (m.setWarp b w { x with noFlag := some f })

/-- ATOMIC_GROUP: a replay gate holds the groups of a .mq atomic, and record mode logs them (17_package.md R329, R330). -/
def Mach.groupEvent (m : Mach) (t b w slice : Nat) : Option Mach :=
  match m.warp b w with
  | none => none
  | some (blk, x) =>
    if !m.alive blk then none
    else
      match x.queueHead with
      | none => none
      | some q =>
        let la := m.launchOf blk
        let hit := m.protectedLanes blk q
        if tracked la 2 q then none
        else if !hit.isEmpty then m.protectFault b w x q hit
        else (m.atomicGroup t b w blk q slice).map (fun m =>
          if tracked la 1 q then m.mqRecord t blk.launch la blk.b w slice else m)

/-- The slices of an atomic's lanes that have not performed. -/
def QEntry.slices (q : QEntry) : List Nat :=
  match q.kind with
  | .store _ => []
  | .atomic _ _ _ _ _ acc old => ((pendingLanes acc old).map (fun a => a.slice q.space)).eraseDups

/-- STORE_PERFORM: the oldest store performs and leaves the queue, or the oldest atomic performs the next of its
groups (R156, R167). -/
def Mach.storePerform (m : Mach) (t b w : Nat) : Option Mach :=
  match m.warp b w with
  | none => none
  | some (blk, x) =>
    if !m.alive blk then none
    else
      match x.queueHead with
      | none => none
      | some q =>
        match q.kind with
        | .store acc =>
          let hit := m.protectedLanes blk q
          if hit.isEmpty then some ((m.setWarp b w x.popQueue).storeLanes t b blk q.space acc) else m.protectFault b w x q hit
        | .atomic .. => m.groupEvent t b w (q.slices.headD 0)

/-- The entry at the head of a warp's queue, if it is a .mq atomic that waits at a slice's gate (17_package.md R330). -/
def Mach.waitsAt (m : Mach) (la : Launch) (blk : Block) (x : Warp) (slice : Nat) : Option QEntry :=
  if !m.alive blk then none
  else
    match x.queueHead with
    | some q => if tracked la 2 q && q.slices.contains slice then some q else none
    | none => none

/-- Every warp of a launch that waits at a slice's gate faults with MAQ_DIVERGE, as a fault of its atomic (R330, 07_core_memory.md R170). -/
def Mach.diverge (m : Mach) (launch slice : Nat) (la : Launch) : Mach :=
  { m with blocks := m.blocks.mapVal (fun blk =>
      if blk.launch != launch then blk
      else { blk with warps := blk.warps.mapVal (fun x =>
        match m.waitsAt la blk x slice with
        | some q =>
          (match q.kind with
          | .atomic op _ _ _ _ acc old =>
            let x := x.popQueue
            let hit := (pendingLanes acc old).filter (fun a => a.slice q.space = slice)
            let f : FaultInfo :=
              { cause := maqDiverge, ia := ((x.ops.find op).map (·.ia)).getD 0,
                fmask := maskOf 64 (fun l => hit.any (fun a => a.lane = l)),
                faddr := BitVec.ofNat 64 ((hit.head?.map (·.addr)).getD 0), xcode := 0, lane := 0xFF,
                slot := ((x.ops.find op).map (·.slot)).getD 0 }
            if (x.ops.find op).isSome then x.failOp op f else { x with noFlag := x.noFlag.or (some f) }
          | .store _ => x)
        | none => x) }) }

/-- Whether a launch's block and warp have ended, with no group of its own left for a slice (R330). -/
def Mach.warpEnded (m : Mach) (launch : Nat) (la : Launch) (b w slice : Nat) : Bool :=
  match m.blocks.find? (fun e => e.2.launch = launch && e.2.b = b) with
  | some e => (match e.2.warp w with
    | some x => x.ended && !x.queue.any (fun q => tracked la 2 q && q.slices.contains slice) && !x.ops.any (fun o => o.2.storesAgain)
    | none => true)
  | none => la.blocks ≤ b || b < la.nextB

/-- MQ_GATE_ADMIT: the gate admits the group of the warp that its entry names, or finds that the replay has
diverged (R330). -/
def Mach.gateAdmit (m : Mach) (t b w slice : Nat) : Option Mach :=
  match m.warp b w with
  | none => none
  | some (blk, x) =>
    let la := m.launchOf blk
    match m.waitsAt la blk x slice with
    | none => none
    | some q =>
      let j := (m.part la.part).segOf slice
      let hit := m.protectedLanes blk q
      if !hit.isEmpty then m.protectFault b w x q hit
      else if m.anyBad (m.gateKeys la j) then some (m.consume t blk.ctx (m.gateKeys la j))
      else
      match m.gate la j with
      | none => some (m.diverge blk.launch slice la)
      | some (b', w', left, i) =>
        if b' = blk.b && w' = w then
          let m := { m with launches := m.launches.upd blk.launch (fun l =>
            { l with gates := l.gates.put j (if left ≤ 1 then (0, i + 1) else (left - 1, i)) }) }
          (m.claim blk.ctx (m.gateKeys la j)).atomicGroup t b w blk q slice
        else if m.warpEnded blk.launch la b' w' slice then some (m.diverge blk.launch slice la)
        else none

/-- L2_EVICT: a dirty line is written back to DRAM, or is lost with its uncorrectable data (16_die.md R289, R302). -/
def Mach.l2Evict (m : Mach) (t line : Nat) : Option Mach := (m.dirty.find line).map (fun _ => m.writeBackLine t line)

/-- WAIT_POLL_TIMER: a wait reads its word again, and consumes uncorrectable data that it meets (11_async_armature.md R238, R241,
16_die.md R300). -/
def Mach.waitPoll (m : Mach) (t b w op : Nat) : Option Mach :=
  match m.warp b w with
  | none => none
  | some (blk, x) =>
    match x.ops.find op with
    | none => none
    | some o =>
      if !o.payload.waits || !m.alive blk then none
      else if m.anyBad (o.waitKeys m blk x) then some (m.consume t blk.ctx (o.waitKeys m blk x))
      else some (m.setWarp b w { x with ops := x.ops.put op (o.reread m blk x) })

/-- Whether reading its word again ends a wait, or meets uncorrectable data. -/
def Mach.pollEnds (m : Mach) (blk : Block) (w : Warp) (o : Op) : Bool :=
  o.payload.waits && ((o.reread m blk w).payload != o.payload || m.anyBad (o.waitKeys m blk w))

/-- SLEEP_COMPLETE: the word is read once more, and the SLEEP's flag completes (R241). -/
def Mach.sleepComplete (m : Mach) (t b w op : Nat) : Option Mach :=
  match m.warp b w with
  | none => none
  | some (blk, x) =>
    match x.ops.find op with
    | none => none
    | some o =>
      match o.payload with
      | .sleep sp key _ _ _ acq scope dest true =>
        let keys := (List.range 4).map (fun i => key + i)
        if !m.alive blk || o.fault.isSome || o.flagDone || x.loadWaits o.seq sp acq keys then none
        else
          let m := if acq then m.acquire blk.part blk.core blk.ctx scope else m
          let read := m.sliceKeys blk (x.before o.seq) sp keys
          if m.anyBad read then some (m.consume t blk.ctx read)
          else
          let (m, bs) := m.loadLanes blk (m.launchOf blk) (x.before o.seq) t sp [(0, keys)]
          let y := BitVec.ofNat 32 (leNat (bs.headD (0, [])).2)
          let wt := match o.word with
            | some (.sleep f) => f.hint.wt
            | _ => false
          let r : Result :=
            { dest := some dest, n := 1, wt := wt, mask := o.mask, vals := valsOf 1 (lanesOf o.mask 64) (fun _ _ => y),
              preds := [], flags := 0 }
          let x := { x with sleeping := x.sleeping.filter (fun k => k != op) }
          some ((m.setWarp b w x).complete t b w op o r [])
      | _ => none

/-- PAGE_WALK: a walker's translation enters the TLBs; a walk that ends in a fault leaves nothing (16_die.md R295). -/
def Mach.pageWalk (m : Mach) (core ctx : Nat) (va : DWord) (acc : Access) : Mach := (m.translate core ctx va.toNat acc).1

/-- WARP_SLOT_FREE (06_isa_control.md R138): an ended warp's store queue is empty and its flags have fallen, counting only
operations that have not faulted. Its slot is free from the cycle after its last instruction's. -/
def Mach.warpSlotFree (m : Mach) (t b w : Nat) : Option Mach :=
  match m.warp b w with
  | none => none
  | some (_, x) =>
    if x.ended && !x.freed && x.issuedTo ≤ t && x.queue.isEmpty && x.stop.isNone && x.noFlag.isNone && x.bits = 0 &&
        x.ops.all (fun e => (e.2.fault.isSome && e.2.reported) || e.2.flagDone || (e.2.flag = none && e.2.fault.isNone)) then
      some (m.setWarp b w { x with freed := true })
    else none

/-- STORE_PERFORM (R156): The oldest queued store or atomic performs and leaves the store queue. -/
def execStorePerform (blk w : Nat) (s : State) : Host.Outcome State Fault Refusal :=
  eventW s ((s.m.storePerform s.now blk w).map (fun m => (s.now, m)))

/-- ATOMIC_GROUP (R167): A group of an atomic's lanes is applied at its home slice in lane order. -/
def execAtomicGroup (blk w slice : Nat) (s : State) : Host.Outcome State Fault Refusal :=
  eventW s ((s.m.groupEvent s.now blk w slice).map (fun m => (s.now, m)))

/-- MQ_GATE_ADMIT (R330): The replay gate admits the waiting .mq group that its entry names. -/
def execMqGateAdmit (blk w slice : Nat) (s : State) : Host.Outcome State Fault Refusal :=
  eventW s ((s.m.gateAdmit s.now blk w slice).map (fun m => (s.now, m)))

/-- L2_EVICT (R289): A dirty home-slice line is written back to DRAM. -/
def execL2Evict (line : Nat) (s : State) : Host.Outcome State Fault Refusal :=
  event s ((s.m.l2Evict s.now line).map (fun m => (s.now, m)))

/-- PAGE_WALK (R295): A walker translates a virtual address, faulting to the system controller on failure. -/
def execPageWalk (core ctx : Nat) (va : DWord) (acc : Access) (s : State) : Host.Outcome State Fault Refusal :=
  event s (some (s.now, s.m.pageWalk core ctx va acc))

/-- FIELD_PAIR (R186): The field unit applies one (lane, entry) update of a splat or bulk operation. -/
def execFieldPair (blk w : Nat) (s : State) : Host.Outcome State Fault Refusal :=
  eventW s ((s.m.fieldPair s.now blk w).map (fun m => (s.now, m)))

/-- MMA_ENGINE_ENTRY (R202): An MMA enters the engine, reads its format-block and runs its checks. -/
def execMmaEngineEntry (blk w : Nat) (s : State) : Host.Outcome State Fault Refusal :=
  event s ((s.m.mmaEntry s.caps s.now blk w).map (fun m => (s.now, m)))

/-- GANG_RENDEZVOUS (R212): All gang members have arrived and the engine runs one joint product. -/
def execGangRendezvous (blk : Nat) (members : Mask) (s : State) : Host.Outcome State Fault Refusal :=
  event s ((s.m.gangRun? blk members).map (fun m => (s.now, m)))

/-- GANG_BROKEN (R212): A gang member leaves, disagrees or faults, breaking the rendezvous. -/
def execGangBroken (blk : Nat) (members : Mask) (s : State) : Host.Outcome State Fault Refusal :=
  event s ((s.m.gangBreak? blk members).map (fun m => (s.now, m)))

/-- COPY_PIECE_LAND (R234): A copy piece's writes have performed and it subtracts from its barrier. -/
def execCopyPieceLand (blk w op piece : Nat) (s : State) : Host.Outcome State Fault Refusal :=
  eventW s ((s.m.copyLand s.now blk w op piece).map (fun m => (s.now, m)))

/-- WAIT_POLL_TIMER (R238): A pending wait rereads its word at least every 4096 cycles. -/
def execWaitPollTimer (blk w op : Nat) (s : State) : Host.Outcome State Fault Refusal :=
  event s ((s.m.waitPoll s.now blk w op).map (fun m => (s.now, m)))

/-- SLEEP_TIMEOUT (R241): A SLEEP's timeout of C cycles expires and it completes. -/
def execSleepTimeout (blk w op : Nat) (s : State) : Host.Outcome State Fault Refusal :=
  event s ((s.m.sleepTimeout s.now blk w op).map (fun m => (s.now, m)))

/-- SLEEP_COMPLETE (R241): A SLEEP reads its word once more and completes. -/
def execSleepComplete (blk w op : Nat) (s : State) : Host.Outcome State Fault Refusal :=
  event s ((s.m.sleepComplete s.now blk w op).map (fun m => (s.now, m)))

/-- BATCH_RETIRE (R229): A closed batch retires once its operations are complete or faulted. -/
def execBatchRetire (blk w cls : Nat) (s : State) : Host.Outcome State Fault Refusal :=
  event s ((s.m.batchRetire s.now blk w cls).map (fun m => (s.now, m)))

end Sys2Proof.Machine
end

