-- ==== Sys2Proof/Machine/Records.lean ====
section
/-!
DEFINITION. Completion records and notices (17_package.md R312, 18_traps.md R344), and the times of the part's
timers.
-/
namespace Sys2Proof.Machine
open Sys2Proof

/-- Cycles in a microsecond and in a millisecond at the part's clock of 600 MHz (00_scope.md R1). -/
def cyclesPerUs : Nat := 600
def cyclesPerMs : Nat := 600000

/-- Bytes 0x08 to 0x3F of a record: the packet number, STATUS, cause, reason, MQST, TAG and 32 more bytes (R312). -/
def recBody (num status cause reason mqst : Nat) (tag : DWord) (tail : List Byte) : List Byte :=
  leBytes num 8 ++ leBytes status 1 ++ leBytes cause 1 ++ leBytes reason 1 ++ leBytes mqst 1 ++ leBytes 0 4 ++
  leBytes tag.toNat 8 ++ (tail ++ leBytes 0 (32 - tail.length))

/-- A record that no command waits for: a notice, or the record of a stopped ring. -/
def Rec.notice (body : List Byte) : Rec := { body := body, own := false, stage := 0 }

/-- The record of the ring's running packet. -/
def Rec.ofPacket (body : List Byte) : Rec := { body := body, own := true, stage := 0 }

def Ring.addRec (r : Ring) (x : Rec) : Ring := { r with recs := r.recs ++ [x] }

/-- A notice on the administrative completion ring. -/
def Mach.notice (m : Mach) (body : List Byte) : Mach := { m with adminRing := m.adminRing.addRec (.notice body) }

/-- A fault notice of a launch: its record with the differences that R344 gives. -/
def faultNotice (la : Launch) (cause ctx core warp b : Nat) (faddr : DWord) : List Byte :=
  recBody la.pkt 0x80 cause 0 la.mqst.toNat la.tag
    (leBytes ctx 1 ++ leBytes 0 3 ++ leBytes core 2 ++ leBytes warp 1 ++ leBytes 0 1 ++ leBytes b 4 ++ leBytes 0 4 ++
      leBytes faddr.toNat 8)

end Sys2Proof.Machine
end

