-- ==== Sys2Proof/Machine/Traps.lean ====
section
/-!
DEFINITION. The block stop (12_core_scheduling.md R268 to R272), the halt record, the handler's entry and
return, and the system controller's resolution of translation faults (18_traps.md R337 to R347).
-/
namespace Sys2Proof.Machine
open Sys2Proof

def eretNoFrame : Nat := 0x10
def eretFrame : Nat := 0x13
def frameFault : Nat := 0x14
def faultTimeout : Nat := 0x88

/-- Who acts on a cause (R337): the context's handler, the system controller, a kill, or a completion record alone. -/
inductive Route where
  | handler | system | kill | record
  deriving DecidableEq, Repr

/-- The "To" column of R350. -/
def routeOf (cause : Nat) : Route :=
  if [0x15, 0x16].contains cause || isTranslation cause then .system
  else if (0x11 ≤ cause && cause ≤ 0x14) || (0x61 ≤ cause && cause ≤ 0x68) || cause = 0x82 || cause = 0x83
      || (0x87 ≤ cause && cause ≤ 0x89) then .kill
  else if cause = 0x81 || cause = 0x85 || cause = 0x86 || (0xA1 ≤ cause && cause ≤ 0xA3) then .record
  else .handler

/-! ### Where a launch's record area lies (R338) -/

def frb (la : Launch) : Nat := la.spb + 16 * la.spd * la.blocks * la.warps
def frameAt (la : Launch) (b w : Nat) : Nat := frb la + 256 * (b * la.warps + w)
def haltRecordAt (la : Launch) (b : Nat) : Nat := frb la + 256 * la.blocks * la.warps + 1088 * b

/-- Writes part of the record area as a store of the context at .b; a fault, ADDRESS_RANGE among them, kills the context with
FRAME_FAULT (R338, 07_core_memory.md R149). -/
def Mach.frameWrite (m : Mach) (t : Nat) (blk : Block) (va : Nat) (data : List Byte) : Option Mach :=
  match m.rangeKeys blk .write va data.length with
  | .error (c, a) => if c = mcWalk then some (m.consumeWalk t blk.ctx a) else none
  | .ok keys => some (m.consumeWrite t blk.ctx keys (fun m => m.storeThrough blk.part blk.core blk.ctx keys data))

/-! ### Where a warp stops -/

/-- An operation that has set its flag's fault bit; the count may have fallen before, when its operands had been read
(11_async_armature.md R230, R232). -/
def Op.marks (o : Op) (k : Nat) : Bool := o.flag = some k && o.fault.isSome && o.reported

/-- The faulted operation of a flag that was issued first. -/
def Warp.faultOf (w : Warp) (k : Nat) : Option FaultInfo := (w.ops.find? (fun e => e.2.marks k)).bind (fun e => e.2.fault)

/-- The fault of the first-issued operation among the flags of a mask whose fault bits are set (DEDUCED, log entry 37). -/
def Warp.flagFault (w : Warp) (mask : BitVec 12) : Option FaultInfo :=
  (w.ops.find? (fun e => match e.2.flag with
    | some k => mask.getLsbD k && w.bits.getLsbD k && e.2.marks k
    | none => false)).bind (fun e => e.2.fault)

/-- The WAIT mask of the clause at a PC. -/
def Mach.waitMask (m : Mach) (blk : Block) (pc : Nat) : BitVec 12 :=
  match m.fetchWord blk.core blk.ctx pc with
  | .error _ => 0
  | .ok word => (match decodeHeader word with
    | some h => h.wait
    | none => 0)

/-- A stop at a clause boundary: the clause at RHDR did not start (R340). -/
def Stop.boundary (t how cause kind : Nat) (info : FaultInfo) (slot rhdr : Nat) : Stop :=
  { how := how, cycle := t, cause := cause, kind := kind, info := { info with slot := slot }, rhdr := rhdr, pos := 0, skid := 0 }

def FaultInfo.zero : FaultInfo := { cause := 0, ia := 0, fmask := 0, faddr := 0, xcode := 0, lane := 0xFF, slot := 0 }

/-- Whether the slot of a warp would let it issue now: no refill and no started clause holds the cycle, and its pack's refill is
over. A pack outside the active set would issue nothing; a stop of a warp of it that can never be ready waits for nothing (R268, DESIGN
CHOICE, log entry 37). -/
def Mach.slotOpen (m : Mach) (t b w : Nat) (blk : Block) : Bool :=
  let p : PackId := { blk := b, k := blk.packOf w }
  let slot := p.k % 4
  match (m.slotOf blk.core slot).active.find? (fun a => a.1 = p) with
  | none => true
  | some a => a.2 ≤ t && !m.occupied blk.core slot t && !(m.die (blk.core / 64)).withholds t

/-- Whether a warp is the one that its slot would start now (R260, R262). -/
def Mach.wouldStart (m : Mach) (t b w : Nat) (blk : Block) : Bool :=
  let slot := blk.packOf w % 4
  (m.choose t blk.core slot (m.starters t blk.core slot)).1.any (fun e => e.blk = b && e.wid = w)

/-- The stop of a warp at its next clause by a failure of its own, in the cycle in which the clause would have started; a fault that
named no flag stops it once that clause waits for nothing (R268, 07_core_memory.md R170, DEDUCED, log entries 37 and 48). -/
def Mach.ownStop (m : Mach) (t b w : Nat) (blk : Block) (x : Warp) : Option Stop :=
  let s := m.nextSlot blk x
  let pc := (x.slot s).pc.toNat
  match x.noFlag with
  | some f =>
    (match m.nextClause blk x s with
    | .empty => none
    | .waiting => none
    | .held => none
    | .ready .. => if m.wouldStart t b w blk then some (.boundary t 0 f.cause 2 f s pc) else none
    | _ => if m.slotOpen t b w blk then some (.boundary t 0 f.cause 2 f s pc) else none)
  | none =>
    if !m.slotOpen t b w blk then none else
    match m.nextClause blk x s with
    | .faulted _ =>
      let f := (x.flagFault (m.waitMask blk pc)).getD .zero
      some (.boundary t 0 f.cause 1 f s pc)
    | .bad c =>
      let f : FaultInfo :=
        { FaultInfo.zero with cause := c, ia := pc, fmask := (x.slot s).mask, faddr := (if isTranslation c then BitVec.ofNat 64 pc else 0) }
      some (.boundary t 0 c (if isTranslation c then 2 else 0) f s pc)
    | _ => none

/-- The stop of an ended warp that a fault outlives (06_isa_control.md R138). -/
def Warp.endedStop (x : Warp) (t : Nat) : Option Stop :=
  match x.noFlag with
  | some f => some (.boundary t 0 f.cause 2 f 0 0)
  | none => (x.flagFault x.bits).map (fun f => .boundary t 0 f.cause 1 f 0 0)

/-- The stop of a sibling that has no clause under way (R269). -/
def Mach.siblingStop (m : Mach) (t : Nat) (blk : Block) (x : Warp) : Stop :=
  let s := m.nextSlot blk x
  .boundary t 1 0 0 .zero s (x.slot s).pc.toNat

/-- WARP_STOP: the stop of a warp that stands at a clause boundary, or that has ended; none where it does not stop. -/
def Mach.stopOf (m : Mach) (t b : Nat) (blk : Block) (w : Nat) (x : Warp) : Option Stop :=
  if x.stop.isSome || x.clause.isSome || blk.out || blk.past || !m.alive blk || (blk.halted && blk.handler != some w) then none
  else if x.ended then x.endedStop t
  else if blk.primary.isSome && !blk.halted then some (m.siblingStop t blk x)
  else if x.free ≤ t && x.sleeping.isEmpty then m.ownStop t b w blk x
  else none

/-- A warp that has stopped: the halt completes its SLEEPs, one that it issued after the broadcast included (11_async_armature.md
R241), and ends its urgency (R265). -/
def Warp.stopped (x : Warp) (st : Stop) : Warp := { x.endSleeps with stop := some st, urgent := false, readyFor := 0 }

def Mach.warpStop (m : Mach) (t b w : Nat) : Option Mach :=
  match m.warp b w with
  | none => none
  | some (blk, x) => (m.stopOf t b blk w x).map (fun st => m.setWarp b w (x.stopped st))

/-! ### The block halt -/

/-- The warps that have stopped by a failure of their own. -/
def Block.failures (b : Block) : List (Nat × Stop) :=
  b.warps.filterMap (fun e => match e.2.stop with
    | some s => if s.how = 0 then some (e.1, s) else none
    | none => none)

/-- The primary stop: the earliest, then the lowest warp (R270). -/
def Block.primaryStop (b : Block) : Option (Nat × Stop) := bestOf (fun x y => x.2.cycle < y.2.cycle) b.failures

/-- Failures in the order of handlers and notices: the primary warp's first, then ascending (R341, R344). -/
def Block.ordered (b : Block) : List (Nat × Stop) :=
  match b.primaryStop with
  | none => []
  | some p => p :: b.failures.filter (fun e => e.1 != p.1)

/-- The first cause that an operation of a warp reported after the halt. -/
def Block.lateCause (b : Block) (w : Nat) : Nat := ((b.late.find? (fun e => e.1 = w)).map (·.2)).getD 0

/-- The cause that the halt record holds for a warp: that of its own failure, or the first that an operation of it reported after
the halt; 0 when none (R270, R339, DESIGN CHOICE, log entry 55). -/
def Block.causeOf (b : Block) (w : Nat) (x : Warp) : Nat :=
  match x.stop with
  | some s => if s.cause = 0 then b.lateCause w else s.cause
  | none => b.lateCause w

/-- A warp's entry of the halt record (R339). -/
def Block.haltEntry (b : Block) (w : Nat) (x : Warp) : List Byte :=
  let (pc, how) := match x.stop with
    | some s => (s.rhdr, s.how)
    | none => (x.s0.pc.toNat, 3)
  leBytes pc 8 ++ leBytes (b.causeOf w x) 1 ++ leBytes how 1 ++ leBytes x.skid 1 ++ leBytes 0 1 ++ leBytes x.pix.toNat 4

/-- The halt record (R339). -/
def Block.haltRecord (b : Block) : List Byte :=
  let p := b.primaryStop
  leBytes ((p.map (fun e => e.2.cause)).getD 0) 1 ++ leBytes ((p.map (·.1)).getD 0) 1 ++ leBytes 0 2 ++ leBytes b.b 4 ++
    leBytes 0 56 ++ b.warps.foldr (fun e l => b.haltEntry e.1 e.2 ++ l) []

/-- The cycle by which every fixed-latency result of a block has been written (02_warp_state.md R40). -/
def Block.lastResult (b : Block) : Nat := b.warps.foldl (fun a e => e.2.pend.foldl (fun a p => max a p.at_) a) 0

/-- The notices of the warps of a halted block whose causes have route S (R344). -/
def Mach.faultNotices (m : Mach) (blk : Block) (la : Launch) (fs : List (Nat × Stop)) : Mach :=
  fs.foldl (fun m e => m.notice (faultNotice la e.2.cause blk.ctx blk.core e.1 blk.b e.2.info.faddr)) m

/-- The system controller's part for a halted block with route-S causes: their notices, and the wait for a
covering TLBINV (R343, R344). -/
def Mach.awaitSystem (m : Mach) (t b : Nat) (blk : Block) (la : Launch) (fs : List (Nat × Stop)) : Mach :=
  let m := m.faultNotices blk la fs
  let us := fs.filterMap (fun e => if isTranslation e.2.cause then some (e.1, e.2.info.faddr.toNat) else none)
  m.setBlock b { blk with
    uncovered := us
    noticed := true
    noticeDue := if us.isEmpty then none else some (t + cyclesPerMs * (m.ctx blk.ctx).killt) }

/-- What follows a halt: the primary cause decides (R337). Its kill, after the notices of the warps with route-S causes (R344); or the
system controller for every route-S cause, and then the handlers, or the kill where there is none. A warp that met uncorrectable data
kills the context with that cause, whichever is the primary one (16_die.md R300). -/
def Mach.routeHalt (m : Mach) (t b : Nat) (blk : Block) : Mach :=
  let la := m.launchOf blk
  let fs := blk.ordered
  let ss := fs.filter (fun e => routeOf e.2.cause = .system)
  let blk := { blk with routed := true, await := (fs.filter (fun e => routeOf e.2.cause = .handler)).map (·.1) }
  let m := m.setBlock b blk
  match fs.find? (fun e => isBadData e.2.cause) with
  | some (_, s) => ((m.faultNotices blk la ss).foundFault blk.core blk.ctx s.info).kill t blk.ctx s.cause 2
  | none =>
  match routeOf blk.primaryCause with
  | .kill | .record => (m.faultNotices blk la ss).kill t blk.ctx blk.primaryCause 2
  | .system => m.awaitSystem t b blk la ss
  | .handler =>
    if !ss.isEmpty then m.awaitSystem t b blk la ss
    else if la.hndl = 0 then m.kill t blk.ctx blk.primaryCause 2
    else m

/-- The block has halted: fixed results are in, and the halt record is written (R269, R270, R338, R339). -/
def Mach.blockHalts (m : Mach) (t b : Nat) (blk : Block) : Mach :=
  let la := m.launchOf blk
  let p := blk.primaryStop
  let blk := { blk with
    halted := true, primary := p.map (·.1), primaryCause := (p.map (fun e => e.2.cause)).getD 0
    recorded := la.hndl != 0, warps := blk.warps.mapVal (fun x => x.settle t) }
  let m := m.setBlock b blk
  if la.hndl = 0 then m
  else (m.frameWrite t blk (haltRecordAt la blk.b) blk.haltRecord).getD (m.kill t blk.ctx frameFault 2)

/-- A failure of the warp that runs a handler (R342). -/
def Mach.handlerFails (m : Mach) (t b w : Nat) (blk : Block) (s : Stop) : Mach :=
  match routeOf s.cause with
  | .handler => m.kill t blk.ctx handlerNested 2
  | .system => m.awaitSystem t b blk (m.launchOf blk) [(w, s)]
  | _ => (m.foundFault blk.core blk.ctx s.info).kill t blk.ctx s.cause 2

/-- The warp whose handler runs; none once it has ended. -/
def Block.running (b : Block) : Option Nat :=
  match b.handler with
  | some w => (match b.warp w with
    | some x => if x.ended then none else some w
    | none => none)
  | none => none

/-- HALT_BROADCAST: two cycles after the first stop the broadcast reaches every warp, and SLEEPs end
(11_async_armature.md R241); once every warp has stopped or ended, and its fixed results are in, the block has halted; and the
causes that the halt has recorded are routed (R337). -/
def Mach.haltBroadcast (m : Mach) (t b : Nat) : Option (Nat × Mach) :=
  match m.block b with
  | none => none
  | some blk =>
    if blk.out || blk.past || !m.alive blk then none
    else if blk.halted && !blk.routed then (if blk.primary.isSome then some (t, m.routeHalt t b blk) else none)
    else if blk.halted then
      match blk.running with
      | none => none
      | some w =>
        match blk.warp w with
        | none => none
        | some x =>
          match x.stop with
          | some s => if s.how = 0 && (!blk.noticed || routeOf s.cause != .system) then
              some (t, m.handlerFails t b w blk s) else none
          | none => none
    else
      match blk.primaryStop with
      | none => none
      | some (w, s) =>
        if blk.primary.isNone then
          if s.cycle + 2 ≤ t then
            some (t, m.setBlock b { blk with primary := some w, warps := blk.warps.mapVal Warp.endSleeps })
          else none
        else if blk.lastResult ≤ t && blk.warps.all (fun e => e.2.stop.isSome || e.2.ended) then
          some (t, m.blockHalts t b blk)
        else none

/-! ### Faults reported late -/

/-- Whether a fault of an operation comes after the halt of its block: its warp has stopped, and the operation is none of its
handler's (R270). -/
def Block.lateFault (b : Block) (x : Warp) (op : Nat) : Bool :=
  b.primary.isSome && (b.halted || x.stop.isSome) && match x.shadow with
    | some sh => op < sh.mark
    | none => true

/-- Enters a cause in the halt record of a block, and in the record area where the record stands there (R270, R338, R339). -/
def Mach.recordLate (m : Mach) (t b w cause : Nat) : Mach :=
  match m.warp b w with
  | none => m
  | some (blk, x) =>
    let first := blk.causeOf w x = 0
    let m := m.setBlock b { blk with late := blk.late ++ [(w, cause)] }
    if first && blk.recorded then
      (m.frameWrite t blk (haltRecordAt (m.launchOf blk) blk.b + 64 + 16 * w + 8) (leBytes cause 1)).getD (m.kill t blk.ctx frameFault 2)
    else m

/-- OPERATION_FAULT: an operation's fault is reported. After the halt of its block it is recorded against its warp too (R270); during
a kill that is all (17_package.md R325). One whose walk met uncorrectable data kills the context (16_die.md R300). -/
def Mach.faultEvent (m : Mach) (t b w op : Nat) : Option Mach :=
  match m.warp b w with
  | none => none
  | some (blk, x) =>
    match (x.ops.find op).bind Op.toReport with
    | none => none
    | some f =>
      if m.alive blk then
        (m.operationFault t b w op).map (fun m =>
          let m := if blk.lateFault x op then m.recordLate t b w f.cause else m
          if isBadData f.cause then (m.foundFault blk.core blk.ctx f).kill t blk.ctx f.cause 2 else m)
      else
        some ((m.setWarp b w { x with ops := x.ops.upd op (fun o => { o with reported := true }) }).recordLate t b w f.cause)

/-- OPERATION_FAULT (R24): An operation's fault is reported, setting its flag's fault bit. -/
def execOperationFault (blk w op : Nat) (s : State) : Host.Outcome State Fault Refusal :=
  event s ((s.m.faultEvent s.now blk w op).map (fun m => (s.now, m)))

/-! ### Entry -/

/-- The lane mask with which a handler runs: that of the PC slot, and every lane of the width for a warp that
has ended (DESIGN CHOICE, log entry 55). -/
def handlerMask (blk : Block) (x : Warp) (s : Stop) : Mask :=
  if x.ended then widthMask blk.width else (x.slot s.info.slot).mask

/-- The trap frame (R340). -/
def trapFrame (blk : Block) (w : Nat) (x : Warp) (s : Stop) : List Byte :=
  leBytes s.cause 1 ++ leBytes s.kind 1 ++ leBytes 0 1 ++ leBytes s.pos 1 ++ leBytes x.bits.toNat 2 ++
  leBytes s.info.lane 1 ++ leBytes s.info.slot 1 ++ leBytes s.rhdr 8 ++ leBytes s.info.ia 8 ++
  leBytes (handlerMask blk x s).toNat 8 ++ leBytes s.info.fmask.toNat 8 ++ leBytes s.info.faddr.toNat 8 ++
  leBytes s.info.xcode.toNat 4 ++ leBytes x.flags.toNat 4 ++ leBytes x.pix.toNat 4 ++ leBytes blk.b 4 ++
  leBytes w 1 ++ leBytes (blk.core / 64) 1 ++ leBytes (blk.core % 64) 1 ++ leBytes 0 189

/-- The trap shadow (R341): latches, buffer data and the clause only where the warp stopped inside one. -/
def Warp.shadowOf (x : Warp) (s : Stop) : Shadow :=
  let mid := s.pos != 0
  { s0 := x.s0, s1 := x.s1, turn := x.turn, nextFirst := x.nextFirst, stack := x.stack, spilled := x.spilled, map := x.map,
    h0 := if mid then x.h0 else none, h1 := if mid then x.h1 else none, buf := if mid then x.buf else [],
    deadB := if mid then x.deadB else 0, counts := x.counts, bits := x.bits, stop := s,
    clause := if mid then x.clause else none, mark := x.nextOp }

/-- The warp as its handler starts (R341). A fault that named no flag and that the stop has not reported stands: it stops the warp at
its next clause (07_core_memory.md R170, DESIGN CHOICE, log entry 55). -/
def Warp.enterHandler (x : Warp) (t hndl : Nat) (mask : Mask) (s : Stop) : Warp :=
  { x with
    shadow := some (x.shadowOf s), s0 := { pc := BitVec.ofNat 57 hndl, mask := mask }, s1 := .empty, turn := 0, nextFirst := false,
    stack := [], spilled := [], map := [], buf := [], deadB := 0, h0 := none, h1 := none, counts := [], bits := 0,
    noFlag := if s.kind = 2 then none else x.noFlag, clause := none, stop := none, ended := false, sleeping := [], free := max x.free t, readyFor := 0 }

/-- HANDLER_ENTRY: the next warp that awaits its handler enters it, once every route-S cause is resolved (R337, R341). -/
def Mach.handlerEntry (m : Mach) (t b w : Nat) : Option Mach :=
  match m.warp b w with
  | none => none
  | some (blk, x) =>
    match blk.await, x.stop with
    | w' :: rest, some s =>
      if w' != w || !blk.halted || !blk.routed || blk.running.isSome || blk.out || !m.alive blk
          || blk.failures.any (fun e => routeOf e.2.cause = .system) then none
      else
        let la := m.launchOf blk
        match m.frameWrite t blk (frameAt la blk.b w) (trapFrame blk w x s) with
        | none => some (m.kill t blk.ctx frameFault 2)
        | some m =>
          if !m.alive blk then some m
          else
            let blk := { blk with await := rest, handler := some w }
            some (m.setBlock b (blk.setWarp w (x.enterHandler t la.hndl (handlerMask blk x s) s)))
    | _, _ => none

/-! ### Return -/

/-- Removes the faulted operations of the flags that FLGCLR names, and clears those flags' fault bits (R346); a splat among them no
longer holds up the field unit (DESIGN CHOICE, log entry 24), nor a matrix instruction the engine (10_matrix.md R226). -/
def Warp.clearFlags (x : Warp) (sel : BitVec 12) (mark : Nat) : Warp :=
  let sel := sel &&& x.bits
  let hit (e : Nat × Op) : Bool := e.1 < mark && match e.2.flag with
    | some k => sel.getLsbD k && e.2.marks k
    | none => false
  let n (k : Nat) : Nat := (x.ops.filter (fun e => hit e && !e.2.flagDone && e.2.flag = some k)).length
  let gone (op : Nat) : Bool := x.ops.any (fun e => e.1 = op && hit e)
  let ops := x.ops.map (fun e => if hit e then (e.1, { e.2 with flag := none, flagDone := true }) else e)
  let counts := (lanesOf sel 12).foldl (fun c k => c.set k (c.get k - BitVec.ofNat 6 (n k))) x.counts
  ({ x with counts := counts, bits := x.bits &&& ~~~sel, matFault := x.matFault.filter (fun f => !gone f.1),
            fieldQ := x.fieldQ.filter (fun op => !gone op), matQ := x.matQ.filter (fun op => !gone op), ops := ops }).sweep

/-- The faults of operations that named no flag, which the stop has reported, are over. -/
def Warp.dropNoFlag (x : Warp) (mark : Nat) : Warp :=
  let past (e : Nat × Op) : Bool := e.1 < mark && e.2.fault.isSome && e.2.reported && e.2.flag = none
  let ops := x.ops.map (fun e => if past e then (e.1, { e.2 with flagDone := true }) else e)
  let gone (op : Nat) : Bool := x.ops.any (fun e => e.1 = op && past e)
  ({ x with ops := ops, matFault := x.matFault.filter (fun f => !gone f.1), fieldQ := x.fieldQ.filter (fun op => !gone op),
            matQ := x.matQ.filter (fun op => !gone op) }).sweep

/-- The SLEEPs of a warp that have not completed. -/
def Warp.asleep (x : Warp) : List Nat :=
  x.ops.filterMap (fun e => match e.2.payload with
    | .sleep .. => if e.2.flagDone || e.2.fault.isSome then none else some e.1
    | _ => none)

/-- The restored warp before the place of resumption is settled (R346). The handler's own operations no longer
count in any flag (DEDUCED, log entry 38). -/
def Warp.unshadow (x : Warp) (sh : Shadow) : Warp :=
  { x with
    s0 := sh.s0, s1 := sh.s1, turn := sh.turn, nextFirst := sh.nextFirst, sleeping := x.asleep, stack := sh.stack, spilled := sh.spilled, map := sh.map,
    counts := sh.counts, bits := sh.bits, shadow := none, clause := none,
    ended := !sh.s0.live && !sh.s1.live,
    ops := x.ops.map (fun e => if sh.mark ≤ e.1 then (e.1, { e.2 with flag := none }) else e) }

/-- The clause that a resumption inside it goes on with. -/
def Mach.resumeClause (m : Mach) (t : Nat) (blk : Block) (sh : Shadow) (rhdr pos : Nat) : Option Clause :=
  match m.fetchWord blk.core blk.ctx rhdr with
  | .error _ => none
  | .ok word =>
    match decodeHeader word with
    | none => none
    | some h =>
      if h.len.toNat < pos then none
      else
        let body := m.clauseBody blk.core blk.ctx rhdr h.len.toNat
        let skip := match sh.clause with
          | some c => c.skip - (pos - c.pos)
          | none => 0
        let arm := match sh.clause with
          | some c => c.arm
          | none => blk.armAt t
        some
          { hdr := h, head := rhdr, slot := sh.stop.info.slot, pos := pos, next := t + 1, skip := skip, arm := arm,
            beats := beatsFrom (t + 1) (body.drop pos) }

/-- RETURNING FROM AN EXCEPTION: ERET with ACTION 0 (R346), given POS, FLGCLR and RHDR of the frame; none where
the frame is refused. -/
def Mach.eretRestore (m : Mach) (t : Nat) (blk : Block) (x : Warp) (sh : Shadow) (pos rhdr : Nat) (clr : BitVec 12) :
    Option Warp :=
  let y := ((x.unshadow sh).clearFlags clr sh.mark).dropNoFlag sh.mark
  let park (y : Warp) : Warp :=
    { y with stop := some (.boundary t 1 0 0 .zero sh.stop.info.slot rhdr), free := max y.free (t + 1) }
  if y.ended then some (park { y with h0 := none, h1 := none, buf := [], deadB := 0 })
  else if pos = 0 then
    if 2 ^ 57 ≤ rhdr then none else
    match m.isHeader blk.core blk.ctx rhdr with
    | .ok true =>
      let s := sh.stop.info.slot
      let y := y.setSlot s { y.slot s with pc := BitVec.ofNat 57 rhdr }
      some (park ({ y with h0 := none, h1 := none }.refill blk.width))
    | _ => none
  else if rhdr != sh.stop.rhdr then none
  else
    match m.resumeClause t blk sh rhdr pos with
    | none => none
    | some c =>
      let y := if sh.stop.pos = 0 then { y with h0 := none, h1 := none }.refill blk.width
        else { y with h0 := sh.h0, h1 := sh.h1, buf := sh.buf, deadB := sh.deadB }
      some { park y with clause := some c, stop := some { Stop.boundary t 1 0 0 .zero c.slot rhdr with pos := pos } }

/-- ERET of a warp that runs a handler and whose stores have performed: the frame's four fields decide (R346). -/
def Cx.eret (c : Cx) (sh : Shadow) : Mach :=
  let m := c.flush
  let blk := c.blk.setWarp c.wid c.w
  match m.rangeKeys blk .read (frameAt c.la blk.b c.wid) 16 with
  | .error (e, a) => if e = mcWalk then m.consumeWalk c.t blk.ctx a else m.kill c.t blk.ctx frameFault 2
  | .ok keys =>
    let read := m.missKeys blk.part blk.core blk.ctx keys
    if m.anyBad read then m.consume c.t blk.ctx read
    else
      let m := m.brought blk.ctx (frameAt c.la blk.b c.wid) 16 keys
      let bs := keys.map (m.loadByte blk.part blk.core blk.ctx)
      let byte (k : Nat) : Nat := (bs.getD k 0).toNat
      let rhdr := leNat (bs.drop 8)
      if byte 2 = 1 then m.kill c.t blk.ctx sh.stop.cause 2
      else if byte 2 != 0 then m.kill c.t blk.ctx eretFrame 2
      else
        let x := { c.w.settle (c.t + 64) with seq := c.w.seq + 1, issuedTo := c.t + 1 }
        match m.eretRestore c.t blk x sh (byte 3) rhdr (BitVec.ofNat 12 (leNat ((bs.drop 4).take 2))) with
        | none => m.kill c.t blk.ctx eretFrame 2
        | some y => m.setBlock c.bid ({ blk with handler := none }.setWarp c.wid y)

/-- ERET (R346): it acts whatever its guard. It waits for the warp's stores; skipped by an SBR it falls through. -/
def Cx.runEret (c : Cx) : Mach :=
  if c.skipped then c.advance.flush
  else
    match c.w.shadow with
    | none => (c.takeTrap (.of eretNoFrame)).flush
    | some sh =>
      if c.w.drained c.w.seq then c.eret sh
      else ({ c with w := { c.w with clause := some { c.cl with next := c.t + 1 } } }).flush

/-! ### Resumption -/

/-- Whether a TLBINV from `va` of `n` bytes covers the 64 KiB granule of an address; count 0 covers all (R343). -/
def coversGranule (va n a : Nat) : Bool := n = 0 || (va ≤ 2 ^ 16 * (a / 2 ^ 16) && 2 ^ 16 * (a / 2 ^ 16 + 1) ≤ va + n)

/-- A BWAIT waits again for the batches whose translation faults have been resolved: a batch's fault mark goes with the fault (R343). -/
def Op.rewait (o : Op) (hit : FaultInfo → Bool) : Op :=
  match o.payload with
  | .bwait k bs fs =>
    { o with payload := .bwait k (bs ++ (fs.filter (fun e => hit e.2)).map (·.1)) (fs.filter (fun e => !hit e.2)) }
  | _ => o

/-- The translation faults of a warp that a TLBINV has resolved are withdrawn: their operations are outstanding
again (R343). -/
def Warp.withdraw (x : Warp) (va n : Nat) : Warp :=
  let hit (f : FaultInfo) : Bool := isTranslation f.cause && coversGranule va n f.faddr.toNat
  let back (o : Op) : Bool := o.reported && o.fault.any hit
  let ops := x.ops.mapVal (fun o =>
    let o := if o.flagDone then o else o.rewait hit
    if back o then { o with fault := none, reported := false } else o)
  let x := (x.ops.filter (fun e => back e.2)).reverse.foldl (fun x e => x.refoldOp e.1 e.2) x
  let faulted (k : Nat) (lo hi : Nat) : Bool :=
    ops.any (fun e => lo ≤ e.1 && e.1 < hi && e.2.marks k)
  let keep (bits : BitVec 12) (lo hi : Nat) : BitVec 12 :=
    (lanesOf bits 12).foldl (fun b k => if faulted k lo hi then b else b &&& ~~~(1#12 <<< k)) bits
  let lo := match x.shadow with
    | some sh => sh.mark
    | none => 0
  let sh := x.shadow.map (fun sh => { sh with bits := keep sh.bits 0 sh.mark })
  { x with ops := ops, batches := x.batches.mapVal (fun q => { q with bad := q.bad.filter (fun e => !hit e.2.2) }), bits := keep x.bits lo x.nextOp, shadow := sh, noFlag := x.noFlag.filter (fun f => !hit f),
           matFault := x.matFault.filter (fun f => !hit f.2) }

/-- A completed administrative TLBINV, as a halted block of its context sees it (R343). -/
def Block.covered (b : Block) (va n : Nat) : Block :=
  if b.noticeDue.isSome then
    { b with
      uncovered := b.uncovered.filter (fun u => !coversGranule va n u.2)
      warps := b.warps.mapVal (fun x => x.withdraw va n) }
  else b

/-- A completed administrative TLBINV of a context, seen by its blocks and by those of its images (R343). -/
def Mach.covered (m : Mach) (ctx va n : Nat) : Mach :=
  { m with
    blocks := m.blocks.mapVal (fun b => if b.ctx = ctx then b.covered va n else b)
    images := m.images.mapVal (fun i => if i.ctx = ctx then { i with blocks := i.blocks.mapVal (fun b => b.covered va n) } else i) }

/-- SYS_INDEX and SYS_STATE are withdrawn without effect: the flag falls (DESIGN CHOICE, log entry 41). -/
def Warp.resolveSys (x : Warp) : Warp :=
  let hit (o : Op) : Bool := match o.fault with
    | some f => (f.cause = sysIndex || f.cause = sysState) && o.reported && !o.flagDone
    | none => false
  let ks := x.ops.filterMap (fun e => if hit e.2 then e.2.flag else none)
  let ops := x.ops.map (fun e => if hit e.2 then (e.1, { e.2 with fault := none, reported := false, flagDone := true, batchDone := true }) else e)
  let faulted (k : Nat) : Bool := ops.any (fun e => e.2.marks k)
  let counts := ks.foldl (fun c k => c.set k (c.get k - 1)) x.counts
  let bits := ks.foldl (fun b k => if faulted k then b else b &&& ~~~(1#12 <<< k)) x.bits
  let nf := x.noFlag.filter (fun f => f.cause != sysIndex && f.cause != sysState)
  ({ x with ops := ops, counts := counts, bits := bits, noFlag := nf }).sweep

/-- The stop of a warp whose route-S cause is resolved: it waits with its block, or goes on with its handler. -/
def Warp.systemDone (x : Warp) (running : Bool) : Warp :=
  match x.stop with
  | some s =>
    if s.how = 0 && routeOf s.cause = .system then
      { x.resolveSys with stop := (if running then none else some { s with how := 1, cause := 0 }) }
    else x
  | none => x

/-- The block restarts: every warp at its recorded point (R272). -/
def Block.restart (b : Block) : Block :=
  { b with
    halted := false, primary := none, primaryCause := 0, late := [], recorded := false, routed := false, noticed := false
    handler := none, await := [], uncovered := [], noticeDue := none
    warps := b.warps.mapVal (fun x => { x with stop := none, skid := 0, readyFor := 0 }) }

/-- A block resumes; a warp that stopped with a cause of route K has its context killed instead, with the primary cause (R337, R350,
DESIGN CHOICE, log entry 55). -/
def Mach.resumeBlock (m : Mach) (t b : Nat) (blk : Block) : Mach :=
  if blk.failures.isEmpty then (m.setBlock b blk.restart).retime (t + 1) b (fun _ => true)
  else (m.setBlock b blk).kill t blk.ctx blk.primaryCause 2

/-- BLOCK_RESUME: the system controller has resolved the block's route-S causes, or its last handler has returned
(R343, R346). A handler that is still due then runs first; where there is none, the context is killed (R337). -/
def Mach.blockResume (m : Mach) (t b : Nat) : Option Mach :=
  match m.block b with
  | none => none
  | some blk =>
    if !blk.halted || !blk.routed || blk.out || !m.alive blk || !blk.uncovered.isEmpty then none
    else
      let run := blk.running
      if blk.failures.any (fun e => routeOf e.2.cause = .system && (run = none || run = some e.1)) then
        let blk := { blk with
          noticeDue := none, noticed := false
          warps := blk.warps.map (fun e => (e.1, e.2.systemDone (run = some e.1))) }
        if run.isSome then some (m.setBlock b blk)
        else if blk.await.isEmpty then some (m.resumeBlock t b blk)
        else if (m.launchOf blk).hndl = 0 then some ((m.setBlock b blk).kill t blk.ctx blk.primaryCause 2)
        else some (m.setBlock b blk)
      else if run = none && blk.await.isEmpty && blk.primary.isSome then some (m.resumeBlock t b blk)
      else none

/-- FAULT_TIMEOUT: KILLT ms have passed after the notice without a covering TLBINV (R343). -/
def Mach.faultTimedOut (m : Mach) (t b : Nat) : Option Mach :=
  match m.block b with
  | none => none
  | some blk =>
    match blk.noticeDue with
    | some d => if d ≤ t && !blk.uncovered.isEmpty && m.alive blk then some (m.kill t blk.ctx faultTimeout 4) else none
    | none => none

/-- ERET (R346): Returns from the trap handler as the frame directs. -/
def execEret (w : ZForm) (s : State) : Host.Outcome State Fault Refusal :=
  outcome .noWarpAtIssue ((openCx (.eret w) s).map (fun c => s.lift c.t c.runEret))

/-- WARP_STOP (R268): A warp stops at the point its failure's rule gives. -/
def execWarpStop (blk w : Nat) (s : State) : Host.Outcome State Fault Refusal :=
  event s ((s.m.warpStop s.now blk w).map (fun m => (s.now, m)))

/-- HALT_BROADCAST (R269): The stop reaches the block's other warps two cycles later and they stop after their skid. -/
def execHaltBroadcast (blk : Nat) (s : State) : Host.Outcome State Fault Refusal :=
  eventW s (s.m.haltBroadcast s.now blk)

/-- HANDLER_ENTRY (R341): The trap handler is entered in a warp whose cause routes to it. -/
def execHandlerEntry (blk w : Nat) (s : State) : Host.Outcome State Fault Refusal :=
  eventW s ((s.m.handlerEntry s.now blk w).map (fun m => (s.now, m)))

/-- BLOCK_RESUME (R343): The system controller resumes a halted block after its translation faults are covered. -/
def execBlockResume (blk : Nat) (s : State) : Host.Outcome State Fault Refusal :=
  event s ((s.m.blockResume s.now blk).map (fun m => (s.now, m)))

/-- FAULT_TIMEOUT (R343): KILLT passes after a notice without a covering TLBINV and the context is killed. -/
def execFaultTimeout (blk : Nat) (s : State) : Host.Outcome State Fault Refusal :=
  event s ((s.m.faultTimedOut s.now blk).map (fun m => (s.now, m)))

end Sys2Proof.Machine
end

