-- ==== Sys2Proof/Machine/Scanner.lean ====
section
/-!
DEFINITION. The scanner (03_encoding.md R46, R58, R60, R61): the statuses of each word of a granule, and the first
rejected word of a code map's range.
-/
namespace Sys2Proof.Machine
open Sys2Proof

/-- The statuses that a word meets alone, whatever its place (R61). -/
def wordStatuses (w : IWord) : List Nat :=
  let r := Raw.split w
  match r.instr with
  | none => [0x01]
  | some i =>
    let when_ (p : Bool) (st : Nat) : List Nat := if p then [st] else []
    if !r.fnOk i then [0x02]
    else
      when_ (r.hint.extractLsb' 0 4 != 0#4 || (r.operandFields i).any badPad || !r.zOk i || !i.mbzOk) 0x03 ++
      when_ ((r.operandFields i).any badLevel || !i.levelsOk) 0x04 ++ when_ (!i.hintOk) 0x0D

/-- The predicates that an instruction reads: its guard, and those that its MOD carries (05_isa_arithmetic.md R97,
06_isa_control.md R115). -/
def predReads (i : Instr) (f : Fields) : List Nat :=
  let guard := f.g.p.toNat
  let more : List Nat := match i with
    | .iadd _ => if f.fn = 3 && f.mod.getLsbD 3 then [bitsAt f.mod 0 3] else []
    | .isub _ => if f.fn = 3 && f.mod.getLsbD 3 then [bitsAt f.mod 0 3] else []
    | .sel _ => [bitsAt f.mod 0 3]
    | .isetp _ => if bitsAt f.mod 8 2 = 0 then [] else [bitsAt f.mod 4 3]
    | .fsetp _ => if bitsAt f.mod 8 2 = 0 then [] else (List.range (fpElems f.fn.toNat)).map (fun k => bitsAt f.mod 4 3 + k)
    | .plop _ => (List.range 7).filter (fun n => f.mod.getLsbD n)
    | .pmovP2v _ => (List.range 8).filter (fun n => f.mod.getLsbD n)
    | .vote _ => [bitsAt f.mod 0 3]
    | _ => []
  guard :: more

/-- The predicates that an instruction writes. -/
def predWrites (i : Instr) (f : Fields) : List Nat :=
  (match i with
  | .iadd _ => if f.fn = 3 && f.mod.getLsbD 7 then [bitsAt f.mod 4 3] else []
  | .isub _ => if f.fn = 3 && f.mod.getLsbD 7 then [bitsAt f.mod 4 3] else []
  | .isetp _ => [bitsAt f.mod 4 3]
  | .fsetp _ => (List.range (fpElems f.fn.toNat)).map (fun k => bitsAt f.mod 4 3 + k)
  | .plop _ => [bitsAt f.mod 14 3]
  | .pmovV2p _ => (List.range 7).filter (fun n => f.mod.getLsbD n)
  | .vote _ => if f.fn = 3 then [] else [bitsAt f.mod 4 3]
  | .shfl _ => if f.mod.getLsbD 11 then [bitsAt f.mod 8 3] else []
  | .match _ => if f.fn = 1 && f.mod.getLsbD 11 then [bitsAt f.mod 8 3] else []
  | _ => []).filter (fun n => n < 7)

/-- Register, buffer and uniform register names as one kind of key: v below 256, b from 256 on, s from 512 on. -/
def opKeys (o : Operand) (n : Nat) : List Nat :=
  match o with
  | .b k => [256 + k.toNat]
  | .s k => (List.range n).map (fun j => 512 + k.toNat + j)
  | o => opRegs o n

/-- What an issued instruction of a clause leaves for the checks of the later ones. -/
structure Done where
  issue : Nat
  /-- Its latency where it is fixed, otherwise 0. -/
  lat   : Nat
  latch : Bool
  isVar : Bool
  reads : List Nat
  writes : List Nat
  preds : List Nat
  deriving DecidableEq, Repr

/-- The statuses that an instruction meets for its place in the clause, the limits and its timing (R61): `left` is
the number of instructions that follow it, and `t` its issue cycle. STALL speaks of v and b operands. A predicate that a
variable-latency MATCH.all writes counts as a result that the clause may not read (02_warp_state.md R43,
05_isa_arithmetic.md R97, DEDUCED, log entry 74). -/
def placeStatuses (win uni left t : Nat) (sys : Bool) (done : List Done) (i : Instr) (f : Fields) (sh : Shape) : List Nat × Done :=
  let when_ (p : Bool) (st : Nat) : List Nat := if p then [st] else []
  let srcs := (srcUses sh f).map (fun u => (u.1, u.2.1))
  let dsts : List (Operand × Nat) := if sh.d.isDst then [(f.d, sh.d.count)] else []
  let ops := srcs ++ dsts
  let regs (n : Nat) (o : Operand) : Nat := match o with
    | .s k => k.toNat + n
    | _ => 0
  let beyondWin := ops.any (fun u => match u.1 with
    | .v k => win < k.toNat + u.2
    | _ => false)
  let claim := match i with
    | .sclaimClaim _ => bitsAt f.mod 0 6 + bitsAt f.mod 6 7
    | .sclaimRel _ => bitsAt f.mod 0 6 + bitsAt f.mod 6 7
    | _ => 0
  let beyondUni := ops.any (fun u => uni < regs u.2 u.1) || uni < claim
  let latches := (done.filter (fun d => d.latch && d.issue + d.lat ≤ t)).length
  let badLatch := srcs.any (fun u => match u.1 with
    | .h k => latches ≤ k.toNat
    | _ => false)
  let reads := srcs.foldr (fun u l => opKeys u.1 u.2 ++ l) []
  let writes := dsts.foldr (fun u l => opKeys u.1 u.2 ++ l) []
  let ps := predReads i f
  let meets (xs ys : List Nat) : Bool := xs.any (fun x => ys.contains x)
  let early := done.any (fun d => d.lat != 0 && t < d.issue + d.lat && (meets (reads.filter (fun k => k < 512)) d.writes || meets ps d.preds))
  let varRead := done.any (fun d => d.isVar && (meets reads d.writes || meets ps d.preds))
  let varHazard := done.any (fun d => d.isVar && meets writes (d.reads ++ d.writes))
  let lat := match sh.cls with
    | .fixed n => n
    | _ => 0
  let sbr := match i with
    | .sbr _ => decide (left < bitsAt f.mod 0 3)
    | _ => false
  (when_ sbr 0x03 ++ when_ beyondWin 0x05 ++ when_ beyondUni 0x06 ++ when_ badLatch 0x07 ++ when_ early 0x08 ++
    when_ varRead 0x09 ++ when_ varHazard 0x0A ++ when_ (f.hint.y && left != 0) 0x0D ++
    when_ (i.endsClause && left != 0) 0x0F ++ when_ (i.privileged && !sys) 0x11,
   { issue := t, lat := lat, latch := lat != 0 && sh.d.isDst, isVar := sh.cls.isVar, reads := reads, writes := writes,
     preds := predWrites i f })

/-- The targets of a branch word at an offset of its granule that must be clause headers there (R61, R48). -/
def branchTargets (i : Instr) (off : Nat) : List Int :=
  match i with
  | .bra w => ((off : Int) + 4 * sx 36 w.target.toNat) :: (if w.x = 0 then [] else [(off : Int) + 4 * sx 32 w.x.toNat])
  | .call w => [(off : Int) + 4 * sx 36 w.target.toNat]
  | .loop w => [(off : Int) + 4 * sx 32 w.imm.toNat]
  | _ => []

def lowest : List Nat → Option Nat
  | [] => none
  | x :: xs => some (xs.foldl min x)

/-- The statuses of a header (R56, R61). -/
def headerStatuses (w : IWord) (off opfs : Nat) : List Nat :=
  let when_ (p : Bool) (st : Nat) : List Nat := if p then [st] else []
  let flag (at_ num : Nat) : List Nat :=
    when_ (!w.getLsbD at_ && bitsAt w num 4 != 0) 0x03 ++ when_ (w.getLsbD at_ && 11 < bitsAt w num 4) 0x0B
  when_ (bitsAt w 0 60 != 0) 0x03 ++ flag 71 67 ++ flag 66 62 ++
    when_ (7 < bitsAt w 84 4 || 65536 < off + 12 * (bitsAt w 84 4 + 2)) 0x0C ++ when_ (w.getLsbD 60 && opfs != 1) 0x0E

/-- The status of a header where an instruction is due: the lowest that it meets (R61). -/
def strayHeader (w : IWord) : Nat := (lowest (headerStatuses w 0 1 ++ [0x0C])).getD 0x0C

/-- The status of an instruction word where a header is due: the lowest that it meets, without the conditions that
a clause gives it (R61). -/
def strayWord (win uni : Nat) (sys : Bool) (w : IWord) : Nat :=
  let placed : List Nat :=
    match (Raw.split w).instr with
    | none => []
    | some i =>
      match i.fields, i.shape with
      | some f, some sh => ((placeStatuses win uni 7 0 sys [] i f sh).1).filter (fun s => s != 0x07)
      | _, _ => []
  (lowest (wordStatuses w ++ placed ++ [0x0C])).getD 0x0C

/-- Scans a clause's instruction words in order: the first rejected one, with its lowest status. -/
def scanWords (win uni : Nat) (sys : Bool) (heads : List Nat) : Nat → Nat → List Done → List IWord → Option (Nat × Nat)
  | _, _, _, [] => none
  | off, t, done, w :: ws =>
    if bitsAt w 88 8 = 0xF8 then some (off, strayHeader w)
    else
      match (Raw.split w).instr with
      | none => some (off, 0x01)
      | some i =>
        match i.fields, i.shape with
        | some f, some sh =>
          let at_ := t + bankCost (bankRegs sh f)
          let (st, d) := placeStatuses win uni ws.length at_ sys done i f sh
          let target := (branchTargets i off).any (fun x => decide (0 ≤ x ∧ x < 65536) && !heads.contains x.toNat)
          match lowest (wordStatuses w ++ st ++ (if target then [0x10] else [])) with
          | some s => some (off, s)
          | none => scanWords win uni sys heads (off + 12) (at_ + 1 + f.hint.stall.toNat) (done ++ [d]) ws
        | _, _ => some (off, 0x01)

/-- The offsets of a granule's clause headers: after one with LEN above 7, or whose clause crosses the granule's end,
no later word is taken as a clause. -/
def headOffsets (rd : Nat → IWord) : Nat → Nat → List Nat
  | 0, _ => []
  | n + 1, off =>
    if 65536 < off + 12 then []
    else
      let w := rd off
      let len := bitsAt w 84 4
      if bitsAt w 88 8 != 0xF8 then []
      else if 7 < len || 65536 < off + 12 * (len + 2) then [off]
      else off :: headOffsets rd n (off + 12 * (len + 2))

/-- The first nonzero byte of a granule from an offset on. -/
def firstNonzero (byte : Nat → Byte) (off : Nat) : Option Nat :=
  ((List.range (65536 - off)).find? (fun k => byte (off + k) != 0)).map (fun k => off + k)

/-- Scans a granule's clauses from an offset on: the first rejected word and its status. A nonzero word where a header is due
counts as a misplaced word at its own address, and zero words before the first nonzero byte as padding
(DESIGN CHOICE, log entry 74). -/
def scanClauses (win uni : Nat) (sys : Bool) (byte : Nat → Byte) (rd : Nat → IWord) (heads : List Nat) :
    Nat → Nat → Option (Nat × Nat)
  | 0, _ => none
  | n + 1, off =>
    if 65536 < off + 12 || bitsAt (rd off) 88 8 != 0xF8 then
      (firstNonzero byte off).map (fun k =>
        if 65536 < off + 12 || rd off = 0 then (k / 4 * 4, 0x0C) else (off, strayWord win uni sys (rd off)))
    else
      let w := rd off
      let len := bitsAt w 84 4
      let fits := len ≤ 7 && off + 12 * (len + 2) ≤ 65536
      let ws := if fits then (List.range (len + 1)).map (fun k => rd (off + 12 * (k + 1))) else []
      let opfs := if fits then (ws.filter (fun x => bitsAt x 88 8 = 0x72)).length else 1
      match lowest (headerStatuses w off opfs) with
      | some s => some (off, s)
      | none =>
        match scanWords win uni sys heads (off + 12) 0 [] ws with
        | some r => some r
        | none => scanClauses win uni sys byte rd heads n (off + 12 * (len + 2))

/-- Scans a granule, given its bytes: the offset of the first rejected word and its status (R60, R61). -/
def scanGranule (win uni : Nat) (sys : Bool) (byte : Nat → Byte) : Option (Nat × Nat) :=
  let rd (off : Nat) : IWord := wordOfBytes ((List.range 12).map (fun k => byte (off + k)))
  scanClauses win uni sys byte rd (headOffsets rd 2731 0) 2731 0

/-- Whether code that lies in whole granules from its start passes the scanner (R60). -/
def scansClean (win uni : Nat) (sys : Bool) (code : List Byte) : Bool :=
  (List.range ((code.length + 65535) / 65536)).all (fun k =>
    (scanGranule win uni sys (fun off => code.getD (65536 * k + off) 0)).isNone)

/-- A physical granule of a partition, scanned. -/
def Mach.scanPA (m : Mach) (part pa win uni : Nat) (sys : Bool) : Option (Nat × Nat) :=
  let p := m.part part
  scanGranule win uni sys (fun off => match p.place (pa + off) with
    | some k => m.mem.get k
    | none => 0)

end Sys2Proof.Machine
end

