-- ==== Sys2Proof/Machine/RunList.lean ====
section
/-!
DEFINITION. The run list, halves and the pre-emption ladder (17_package.md R316 to R320): which context of a
partition runs, the soft request, the forced halt and the switch.
-/
namespace Sys2Proof.Machine
open Sys2Proof

def preemptTimeout : Nat := 0x82

/-! ### Entries (R316) -/

def entCtx (e : DWord) : Nat := bitsAt e 0 8
def entClass (e : DWord) : Nat := bitsAt e 8 2
def entValid (e : DWord) : Bool := e.getLsbD 15
def entSlice (e : DWord) : Nat := bitsAt e 16 16
def entLat (e : DWord) : Nat := bitsAt e 32 16

/-- The entry at which a context runs, and its place in the list: the one that its partition has served last where it names the
context, else the context's first. -/
def Mach.entryOf (m : Mach) (ctx : Nat) : Option (Nat × DWord) :=
  let names (e : DWord) : Bool := entValid e && entCtx e = ctx
  let i := (m.part (m.ctxPart ctx)).turn - 1
  if names (m.runlist.getD i 0) then some (i, m.runlist.getD i 0)
  else
    match indexWhere names m.runlist 0 with
    | some i => some (i, m.runlist.getD i 0)
    | none => none

/-- A ring with a packet to start, or one that runs. -/
def Ring.busy (r : Ring) : Bool := r.packet.isSome || (!r.stopped && !r.dead && r.rc != r.wc)

/-- Whether the running packet of a ring is a launch that has begun and has not ended (R310). -/
def Ring.launching (r : Ring) : Bool :=
  match r.packet with
  | some p => p.begun && !p.ended && p.bytes.getD 0 0 = 1
  | none => false

/-- The unfinished launch of a context; that of a saved context stands in its newest whole image (R321). -/
def Mach.launchFor (m : Mach) (ctx : Nat) : Option (Nat × Launch) :=
  match m.launches.find? (fun e => e.2.ctx = ctx) with
  | some e => some e
  | none =>
    if (m.ctx ctx).ring.launching then
      ((m.images.filter (fun i => i.2.ctx = ctx && i.2.whole)).getLast?).bind (fun i => i.2.launches.find? (fun e => e.2.ctx = ctx))
    else none

/-- The class at which a context runs at an entry: the PCLS of its launch, or the entry's CLASS (R316). -/
def Mach.classAt (m : Mach) (ctx : Nat) (e : DWord) : Nat :=
  match m.launchFor ctx with
  | some (_, la) => la.pcls
  | none => entClass e

/-- The class at which a context runs. -/
def Mach.classOf (m : Mach) (ctx : Nat) : Nat := m.classAt ctx (((m.entryOf ctx).map (·.2)).getD 0)

/-- The running context of a partition. -/
def Mach.runningCtx (m : Mach) (part : Nat) : Option Nat := ((m.ctxsOf part).find? (fun e => e.2.state = 2)).map (·.1)

/-- Whether a context waits for its turn: listed, with a packet to start, and neither running nor being saved. -/
def Mach.ctxReady (m : Mach) (c : Nat × Ctx) : Bool :=
  c.2.ring.busy && c.2.saving.isNone && (m.entryOf c.1).isSome && (c.2.state = 0 || c.2.state = 1 || c.2.state = 3 || c.2.state = 4)

/-- The place of an entry in circular order after the partition's turn. -/
def circular (turn n i : Nat) : Nat := if turn ≤ i then i - turn else i + n - turn

/-- The ready entries of a partition: each one's place, context and class. -/
def Mach.readyEntries (m : Mach) (part : Nat) : List (Nat × Nat × Nat) :=
  (List.range m.runlist.length).filterMap (fun i =>
    let e := m.runlist.getD i 0
    let c := entCtx e
    if entValid e && (m.ctx c).v && (m.ctx c).part = part && m.ctxReady (c, m.ctx c) then some (i, c, m.classAt c e) else none)

/-- The entry that a partition serves next (R316): the highest class, then the next in circular order. -/
def Mach.nextEntry (m : Mach) (part : Nat) : Option (Nat × Nat × Nat) :=
  let rank (i : Nat) : Nat := circular (m.part part).turn m.runlist.length i
  bestOf (fun a b => b.2.2 < a.2.2 || (a.2.2 = b.2.2 && rank a.1 < rank b.1)) (m.readyEntries part)

/-- The context that a partition serves next. -/
def Mach.nextCtx (m : Mach) (part : Nat) : Option Nat := (m.nextEntry part).map (fun e => e.2.1)

/-! ### Halves (R317, R318) -/

def Part.halves (p : Part) : List Nat := if p.split then [0, 1] else [0]

/-- The first half of a partition that no context's image holds. -/
def Mach.freeHalf (m : Mach) (part : Nat) : Option Nat :=
  (m.part part).halves.find? (fun h => !(m.ctxsOf part).any (fun c => c.2.half = some h))

/-- The resident switched-out image of a partition that ran least recently (R318). -/
def Mach.oldestImage (m : Mach) (part : Nat) : Option Nat :=
  (bestOf (fun a b => a.2.ran < b.2.ran) ((m.ctxsOf part).filter (fun c => c.2.state = 3))).map (·.1)

/-! ### Switching blocks out and in -/

/-- The packs of a context's blocks leave the active sets. -/
def Mach.dropActive (m : Mach) (out : Nat → Bool) : Mach :=
  { m with slots := m.slots.mapVal (fun s => { s with active := s.active.filter (fun a => !out a.1.blk) }) }

/-- The blocks of a context on a die stand outside a running context. Their packs keep their active entries and their buffer data
until they resume or are saved (12_core_scheduling.md R258). -/
def Mach.blocksOut (m : Mach) (t ctx die : Nat) : Mach :=
  { m with blocks := m.blocks.mapVal (fun b =>
      if b.ctx = ctx && b.core / 64 = die && !b.past then
        { b with out := true, warps := b.warps.mapVal (fun x => { x.settle t with readyFor := 0 }) }
      else b) }

/-- A warp resumes (12_core_scheduling.md R272): a pre-emption stop ends, unless the block's own halt holds it. -/
def Warp.switchIn (x : Warp) (held : Bool) : Warp :=
  match x.stop with
  | some s => if s.how = 2 && !held then { x with stop := none, skid := 0 } else x
  | none => x

/-- Whether the own halt of a block holds a warp as the block resumes: a failure that has not been broadcast holds it too
(12_core_scheduling.md R271). -/
def Block.holds (b : Block) (w : Nat) : Bool :=
  if b.halted then b.running != some w else b.primary.isSome || !b.failures.isEmpty

/-- The blocks of a context resume on their cores. -/
def Mach.blocksIn (m : Mach) (t ctx : Nat) : Mach :=
  let ids := (m.blocks.filter (fun e => e.2.ctx = ctx && e.2.out)).map (·.1)
  ids.foldl (fun m i => match m.block i with
    | none => m
    | some b =>
      (m.setBlock i { b with out := false, warps := b.warps.map (fun e => (e.1, e.2.switchIn (b.holds e.1))) }).retime (t + 1) i
        (fun _ => true)) m

/-! ### Serving a partition -/

/-- The switch of a context is complete: it keeps its half while a launch of it is unfinished (R318, R319). One that got no half
has no resident image and is ready again (R313). -/
def Mach.switchedOut (m : Mach) (ctx : Nat) : Mach :=
  let c := m.ctx ctx
  if (m.launchFor ctx).isSome && c.half.isSome then m.setCtx ctx { c.setState 3 with preempt := [] }
  else m.setCtx ctx { c.setState 0 with preempt := [], half := none }

/-- The dies that hold blocks of a context. -/
def Mach.diesOf (m : Mach) (ctx : Nat) : List Nat :=
  ((m.blocks.filter (fun e => e.2.ctx = ctx && !e.2.past && !e.2.out)).map (fun e => e.2.core / 64)).eraseDups

/-- The soft request (R319): no further block is placed, and a grace timer of LAT µs starts on each die that holds
blocks of the context. -/
def Mach.softRequest (m : Mach) (t ctx : Nat) : Mach :=
  let c := m.ctx ctx
  if c.state != 2 || !c.preempt.isEmpty then m
  else
    match m.diesOf ctx with
    | [] => m.switchedOut ctx
    | ds =>
      let lat := match m.entryOf ctx with
        | some (_, e) => entLat e
        | none => 1
      m.setCtx ctx { c with preempt := ds.map (fun d => { die := d, step := 1, grace := t + cyclesPerUs * lat, killt := 0 }) }

/-- STATE 0 and 1 follow whether a listed context has a packet to start (R313, R316). -/
def Mach.readyStates (m : Mach) (part : Nat) : Mach :=
  (m.ctxsOf part).foldl (fun m c =>
    let want := if m.ctxReady c then 1 else 0
    if (c.2.state = 0 || c.2.state = 1) && c.2.state != want then m.setCtx c.1 ((m.ctx c.1).setState want) else m) m

/-- The command processor serves a partition: a context with no packet gives way; the next one runs; a running one
takes a free half (R316, R318). -/
def Mach.serve (m : Mach) (t part : Nat) : Mach :=
  let m := match m.runningCtx part with
    | some c => if (m.ctx c).ring.busy then m else m.softRequest t c
    | none => m
  let m := m.readyStates part
  let p := m.part part
  let m := match m.runningCtx part with
    | some _ => m
    | none =>
      if p.clearing || p.zeroing then m
      else
        match m.nextEntry part with
        | none => m
        | some (i, c, _) =>
          let x := m.ctx c
          let x := { x with ran := t, sliceEnd := t + cyclesPerUs * max 1 (entSlice (m.runlist.getD i 0)) }
          let m := if x.state = 4 then m else m.setPart part { p with turn := i + 1 }
          if x.state = 3 then (m.setCtx c (x.setState 2)).blocksIn t c
          else if x.state = 4 then m
          else m.setCtx c (x.setState 2)
  match m.runningCtx part with
  | some c => if (m.ctx c).half.isNone then m.setCtx c { m.ctx c with half := m.freeHalf part } else m
  | none => m

/-! ### The ladder's events -/

/-- SLICE_EXPIRY (R316). -/
def Mach.sliceExpiry (m : Mach) (t ctx : Nat) : Option Mach :=
  let c := m.ctx ctx
  if c.v && c.state = 2 && c.preempt.isEmpty && c.sliceEnd ≤ t then some ((m.softRequest t ctx).serve t c.part) else none

/-- HIGHER_CLASS_READY: an entry of a context is ready with a higher class than that of the running one (R320). -/
def Mach.higherReady (m : Mach) (t ctx : Nat) : Option Mach :=
  let c := m.ctx ctx
  if !c.v || !m.ctxReady (ctx, c) then none
  else
    match m.runningCtx c.part with
    | some r =>
      if (m.ctx r).preempt.isEmpty && (m.readyEntries c.part).any (fun e => e.2.1 = ctx && m.classOf r < e.2.2) then some ((m.softRequest t r).serve t c.part) else none
    | none => none

/-- Whether nothing of an operation is left to do: its flag has completed, its part in its batch too, and every piece of a copy has
landed (11_async_armature.md R252). -/
def Op.over (o : Op) : Bool :=
  o.flagDone && (o.batch = none || o.batchDone) && !o.payload.adds && match o.payload with
  | .copy _ _ _ _ _ _ pieces _ => pieces.isEmpty
  | _ => true

/-- An MMA.g at an open rendezvous, or a matrix instruction that stands at a translation fault: the warp's later matrix instructions
stay behind it (10_matrix.md R224, R226). -/
def Op.holdsMatrix (o : Op) : Bool :=
  match o.payload with
  | .matrix _ _ _ _ _ arrived => !o.flagDone && (o.unresolved || (arrived && o.fault.isNone))
  | _ => false

/-- Where the queue of a warp stands still, in issue order: at an entry that waits at its replay gate, which counts as drained, or
that a protected granule holds back (17_package.md R309, R330). -/
def Mach.queueStands (m : Mach) (blk : Block) (x : Warp) : Option Nat :=
  match x.queueHead with
  | some q => if tracked (m.launchOf blk) 2 q || !(m.protectedLanes blk q).isEmpty then some q.seq else none
  | none => none

/-- An operation that cannot go on while an earlier entry stands in its warp's queue. One whose result is known completes whatever
stands there (05_isa_arithmetic.md R98). -/
def Op.behindQueue (o : Op) : Bool :=
  match o.payload with
  | .result _ => false
  | .sourcesRead _ _ => false
  | .atomicResult done _ _ => !done
  | .readCyc _ => false
  | .after _ => false
  | .copy _ _ _ _ _ data _ _ => data.isNone
  | .bulk _ _ => !o.batchDone
  | .terms .. => false
  | .sys .. => false
  | _ => true

/-- An operation that a halted warp's image may hold unfinished (12_core_scheduling.md R272): one that has faulted, a stopped splat, a
wait on a barrier or a batch, an MMA.g at an open rendezvous, and what stays behind one of these or behind the place where the queue
stands. -/
def Warp.mayWait (x : Warp) (stands : Option Nat) (o : Op) : Bool :=
  o.fault.isSome || o.over || (o.behindQueue && stands.any (fun n => decide (n ≤ o.seq))) ||
  match o.payload with
  | .splat .. => true
  | .barWait .. => true
  | .bwait .. => true
  | .matrix .. => o.holdsMatrix || x.held Op.holdsMatrix o.seq
  | .coll _ _ _ _ inst => inst = 0 && !x.collTurn o.seq && x.held (fun e => e.unresolved) o.seq
  | _ => false

/-- Whether a warp's queue has drained, but for where it stands still (07_core_memory.md R171). -/
def Mach.queueDrained (m : Mach) (blk : Block) (x : Warp) : Bool := x.queue.isEmpty || (m.queueStands blk x).isSome

/-- Whether every halted warp of a context on a die has stopped with its fixed results in, and what R272 lets continue has
completed. -/
def Mach.dieDrained (m : Mach) (t ctx die : Nat) : Bool :=
  m.blocks.all (fun e => e.2.ctx != ctx || e.2.core / 64 != die || e.2.past ||
    e.2.warps.all (fun w => (w.2.stop.isSome || w.2.ended) && w.2.pend.all (fun p => p.at_ ≤ t) && m.queueDrained e.2 w.2 &&
      w.2.ops.all (fun o => w.2.mayWait (m.queueStands e.2 w.2) o.2)))

/-- The forced halt of a context's blocks on a die (R319): SLEEPs complete (11_async_armature.md R252). -/
def Mach.forceHalt (m : Mach) (t ctx die : Nat) : Mach :=
  let halt (x : Warp) : Warp := x.endSleeps.halt t 2
  { m with blocks := m.blocks.mapVal (fun b =>
      if b.ctx = ctx && b.core / 64 = die && !b.past then { b with warps := b.warps.mapVal halt } else b) }

/-- GRACE_EXPIRY: at grace expiry the die's blocks are halted; once they have stopped and drained, the die has
switched, as it has without a halt when all its blocks ended before (R319). -/
def Mach.graceExpiry (m : Mach) (t ctx die : Nat) : Option Mach :=
  let c := m.ctx ctx
  match c.preempt.find? (fun p => p.die = die) with
  | none => none
  | some p =>
    let put (q : Preempt) : Ctx := { c with preempt := c.preempt.map (fun x => if x.die = die then q else x) }
    let ended := m.blocks.all (fun e => e.2.ctx != ctx || e.2.core / 64 != die || e.2.past)
    let done : Mach :=
      let m := (m.setCtx ctx (put { p with step := 3 })).blocksOut t ctx die
      if (m.ctx ctx).preempt.all (fun q => q.step = 3) then (m.switchedOut ctx).serve t c.part else m
    if c.state = 5 then none
    else if p.step = 1 && ended then some done
    else if p.step = 1 && p.grace ≤ t then
      some ((m.setCtx ctx (put { p with step := 2, killt := t + cyclesPerMs * c.killt })).forceHalt t ctx die)
    else if p.step = 2 && m.dieDrained t ctx die then some done
    else none

/-- KILLT_EXPIRY: the halt has not completed in KILLT ms (R319). -/
def Mach.killtExpiry (m : Mach) (t ctx die : Nat) : Option Mach :=
  match (m.ctx ctx).preempt.find? (fun p => p.die = die) with
  | some p =>
    if p.step = 2 && p.killt ≤ t && !m.dieDrained t ctx die && (m.ctx ctx).state != 5 then
      some (m.kill t ctx preemptTimeout 4) else none
  | none => none

/-- SLICE_EXPIRY (R316): A run-list entry's time slice expires and a soft request is issued. -/
def execSliceExpiry (ctx : Nat) (s : State) : Host.Outcome State Fault Refusal :=
  event s ((s.m.sliceExpiry s.now ctx).map (fun m => (s.now, m)))

/-- HIGHER_CLASS_READY (R320): A higher-class entry becomes ready and the running entry gets a soft request. -/
def execHigherClassReady (ctx : Nat) (s : State) : Host.Outcome State Fault Refusal :=
  event s ((s.m.higherReady s.now ctx).map (fun m => (s.now, m)))

/-- GRACE_EXPIRY (R319): The LAT grace timer expires and the die's blocks are forced to halt. -/
def execGraceExpiry (ctx die : Nat) (s : State) : Host.Outcome State Fault Refusal :=
  event s ((s.m.graceExpiry s.now ctx die).map (fun m => (s.now, m)))

/-- KILLT_EXPIRY (R319): KILLT expires before the halt completes and the context is killed with PREEMPT_TIMEOUT. -/
def execKilltExpiry (ctx die : Nat) (s : State) : Host.Outcome State Fault Refusal :=
  event s ((s.m.killtExpiry s.now ctx die).map (fun m => (s.now, m)))

end Sys2Proof.Machine
end

