-- ==== Sys2Proof/Machine/Rings.lean ====
section
/-!
DEFINITION. The host's side: RMA accesses and doorbells (17_package.md R304, R305, R306), command rings, and
completion records (R312, R314).
-/
namespace Sys2Proof.Machine
open Sys2Proof

def queueOverrun : Nat := 0x81
def hostRange : Nat := 0x85
def fwSignature : Nat := 0x86

/-- Rings are numbered by context; the administrative ring is 256. -/
def adminNo : Nat := 256
def Mach.ringOf (m : Mach) (r : Nat) : Ring := if r = adminNo then m.adminRing else (m.ctx r).ring
def Mach.setRing (m : Mach) (r : Nat) (x : Ring) : Mach :=
  if r = adminNo then { m with adminRing := x } else m.setCtx r { m.ctx r with ring := x }

/-! ### Doorbells -/

/-- A write of WC to a ring of 2^CRN slots (R305, R306): an overrun stops the ring with a STATUS 3 record. -/
def Ring.doorbell (r : Ring) (crn : Nat) (wc : DWord) : Ring :=
  if r.stopped || r.dead then r
  else if wc.toNat < r.wc.toNat || 2 ^ crn < (wc - r.rc).toNat then
    ({ r with wc := wc, stopped := true }).addRec
      (.notice (recBody r.rc.toNat 3 queueOverrun 0 0 0 (leBytes wc.toNat 8)))
  else { r with wc := wc }

/-- log2 of a ring's slots. -/
def Mach.ringLog (m : Mach) (r : Nat) : Nat := if r = adminNo then 8 else bitsAt ((m.ctx r).word 5) 0 5

/-- A doorbell write that is not refused. -/
def Mach.ringBell (m : Mach) (t r : Nat) (wc : DWord) : Mach :=
  let m := m.setRing r ((m.ringOf r).doorbell (m.ringLog r) wc)
  if r = adminNo then m else m.serve t (m.ctxPart r)

/-- Whether a partition is set up: it holds channels (R315). -/
def Part.isSet (p : Part) : Bool := !p.cht.isEmpty

/-- The partition whose memory key is given (R304). -/
def Mach.keyPart (m : Mach) (key : Word) : Option Nat := (m.parts.find? (fun e => e.2.isSet && e.2.key = key)).map (·.1)

/-- The first RMA offset of the doorbells (R304). -/
def bellBase : Nat := 2 ^ 60

/-- The ring whose doorbell an access under a key names, and the offset in it. -/
def Mach.bellOf (m : Mach) (key : Word) (off : Nat) : Option (Nat × Nat) :=
  if off / bellBase != 1 then none
  else if key = Config.sysKey then (if off % bellBase < 16 then some (adminNo, off % bellBase) else none)
  else
    match m.keyPart key with
    | none => none
    | some p =>
      let c := off % bellBase / 64
      if c < 256 && (m.ctx c).v && m.ctxPart c = p then some (c, off % bellBase % 64) else none

/-! ### RMA -/

/-- The bytes of an RMA range in a partition's DRAM; none where it leaves it (R304). -/
def Part.rmaKeys (p : Part) (off n : Nat) : Option (List Nat) :=
  if off + n ≤ 2 ^ 31 * p.cht.length then some (p.places off n) else none

/-- The cache tag of lines that the host writes: no context's (DESIGN CHOICE, log entry 77). -/
def hostTag : Nat := 256

/-- Whether the ports and the administrative memory have power: rails STBY and VIO (23_physical.md R394). -/
def Mach.portsUp (m : Mach) : Bool := 2 ≤ m.rails

/-- Whether the home slices of all places have power: every rail, and no stack that is off (23_physical.md R394, R400). -/
def Mach.reachable (m : Mach) (keys : List Nat) : Bool := m.rails = 5 && keys.all (fun k => !(m.die (k / 2 ^ 36)).off)

/-- RMA_WRITE: what it reaches, or nothing where it is refused (R304, R309, DEDUCED, log entry 58). -/
def Mach.rmaWrite (m : Mach) (t : Nat) (key : Word) (off : Nat) (data : List Byte) : Mach :=
  if !m.portsUp then m
  else
  match m.bellOf key off with
  | some (r, k) => if k = 0 && data.length = 8 then m.ringBell t r (BitVec.ofNat 64 (leNat data)) else m
  | none =>
    if key = Config.sysKey then
      if off + data.length ≤ 2 ^ 24 then { m with admin := m.admin.setList off data } else m
    else
      match m.keyPart key with
      | none => m
      | some p =>
        match (m.part p).rmaKeys off data.length with
        | none => m
        | some keys =>
          if !m.reachable keys || keys.any (fun k => m.protectedKey p k || m.boundKey p k) || m.consumesBad keys then m
          else m.write hostTag keys data

/-- RMA_READ: the bytes that it returns; none where it is refused. -/
def Mach.rmaData (m : Mach) (key : Word) (off n : Nat) : Option (List Byte) :=
  if !m.portsUp then none
  else
  match m.bellOf key off with
  | some (r, k) => if k = 8 && n = 8 then some (leBytes (m.ringOf r).rc.toNat 8) else none
  | none =>
    if key = Config.sysKey then (if off + n ≤ 2 ^ 24 then some (m.admin.getList off n) else none)
    else
      match m.keyPart key with
      | none => none
      | some p =>
        match (m.part p).rmaKeys off n with
        | none => none
        | some keys => if !m.reachable keys || m.anyBad keys then none else some (m.bytes keys)

/-- The machine after an RMA read: an uncorrectable granule that it meets is recorded (16_die.md R303). -/
def Mach.rmaRead (m : Mach) (key : Word) (off n : Nat) : Mach :=
  match m.keyPart key with
  | none => m
  | some p => (match (m.part p).rmaKeys off n with
    | some keys => if m.portsUp && m.reachable keys then (m.claim hostTag keys).foundBad keys else m
    | none => m)

/-- DOORBELL_WRITE: an RMA write of WC (R305). -/
def Mach.doorbellWrite (m : Mach) (t : Nat) (key : Word) (off : Nat) (wc : DWord) : Mach :=
  match m.bellOf key off with
  | some (r, 0) => if m.portsUp then m.ringBell t r wc else m
  | _ => m

/-! ### Packets -/

/-- A field of a packet. -/
def fieldAt (bs : List Byte) (off n : Nat) : Nat := leNat ((bs.drop off).take n)

/-- Whether bytes [lo, hi) of a packet are zero. -/
def zeroIn (bs : List Byte) (lo hi : Nat) : Bool := ((bs.drop lo).take (hi - lo)).all (fun b => b = 0)

/-- The running packet of a ring, if its work has not ended. -/
def Mach.packet (m : Mach) (r : Nat) : Option Packet :=
  match (m.ringOf r).packet with
  | some p => if p.ended then none else some p
  | none => none

/-- The running packet of a ring if it has a type. -/
def Mach.packetOf (m : Mach) (r ty : Nat) : Option Packet :=
  match m.packet r with
  | some p => if fieldAt p.bytes 0 1 = ty then some p else none
  | none => none

/-- The running packet's work has ended: its record follows (R312). -/
def Mach.endPacket (m : Mach) (r status cause reason mqst : Nat) (tag : DWord) (tail : List Byte) : Mach :=
  let x := m.ringOf r
  match x.packet with
  | none => m
  | some p =>
    m.setRing r (({ x with packet := some { p with ended := true } }).addRec
      (.ofPacket (recBody p.num status cause reason mqst tag tail)))

/-- A packet is rejected with a reason (R311, R315). -/
def Mach.reject (m : Mach) (r reason : Nat) (tag : DWord) : Mach := m.endPacket r 1 0 reason 0 tag []

/-- Whether a ring may start its next packet (R305, R316): the rings open with boot stage 2, the administrative one
also in recovery (23_physical.md R395, R396). -/
def Mach.mayFetch (m : Mach) (r : Nat) : Bool :=
  let x := m.ringOf r
  x.packet.isNone && !x.stopped && !x.dead && x.rc != x.wc && m.portsUp &&
  (if r = adminNo then m.boot = 2 || m.recovery
   else m.boot = 2 && (m.ctx r).v && (m.ctx r).state = 2 && (m.ctx r).preempt.isEmpty)

/-- The places in DRAM of a context's command-ring slot (R305, R313). -/
def Mach.slotKeys (m : Mach) (c : Nat) (n : Nat) : List Nat :=
  (m.part (m.ctxPart c)).places ((m.ctx c).pair 3 + 256 * (n % 2 ^ m.ringLog c)) 256

/-- PACKET_FETCH: the packet is copied and its slot is free; one of a type that its ring does not accept is rejected (R305, R307).
A slot in a stack that is off is not fetched (DESIGN CHOICE, log entry 84). In recovery the administrative ring serves FW_LOAD and
ATTEST alone (23_physical.md R396). -/
def Mach.packetFetch (m : Mach) (t r : Nat) : Option Mach :=
  let x := m.ringOf r
  let keys := m.slotKeys r x.rc.toNat
  if !m.mayFetch r || (r != adminNo && (m.offIndex keys).isSome) then none
  else
    if r != adminNo && m.anyBad keys then some (m.consume t r keys)
    else
      let bytes := if r = adminNo then m.admin.getList (256 * (x.rc.toNat % 256)) 256 else m.bytes keys
      let m := (if r = adminNo then m else m.claim r keys).setRing r { x with rc := x.rc + 1, packet := some { num := x.rc.toNat, bytes := bytes, begun := false, ended := false } }
      let ty := fieldAt bytes 0 1
      let known := if r = adminNo then 0x40 ≤ ty && ty ≤ 0x49 else 1 ≤ ty && ty ≤ 4
      some (
        if r = adminNo && m.recovery && ty != 0x47 && ty != 0x48 then m.endPacket r 1 fwSignature 10 0 0 []
        else if known then m
        else m.reject r 1 0)

/-! ### Records -/

/-- The host offset of a context's record SEQ (R312). -/
def Ctx.recordAt (c : Ctx) (seq : Nat) : Nat := c.pair 6 + 64 * ((seq - 1) % 2 ^ bitsAt (c.word 5) 8 5)

/-- The record at the head of a ring has been written: the next packet may start (R305). -/
def Mach.recordDone (m : Mach) (t r : Nat) : Mach :=
  let x := m.ringOf r
  match x.recs with
  | [] => m
  | e :: rest =>
    let x := { x with seq := x.seq + 1, recs := rest, packet := (if e.own then none else x.packet) }
    let m := m.setRing r x
    if r = adminNo then m else m.serve t (m.ctxPart r)

/-- The head record's stage. -/
def Ring.setStage (r : Ring) (k : Nat) : Ring :=
  match r.recs with
  | [] => r
  | e :: rest => { r with recs := { e with stage := k } :: rest }

/-- The host's endpoint and memory key of a context record (R304, R313). -/
def Ctx.hostEnd (c : Ctx) : HostEnd := { hep := BitVec.ofNat 64 (c.pair 13), hkey := c.word 12 }

/-- Issues an RMA transfer of a context to its host: it is addressed to HEP under HKEY (R304). -/
def Mach.sendRma (m : Mach) (ctx : Nat) (x : HostRma) : Mach :=
  { m with rma := m.rma.put m.rmaSent ((m.ctx ctx).hostEnd, x), rmaSent := m.rmaSent + 1 }

/-- COMPLETION_RECORD: the ring's oldest record is written, its body first and SEQ after it (R312, R314). A record
beyond HLEN is not sent (DESIGN CHOICE, log entry 59). -/
def Mach.completionRecord (m : Mach) (t r : Nat) : Option Mach :=
  let x := m.ringOf r
  match x.recs with
  | [] => none
  | e :: _ =>
    let seq := x.seq.toNat + 1
    if r = adminNo then
      let at_ := 0x10000 + 64 * ((seq - 1) % 1024)
      if e.stage = 0 then some ({ m with admin := m.admin.setList (at_ + 8) e.body }.setRing r (x.setStage 1))
      else some ({ m with admin := m.admin.setList at_ (leBytes seq 8) }.recordDone t r)
    else if e.stage != 0 then none
    else
      let c := m.ctx r
      let at_ := c.recordAt seq
      if c.pair 8 < at_ + 64 then some (m.recordDone t r)
      else some ((m.setRing r (x.setStage 1)).sendRma r (.record r (at_ + 8) e.body))

/-- RMA_WRITE (R304): A host RMA write under a memory key reaches partition or administrative memory, or is refused. -/
def execRmaWrite (key : Word) (off : Nat) (data : List Byte) (s : State) : Host.Outcome State Fault Refusal :=
  eventW s (some (s.now, s.m.rmaWrite s.now key off data))

/-- RMA_READ (R304): A host RMA read under a memory key returns data or is refused. -/
def execRmaRead (key : Word) (off len : Nat) (s : State) : Host.Outcome State Fault Refusal :=
  event s (some (s.now, s.m.rmaRead key off len))

/-- UE_ATOMIC (R304): A UE atomic operation is refused with the transport's error. -/
def execUeAtomic (_key : Word) (_off : Nat) (s : State) : Host.Outcome State Fault Refusal := event s (some (s.now, s.m))

/-- DOORBELL_WRITE (R305): The host writes a ring's write count WC. -/
def execDoorbellWrite (key : Word) (off : Nat) (wc : DWord) (s : State) : Host.Outcome State Fault Refusal :=
  event s (some (s.now, s.m.doorbellWrite s.now key off wc))

/-- PACKET_FETCH (R305): The command processor reads the next packet once WC shows it and the previous packet completed. -/
def execPacketFetch (ring : Nat) (s : State) : Host.Outcome State Fault Refusal :=
  event s ((s.m.packetFetch s.now ring).map (fun m => (s.now, m)))

/-- COMPLETION_RECORD (R312): A packet's completion record is written to the host ring. -/
def execCompletionRecord (ring : Nat) (s : State) : Host.Outcome State Fault Refusal :=
  event s ((s.m.completionRecord s.now ring).map (fun m => (s.now, m)))

end Sys2Proof.Machine
end

