-- ==== Sys2Proof/Machine/Shake.lean ====
section
/-!
DEFINITION. SHAKE256 with 256 bits of output, over bytes (03_encoding.md R68, 04_numbers.md R91). The spec names the
function; its rounds are those of FIPS 202 (PRESUMED, log entry 1).
-/
namespace Sys2Proof.Shake
open Sys2Proof

/-- The 25 lanes of the sponge: lane (x, y) at x + 5y. -/
abbrev Sponge := List (BitVec 64)

def lane (s : Sponge) (x y : Nat) : BitVec 64 := s.getD (x % 5 + 5 * (y % 5)) 0

/-- The rotation of lane x + 5y. -/
def offsets : List Nat :=
  [0, 1, 62, 28, 27] ++ [36, 44, 6, 55, 20] ++ [3, 10, 43, 25, 39] ++ [41, 45, 15, 21, 8] ++ [18, 2, 61, 56, 14]

/-- The constants of the 24 rounds. -/
def rounds : List (BitVec 64) :=
  [0x0000000000000001, 0x0000000000008082, 0x800000000000808A, 0x8000000080008000] ++
  [0x000000000000808B, 0x0000000080000001, 0x8000000080008081, 0x8000000000008009] ++
  [0x000000000000008A, 0x0000000000000088, 0x0000000080008009, 0x000000008000000A] ++
  [0x000000008000808B, 0x800000000000008B, 0x8000000000008089, 0x8000000000008003] ++
  [0x8000000000008002, 0x8000000000000080, 0x000000000000800A, 0x800000008000000A] ++
  [0x8000000080008081, 0x8000000000008080, 0x0000000080000001, 0x8000000080008008]

def ofLanes (f : Nat → Nat → BitVec 64) : Sponge := (List.range 25).map (fun i => f (i % 5) (i / 5))

def theta (s : Sponge) : Sponge :=
  let c := (List.range 5).map (fun x => lane s x 0 ^^^ lane s x 1 ^^^ lane s x 2 ^^^ lane s x 3 ^^^ lane s x 4)
  let d := (List.range 5).map (fun x => c.getD ((x + 4) % 5) 0 ^^^ (c.getD ((x + 1) % 5) 0).rotateLeft 1)
  ofLanes (fun x y => lane s x y ^^^ d.getD x 0)

/-- The rotations, and then the move of lane (x, y) to (y, 2x + 3y). -/
def rhoPi (s : Sponge) : Sponge :=
  let r := (List.range 25).map (fun i => (s.getD i 0).rotateLeft (offsets.getD i 0))
  ofLanes (fun x y => lane r ((x + 3 * y) % 5) x)

def chi (s : Sponge) : Sponge := ofLanes (fun x y => lane s x y ^^^ (~~~(lane s (x + 1) y) &&& lane s (x + 2) y))

def round (s : Sponge) (rc : BitVec 64) : Sponge := (chi (rhoPi (theta s))).modifyHead (fun a => a ^^^ rc)

def permute (s : Sponge) : Sponge := rounds.foldl round s

/-- Adds a block of at most 136 bytes to the sponge. -/
def mix (s : Sponge) (block : List Byte) : Sponge :=
  (List.range 25).map (fun i => s.getD i 0 ^^^ BitVec.ofNat 64 (leNat ((block.drop (8 * i)).take 8)))

/-- The last block, padded: 0x1F after the message and 0x80 in the last byte. -/
def lastBlock (bs : List Byte) : List Byte :=
  let z : List Byte := bs ++ (0x1F#8 :: List.replicate (135 - bs.length) 0#8)
  z.set 135 (z.getD 135 0 ||| 0x80#8)

def absorb : Nat → Sponge → List Byte → Sponge
  | 0, s, _ => s
  | n + 1, s, bs =>
    if bs.length < 136 then permute (mix s (lastBlock bs)) else absorb n (permute (mix s (bs.take 136))) (bs.drop 136)

/-- The first 32 bytes of SHAKE256 of a message. -/
def digest (bs : List Byte) : List Byte :=
  let s := absorb (bs.length / 136 + 1) (List.replicate 25 0#64) bs
  (List.range 4).foldr (fun i l => leBytes (s.getD i 0).toNat 8 ++ l) []

end Sys2Proof.Shake
end

