-- ==== Sys2Proof/Machine/Launch.lean ====
section
/-!
DEFINITION. The packets of a command ring: launches (17_package.md R310, R311, R312), placement
(12_core_scheduling.md R255 to R257), code maps (R308) and TLB invalidation (R326).
-/
namespace Sys2Proof.Machine
open Sys2Proof

/-! ### Quotas and placement -/

/-- The divided quotas of a partition on a core: positions, register rows, scratchpad rows, tiles, slots (R257, R317). -/
def Mach.quotas (m : Mach) (part core : Nat) : List Nat :=
  let q (k : Nat) : Word := m.quotaWord part core k
  let r := bitsAt (q 1) 16 15
  let l := bitsAt (q 2) 0 15
  let s := bitsAt (q 2) 16 15
  [bitsAt (q 0) 4 5, r - l - s, s, bitsAt (q 3) 10 11, bitsAt (q 4) 13 14]

/-- A half's share of a range (R317). -/
def halfOf (split : Bool) (h x : Nat) : Nat := if !split then x else if h = 0 then (x + 1) / 2 else x / 2

/-- The number of packs of a block on an issue slot (12_core_scheduling.md R256). -/
def packsOn (warps width slot : Nat) : Nat :=
  ((List.range ((warps + 64 / width - 1) / (64 / width))).filter (fun k => k % 4 = slot)).length

/-- What a block of a launch takes of each quota: positions on the four issue slots, register rows, scratchpad rows,
tiles and slots (07_core_memory.md R146). -/
def Launch.needs (la : Launch) : List Nat :=
  (List.range 4).map (packsOn la.warps la.width) ++ [ceilDiv (la.warps * la.width) 64 * la.win, la.scr / 256, la.acc, la.bst]

/-- What a half of a core holds, in the same order. -/
def Mach.capacity (m : Mach) (part core h : Nat) : List Nat :=
  let q := (m.quotas part core).map (halfOf (m.part part).split h)
  let w := q.getD 0 0
  [w, w, w, w] ++ q.drop 1

/-- The blocks of a partition that hold resources of a half of a core. -/
def Mach.holders (m : Mach) (part core h : Nat) : Tbl Block :=
  m.blocks.filter (fun e => e.2.part = part && e.2.core = core && e.2.half = h && !e.2.past)

def addLists (a b : List Nat) : List Nat := (a.zip b).map (fun e => e.1 + e.2)

/-- What the blocks of a half of a core hold. -/
def Mach.held (m : Mach) (part core h : Nat) : List Nat :=
  (m.holders part core h).foldl (fun a e => addLists a (m.launchOf e.2).needs) [0, 0, 0, 0, 0, 0, 0, 0]

def fits (used need cap : List Nat) : Bool := ((addLists used need).zip cap).all (fun e => e.1 ≤ e.2)

/-- Whether a partition's quotas let a cluster's L1 be fused (15_cluster.md R279). -/
def Mach.fusable (m : Mach) (part core : Nat) : Bool :=
  let cs := (List.range 4).map (fun k => core / 4 * 4 + k)
  cs.all (fun c => bitsAt (m.quotaWord part c 1) 16 15 != 0 &&
    bitsAt (m.quotaWord part c 2) 0 15 = bitsAt (m.quotaWord part core 2) 0 15)

/-- Whether a partition has a resident block in a core's cluster. -/
def Mach.inCluster (m : Mach) (part core : Nat) : Bool :=
  m.blocks.any (fun e => e.2.part = part && e.2.core / 4 = core / 4 && !e.2.past)

/-- Whether a cluster takes a block of a launch, by its mode (R279, DEDUCED, log entry 63). -/
def Mach.fuseOk (m : Mach) (la : Launch) (core : Nat) : Bool :=
  !m.inCluster la.part core || (m.fused la.part core = (la.fuse && m.fusable la.part core))

/-- Whether a core has room for a block of a launch in a half. -/
def Mach.roomOn (m : Mach) (la : Launch) (h core : Nat) : Bool :=
  !(m.die (core / 64)).off && m.fuseOk la core && fits (m.held la.part core h) la.needs (m.capacity la.part core h)

/-- Cores in the order of the search: after the core of the previous block, wrapping around (R255). -/
def searchOrder (cores : List Nat) (last : Option Nat) : List Nat :=
  match last with
  | none => cores
  | some c => cores.filter (fun k => c < k) ++ cores.filter (fun k => k ≤ c)

/-- The core that a maquette log records for a block (R328, R331). -/
def Mach.placedCore (m : Mach) (la : Launch) (b : Nat) : Option Nat :=
  match m.readVirt la.ctx (la.mqlog + 0x40 + 2 * b) 2 with
  | .ok bs => some (leNat bs)
  | .error _ => none

/-- The places of that record. -/
def Mach.placedKeys (m : Mach) (la : Launch) : List Nat :=
  if la.mqm = 2 then ((m.engineKeys la.ctx .read (la.mqlog + 0x40 + 2 * la.nextB) 2).toOption).getD [] else []

/-- The core that receives the next block of a launch (R255, R331). -/
def Mach.pickCore (m : Mach) (la : Launch) (h : Nat) : Option Nat :=
  if la.mqm = 2 then
    match m.placedCore la la.nextB with
    | some c => if (m.part la.part).cores.contains c && m.roomOn la h c then some c else none
    | none => none
  else (searchOrder (m.part la.part).cores la.lastCore).find? (m.roomOn la h)

/-- The positions that the blocks on a core hold on an issue slot. -/
def Mach.usedPos (m : Mach) (core slot : Nat) : List Nat :=
  (m.blocks.filter (fun e => e.2.core = core && !e.2.past)).foldr (fun e l =>
    ((List.range e.2.packs).filter (fun k => k % 4 = slot)).map (fun k => e.2.pos.getD k 0) ++ l) []

/-- The lowest free positions of a half for the packs of a block: the part of R317 that each half holds. -/
def Mach.positions (m : Mach) (la : Launch) (h core : Nat) : List Nat :=
  let q := m.quotaWord la.part core 0
  let n := bitsAt q 4 5
  let split := (m.part la.part).split
  let base := bitsAt q 0 4 + (if split && h = 1 then (n + 1) / 2 else 0)
  let all := (List.range (halfOf split h n)).map (fun i => base + i)
  let free (slot : Nat) : List Nat := all.filter (fun p => !(m.usedPos core slot).contains p)
  (List.range ((la.warps + 64 / la.width - 1) / (64 / la.width))).map (fun k => (free (k % 4)).getD (k / 4) 0)

/-- A warp at launch (02_warp_state.md R16, R17). -/
def Warp.launch (t width entry : Nat) : Warp :=
  { v := [], buf := [], map := [], deadV := 0, deadB := 0, h0 := none, h1 := none, preds := [],
    s0 := { pc := BitVec.ofNat 57 entry, mask := widthMask width }, s1 := .empty, turn := 0, nextFirst := false, stack := [], spilled := [],
    counts := [], bits := 0, batches := [], flags := 0, pix := 0, wprio := 8, shash := 0, exm := 0, gang := 0,
    wake := false, shadow := none, clause := none, free := t, issuedTo := 0, pend := [], fresh := [], seq := 0, queue := [], ops := [], nextOp := 0,
    folds := [], matQ := [], fieldQ := [], matFault := none, sleeping := [], noFlag := none, prioAt := none,
    ended := false, freed := false, stop := none, skid := 0, yp := false, yield_ := none, readyFor := 0, urgent := false,
    gangs := [] }

/-- Block b of a launch as it is placed (R255; 07_core_memory.md R147, 10_matrix.md R201, 11_async_armature.md R243). -/
def Launch.block (la : Launch) (id t h core age : Nat) (pos : List Nat) : Block :=
  let b := la.nextB
  { launch := id, ctx := la.ctx, part := la.part, core := core, half := h, b := b, x := b % la.nx, y := b / la.nx % la.ny,
    z := b / la.nx / la.ny, age := age, width := la.width, warpCount := la.warps, win := la.win, uni := la.uni, acc := la.acc,
    bst := la.bst, scr := la.scr, prod := la.prod,
    warps := (List.range la.warps).map (fun w => (w, Warp.launch t la.width la.entry)),
    scratch := [], fslots := [], tiles := [], tags := [], bstage := [], hist := [], drains := [], broken := [],
    arm := .init, armPend := [], halted := false, out := false, past := false, pos := pos, primary := .none, primaryCause := 0, late := [],
    recorded := false, routed := false, noticed := false, handler := .none,
    await := [], uncovered := [], noticeDue := .none }

/-- The first placement of a partition on a cluster fixes the mode of its L1; a change invalidates its lines (R279). -/
def Mach.setFusion (m : Mach) (la : Launch) (core : Nat) : Mach :=
  if m.inCluster la.part core then m
  else
    let want := la.fuse && m.fusable la.part core
    if m.fused la.part core = want then m
    else
      let k := core / 4
      let c := m.cluster k
      let bit : BitVec 16 := 1#16 <<< la.part
      let m := m.setCluster k { c with fusep := (c.fusep &&& ~~~bit) ||| (if want then bit else 0) }
      { m with l1 := m.l1.filter (fun e => !(e.core / 4 = k && m.ctxPart e.ctx = la.part)) }

/-- BLOCK_PLACE: the next block of a launch that runs goes to a core with room (R255, R319). -/
def Mach.blockPlace (m : Mach) (t id : Nat) : Option Mach :=
  match m.launches.find id with
  | none => none
  | some la =>
    let c := m.ctx la.ctx
    if la.blocks ≤ la.nextB || c.state != 2 || !c.preempt.isEmpty then none
    else
      match c.half with
      | none => none
      | some h =>
        if m.anyBad (m.placedKeys la) then some (m.consume t la.ctx (m.placedKeys la))
        else
        match m.pickCore la h with
        | none => none
        | some core =>
          let m := m.claim la.ctx (m.placedKeys la)
          let blk := la.block id t h core m.ages (m.positions la h core)
          let m := m.setFusion la core
          let m := if la.mqm = 1 then m.mqWrite t la (la.mqlog + 0x40 + 2 * la.nextB) (leBytes core 2) else m
          some { m with
            blocks := m.blocks.put m.nextId blk, nextId := m.nextId + 1, ages := m.ages + 1,
            launches := m.launches.upd id (fun l => { l with nextB := l.nextB + 1, lastCore := some core }) }

/-! ### Launch packets -/

/-- A launch as its packet gives it (R310). -/
def launchOfPacket (ctx num : Nat) (b : List Byte) : Launch :=
  let f := fieldAt b
  { Launch.none with
    ctx := ctx, part := f 3 1, pkt := num, fuse := (b.getD 1 0).getLsbD 0, mqm := f 2 1, width := f 4 1, warps := f 5 1,
    win := f 6 2, uni := f 8 1, prod := f 9 1, acc := f 0xA 2, bst := f 0xC 2, pcls := f 0xE 1, scr := f 0x10 4,
    nx := f 0x14 4, ny := f 0x18 4, nz := f 0x1C 4, code := f 0x20 8, mode := BitVec.ofNat 32 (f 0x28 4), spd := f 0x44 4,
    spb := f 0x48 8, hndl := f 0x50 8, mqlog := f 0x58 8, mqlen := f 0x60 8, patr := f 0x68 8,
    nf := (List.range 8).map (fun k => BitVec.ofNat 32 (f (0x70 + 4 * k) 4)), tag := BitVec.ofNat 64 (f 0x90 8) }

/-- The header fields of a code object (03_encoding.md R67). -/
structure CodeHeader where
  magic : Nat
  ver   : Nat
  csz   : Nat
  dsz   : Nat
  entry : Nat
  width : Nat
  warps : Nat
  win   : Nat
  uni   : Nat
  prod  : Nat
  acc   : Nat
  bst   : Nat
  scr   : Nat
  dig   : List Byte
  deriving DecidableEq, Repr

def codeHeader (b : List Byte) : CodeHeader :=
  let f := fieldAt b
  { magic := f 0 4, ver := f 4 2, csz := f 8 4, dsz := f 0xC 4, entry := f 0x10 4, width := f 0x14 1, warps := f 0x15 1,
    win := f 0x16 2, uni := f 0x18 1, prod := f 0x19 1, acc := f 0x1A 2, bst := f 0x1C 2, scr := f 0x20 4,
    dig := (b.drop 0x40).take 32 }

/-- The bytes of the object, from its header to the end of its data section (R67, R68). -/
def CodeHeader.length (h : CodeHeader) : Nat := 0x10000 + 0x10000 * ceilDiv h.csz 0x10000 + h.dsz

/-- The object's digest, DIG taken as zero (R68). -/
def objectDigest (obj : List Byte) : List Byte := Shake.digest (obj.take 0x40 ++ leBytes 0 32 ++ obj.drop 0x60)

/-- What the command processor reads for a launch (R310, R311). -/
structure LaunchReads where
  hdr   : CodeHeader
  obj   : List Byte
  param : List Byte
  desc  : List Byte
  deriving DecidableEq, Repr

/-- The reads of CODE, PARAM and DESC, and every byte's place; or the cause and address of a translation fault. -/
def Mach.launchReads (m : Mach) (la : Launch) (b : List Byte) : Except (Nat × Nat) (LaunchReads × List Nat) :=
  let rd (va n : Nat) : Except (Nat × Nat) (List Nat) := if n = 0 then .ok [] else m.engineKeys la.ctx .read va n
  let desc := fieldAt b 0x38 8
  match rd la.code 256 with
  | .error e => .error e
  | .ok hk =>
    let h := codeHeader (m.bytes hk)
    match rd la.code h.length, rd (fieldAt b 0x30 8) (fieldAt b 0x2C 4), rd desc (if desc = 0 then 0 else fieldAt b 0x40 4) with
    | .ok ok, .ok pk, .ok dk =>
      .ok ({ hdr := h, obj := m.bytes ok, param := m.bytes pk, desc := m.bytes dk }, ok ++ pk ++ dk)
    | .error e, _, _ => .error e
    | _, .error e, _ => .error e
    | _, _, .error e => .error e

/-- R63, and the execute table's entries of every code granule (R308). -/
def Mach.codeOk (m : Mach) (la : Launch) (h : CodeHeader) : Bool :=
  la.width = h.width && la.warps = h.warps && la.prod = h.prod && h.win ≤ la.win && h.uni ≤ la.uni && h.acc ≤ la.acc &&
  h.bst ≤ la.bst && h.scr ≤ la.scr &&
  (List.range (ceilDiv h.csz 0x10000)).all (fun k =>
    match m.translateEngine la.ctx (0x10000 * (k + 1) + la.code) .read with
    | .ok pa => (m.part la.part).exec.find (pa / 2 ^ 16) = some { win := h.win, uni := h.uni, width := h.width }
    | .error _ => false)

/-- Reason 6 (R311, DEDUCED, log entry 64). -/
def Launch.rangesOk (la : Launch) (psize : Nat) : Bool :=
  la.nx != 0 && la.ny != 0 && la.nz != 0 && psize ≤ 65536 && 1 ≤ la.warps && la.warps ≤ 64 && la.acc ≤ 1024 && la.bst ≤ 6144 &&
  la.scr % 256 = 0 && (la.prod < la.warps || la.prod = 0xFF) && 1 ≤ la.win && la.win ≤ 256 && la.uni ≤ 64 &&
  [8, 16, 32, 64].contains la.width

/-- Whether a block fits some core's half of the quota when the half is empty: reason 7 (R255, R317). -/
def Mach.fitsSome (m : Mach) (la : Launch) : Bool :=
  let p := m.part la.part
  p.cores.any (fun c => p.halves.any (fun h => fits [0, 0, 0, 0, 0, 0, 0, 0] la.needs (m.capacity la.part c h)))

/-- The places of the part of a replay's log that its acceptance reads. -/
def Mach.logKeys (m : Mach) (la : Launch) : List Nat :=
  if la.mqm = 2 then ((m.engineKeys la.ctx .read la.mqlog (0x40 + 2 * la.blocks)).toOption).getD [] else []

/-- Whether a replay accepts the log that stands at MQLOG (R328, R331). -/
def Mach.logOk (m : Mach) (la : Launch) : Bool :=
  let n := (m.part la.part).cht.length
  match m.readVirt la.ctx la.mqlog (0x40 + 2 * la.blocks) with
  | .error _ => false
  | .ok bs =>
    fieldAt bs 0 4 = 0x4F424D51 && fieldAt bs 4 2 = n && fieldAt bs 6 2 = 1 && fieldAt bs 8 4 = la.blocks &&
    fieldAt bs 0xC 4 = mqSeg la n &&
    (List.range la.blocks).all (fun b =>
      let c := fieldAt bs (0x40 + 2 * b) 2
      (m.part la.part).cores.contains c && (m.part la.part).halves.any (fun h =>
        fits [0, 0, 0, 0, 0, 0, 0, 0] la.needs (m.capacity la.part c h)))

/-- Reason 8 (R311). -/
def Mach.maquetteOk (m : Mach) (la : Launch) : Bool :=
  la.mqm = 0 || (la.mqlog != 0 && la.mqlog % 64 = 0 && 0x40 + 2 * la.blocks ≤ la.mqlen && (la.mqm = 1 || m.logOk la))

/-- The first reason of R311 that applies, in its order; 0 when none does. The digest is checked at every launch (DESIGN CHOICE, log
entry 87). -/
def Mach.launchReason (m : Mach) (la : Launch) (b : List Byte) (r : Option (LaunchReads × List Nat)) : Nat :=
  let cls := match m.entryOf la.ctx with
    | some (_, e) => entClass e
    | none => 0
  if 2 ≤ fieldAt b 1 1 || 3 ≤ la.mqm || !zeroIn b 0xF 0x10 || !zeroIn b 0x98 0x100 then 1
  else if la.part != m.ctxPart la.ctx || cls < la.pcls then 2
  else
    match r with
    | none => 9
    | some (r, _) =>
      if r.hdr.magic != 0x4F42434F || r.hdr.ver != 1 || la.code % 2 ^ 16 != 0 || objectDigest r.obj != r.hdr.dig then 3
      else if !m.codeOk la r.hdr then 4
      else if !modeOk la.mode || !la.nf.all Num.nfOk then 5
      else if !la.rangesOk (fieldAt b 0x2C 4) then 6
      else if !m.fitsSome la then 7
      else if !m.maquetteOk la then 8
      else 0

/-- The 172-byte message of the signature (04_numbers.md R91). -/
def signatureMessage (caps : Caps) (la : Launch) (r : LaunchReads) : List Byte :=
  leBytes 0x4F425347 4 ++ leBytes la.mode.toNat 4 ++ leBytes caps.prev.toNat 1 ++ leBytes la.mqm 1 ++
  leBytes (if la.hndl = 0 then 0 else 1) 1 ++ leBytes 0 1 ++ r.hdr.dig ++ leBytes la.nx 4 ++ leBytes la.ny 4 ++ leBytes la.nz 4 ++
  leBytes la.width 1 ++ leBytes la.warps 1 ++ leBytes la.win 2 ++ leBytes la.uni 1 ++ leBytes la.prod 1 ++ leBytes la.acc 2 ++
  leBytes la.bst 2 ++ leBytes 0 2 ++ leBytes la.scr 4 ++ la.nf.foldr (fun x l => leBytes x.toNat 4 ++ l) [] ++
  Shake.digest r.param ++ Shake.digest r.desc ++ leBytes la.spd 4

/-- The bytes of a launch's signature, SIG.0 first (04_numbers.md R92). -/
def Launch.sigBytes (la : Launch) : List Byte := la.sig.foldr (fun x l => leBytes x.toNat 4 ++ l) []

/-- Words from little-endian bytes. -/
def wordsOf (bs : List Byte) (n : Nat) : List Word := (List.range n).map (fun k => BitVec.ofNat 32 (fieldAt bs (4 * k) 4))

/-- LAUNCH_PACKET: the launch is checked; it begins or is rejected (R311). Uncorrectable data that a read finds is consumed
(16_die.md R300). -/
def Mach.launchPacket (m : Mach) (caps : Caps) (t ctx : Nat) : Option Mach :=
  match m.packetOf ctx 1 with
  | none => none
  | some p =>
    if p.begun || ctx = adminNo then none
    else
      let la := launchOfPacket ctx p.num p.bytes
      let r := m.launchReads la p.bytes
      let reason := m.launchReason la p.bytes r.toOption
      let keys : List Nat := match r with
        | .ok (_, ks) => if reason = 0 || reason = 8 then ks ++ m.logKeys la else ks
        | .error _ => []
      let walk : Option Nat := match r with
        | .error (c, va) => if c = mcWalk then some va else none
        | .ok _ => none
      if reason != 1 && reason != 2 && walk.isSome then some (m.consumeWalk t ctx (walk.getD 0))
      else if reason != 1 && reason != 2 && m.anyBad keys then some (m.consume t ctx keys)
      else
        match reason, r with
        | 0, .ok (r, _) =>
          let sig := wordsOf (Shake.digest (signatureMessage caps la r)) 8
          let la := { la with
            param := r.param, codeLen := r.hdr.length, entry := 0x10000 + la.code + r.hdr.entry, sig := sig }
          let x := m.ringOf ctx
          let m := (m.claim ctx keys).setRing ctx { x with packet := some { p with begun := true } }
          let m := { m with launches := m.launches.put m.nextId la, nextId := m.nextId + 1 }
          some (if la.mqm = 1 then m.mqBegin t la else m)
        | k, _ => some (m.reject ctx k la.tag)

/-- Whether an operation has nothing left to do for its launch's completion (R312). -/
def Op.past (o : Op) : Bool := o.fault.isSome || o.over

/-- The places that a replay reads at its completion. -/
def Mach.gatesKeys (m : Mach) (la : Launch) : List Nat :=
  if la.mqm = 2 then (List.range (m.part la.part).cht.length).foldr (fun j l => m.gateKeys la j ++ l) [] else []

/-- LAUNCH_COMPLETE: every block has ended and every operation of the launch has completed (R312). -/
def Mach.launchComplete (m : Mach) (t id : Nat) : Option Mach :=
  match m.launches.find id with
  | none => none
  | some la =>
    let mine := m.blocks.filter (fun e => e.2.launch = id)
    if la.nextB < la.blocks || (m.ctx la.ctx).state = 5 || !mine.all (fun e => e.2.past && e.2.warps.all (fun w =>
          w.2.ops.all (fun o => o.2.past)))
        || m.bulks.any (fun x => x.2.ctx = la.ctx && mine.any (fun e => e.1 = x.2.blk)) then none
    else if m.anyBad (m.gatesKeys la) then some (m.consume t la.ctx (m.gatesKeys la))
    else
      let m := (m.claim la.ctx (m.gatesKeys la)).mqEnd t id la
      let st := ((m.launches.find id).map (·.mqst)).getD 0
      let m := m.dropActive (fun i => mine.any (fun e => e.1 = i))
      let m := { m with launches := m.launches.del id, blocks := m.blocks.filter (fun e => e.2.launch != id) }
      some (m.endPacket la.ctx 0 0 0 st.toNat la.tag la.sigBytes)

/-- Whether nothing of a warp is left: its slot is freed, it has no stop or fault to come to, and its operations are over, or
have faulted and been reported (06_isa_control.md R138). -/
def Warp.gone (x : Warp) : Bool :=
  x.ended && x.freed && x.stop.isNone && x.shadow.isNone && x.noFlag.isNone && x.bits = 0 &&
    x.ops.all (fun e => (e.2.fault.isSome && e.2.reported) || e.2.over)

/-- The block ends once nothing of its warps is left, and its resources are free (12_core_scheduling.md R255). An operation whose
flag has fallen may still fault, and the block then halts (R138), so the block ends after it (DESIGN CHOICE, log entry 55). -/
def Mach.blockEnds (m : Mach) (b : Nat) : Mach :=
  match m.block b with
  | none => m
  | some blk =>
    if blk.warps.all (fun e => e.2.gone) then (m.setBlock b { blk with past := true }).dropActive (fun i => i = b) else m

/-- Whether a block whose warp's slot is freed may end now. -/
def Mach.mayEnd (m : Mach) (b w : Nat) : Bool :=
  match m.warp b w with
  | none => false
  | some (blk, x) => x.freed && !blk.past && blk.warps.all (fun e => e.2.gone)

/-- WARP_SLOT_FREE: an ended warp gives up its slot, and with the last one the block ends; a warp whose slot is freed already ends
the block once its last operation is over. -/
def Mach.slotFreed (m : Mach) (t b w : Nat) : Option Mach :=
  match m.warpSlotFree t b w with
  | some m => some (m.blockEnds b)
  | none => if m.mayEnd b w then some (m.blockEnds b) else none

/-! ### Code maps -/

/-- The 64 KiB granules of a packet's range (R308). -/
def granules (va n : Nat) : List Nat := (List.range (n / 2 ^ 16)).map (fun k => 2 ^ 16 * k + va)

/-- Whether a packet's range is one that R308 permits. -/
def codeRangeOk (b : List Byte) : Bool :=
  let va := fieldAt b 8 8
  let n := fieldAt b 0x10 8
  va % 2 ^ 16 = 0 && n % 2 ^ 16 = 0 && 2 ^ 16 ≤ n && n ≤ 2 ^ 28 && va + n ≤ 2 ^ 57 && zeroIn b 0x18 0x100

/-- Step 2 of a code map: each granule's physical address, or the cause and address of the first that fails (R308). -/
def Mach.mapGranules (m : Mach) (ctx : Nat) : List Nat → Except (Nat × Nat) (List (Nat × Nat))
  | [] => .ok []
  | va :: rest =>
    match m.walk ctx va with
    | .error c => .error (c, va)
    | .ok e =>
      if !e.x || e.w then .error (pageExec, va)
      else
        match m.mapGranules ctx rest with
        | .error x => .error x
        | .ok l => .ok ((va, e.pa + (va - e.va)) :: l)

/-- Lifts a context's protection of granules. -/
def Part.unguard (p : Part) (ctx : Nat) : Part := { p with guarded := p.guarded.filter (fun g => g.1 != ctx) }

/-- Steps 3 and 4: the scan of the granules, in ascending address order. -/
def Mach.mapScan (m : Mach) (part win uni : Nat) : List (Nat × Nat) → Option (Nat × Nat)
  | [] => none
  | (va, pa) :: rest =>
    match m.scanPA part pa win uni false with
    | some (off, st) => some (va + off, st)
    | none => m.mapScan part win uni rest

/-- CODE_MAP: the granules are translated and protected; then they are scanned, and enter the execute table (R308). -/
def Mach.codeMap (m : Mach) (t ctx : Nat) : Option Mach :=
  match m.packetOf ctx 3 with
  | none => none
  | some p =>
    let b := p.bytes
    let part := m.ctxPart ctx
    let vas := granules (fieldAt b 8 8) (fieldAt b 0x10 8)
    let win := fieldAt b 2 2
    let uni := fieldAt b 4 1
    if ctx = adminNo then none
    else if !(codeRangeOk b && [8, 16, 32, 64].contains (fieldAt b 1 1) && 1 ≤ win && win ≤ 256 && uni ≤ 64 && zeroIn b 5 8) then
      some (m.reject ctx 1 0)
    else if !p.begun then
      match m.mapGranules ctx vas with
      | .error (c, va) =>
        some (if c = mcWalk then m.consumeWalk t ctx va else m.endPacket ctx 5 c 0 0 0 (leBytes va 8))
      | .ok gs =>
        let x := m.ringOf ctx
        let q := m.part part
        let m := m.setPart part { q with guarded := q.guarded ++ gs.map (fun g => (ctx, g.2 / 2 ^ 16)) }
        some (m.setRing ctx { x with packet := some { p with begun := true } })
    else
      let pas := ((m.part part).guarded.filter (fun g => g.1 = ctx)).map (fun g => 2 ^ 16 * g.2)
      let keys := pas.foldr (fun pa l => (m.part part).places pa (2 ^ 16) ++ l) []
      if m.anyBad keys then some (m.consume t ctx keys)
      else
        let m1 := (m.claim ctx keys).setPart part ((m.part part).unguard ctx)
        match m.mapScan part win uni (vas.zip pas) with
        | some (va, st) => some (m1.endPacket ctx 5 0 st 0 0 (leBytes va 8))
        | none =>
          let q := m1.part part
          let e : ExecEntry := { win := win, uni := uni, width := fieldAt b 1 1 }
          let m1 := m1.setPart part { q with exec := pas.foldl (fun t pa => t.put (pa / 2 ^ 16) e) q.exec }
          some (m1.endPacket ctx 0 0 0 0 0 [])

/-- Whether an unfinished launch of a partition, that of a saved context included, has a code object that overlaps a physical
granule (R308). -/
def Mach.granuleInUse (m : Mach) (part g : Nat) : Bool :=
  m.ctxs.any (fun c => (m.launchFor c.1).any (fun e =>
    e.2.part = part && (granules (2 ^ 16 * (e.2.code / 2 ^ 16)) (2 ^ 16 * ceilDiv e.2.codeLen (2 ^ 16))).any
      (fun va => match m.translateEngine e.2.ctx va .read with
        | .ok pa => pa / 2 ^ 16 = g
        | .error _ => false)))

/-- CODE_UNMAP: granules that no unfinished launch uses leave the execute table; the packet completes when every
granule of its range is out (R308). -/
def Mach.codeUnmap (m : Mach) (ctx : Nat) : Option Mach :=
  match m.packetOf ctx 4 with
  | none => none
  | some p =>
    let b := p.bytes
    let part := m.ctxPart ctx
    if ctx = adminNo then none
    else if !(codeRangeOk b && zeroIn b 1 8) then some (m.reject ctx 1 0)
    else
      let gs := (granules (fieldAt b 8 8) (fieldAt b 0x10 8)).filterMap (fun va =>
        match m.translateEngine ctx va .read with
        | .ok pa => if ((m.part part).exec.find (pa / 2 ^ 16)).isSome then some (pa / 2 ^ 16) else none
        | .error _ => none)
      let free := gs.filter (fun g => !m.granuleInUse part g)
      if free.isEmpty && !gs.isEmpty then none
      else
        let q := m.part part
        let m1 := m.setPart part { q with exec := q.exec.filter (fun e => !free.contains e.1) }
        some (if free.length = gs.length then m1.endPacket ctx 0 0 0 0 0 [] else m1)

/-- Drops the translations of a context that overlap a range; count 0 drops them all (R326, 18_traps.md R343). -/
def Mach.tlbInv (m : Mach) (ctx va n : Nat) : Mach :=
  let hit (e : TlbEntry) : Bool := e.ctx = ctx && (n = 0 || (e.va < va + n && va < e.va + e.size))
  let drop (l : List TlbEntry) : List TlbEntry := l.filter (fun e => !hit e)
  { m with utlb := m.utlb.mapVal drop, ctlb := m.ctlb.mapVal drop }

/-- TLB_INVALIDATE_PACKET (R326). -/
def Mach.tlbPacket (m : Mach) (ctx : Nat) : Option Mach :=
  match m.packetOf ctx 2 with
  | none => none
  | some p =>
    let b := p.bytes
    if ctx = adminNo then none
    else if !(zeroIn b 1 8 && zeroIn b 0x18 0x100 && fieldAt b 8 8 % 2 ^ 16 = 0 && fieldAt b 0x10 8 % 2 ^ 16 = 0) then
      some (m.reject ctx 1 0)
    else some ((m.tlbInv ctx (fieldAt b 8 8) (fieldAt b 0x10 8)).endPacket ctx 0 0 0 0 0 [])

/-- LAUNCH_PACKET (R311): A launch packet is checked and its launch begins or is rejected. -/
def execLaunchPacket (ctx : Nat) (s : State) : Host.Outcome State Fault Refusal :=
  eventW s ((s.m.launchPacket s.caps s.now ctx).map (fun m => (s.now, m)))

/-- TLB_INVALIDATE_PACKET (R326): A type 0x02 packet invalidates translations of its context. -/
def execTlbInvalidatePacket (ctx : Nat) (s : State) : Host.Outcome State Fault Refusal :=
  event s ((s.m.tlbPacket ctx).map (fun m => (s.now, m)))

/-- CODE_MAP (R308): A code-map packet protects, translates and scans granules and makes them executable. -/
def execCodeMap (ctx : Nat) (s : State) : Host.Outcome State Fault Refusal :=
  event s ((s.m.codeMap s.now ctx).map (fun m => (s.now, m)))

/-- CODE_UNMAP (R308): A code-unmap packet removes granules from the execute table once no launch uses them. -/
def execCodeUnmap (ctx : Nat) (s : State) : Host.Outcome State Fault Refusal :=
  event s ((s.m.codeUnmap ctx).map (fun m => (s.now, m)))

/-- BLOCK_PLACE (R255): The next block of a launch is placed on a core with room. -/
def execBlockPlace (launch : Nat) (s : State) : Host.Outcome State Fault Refusal :=
  eventW s ((s.m.blockPlace s.now launch).map (fun m => (s.now, m)))

/-- LAUNCH_COMPLETE (R312): All blocks and operations of a launch have completed and its record is written. -/
def execLaunchComplete (launch : Nat) (s : State) : Host.Outcome State Fault Refusal :=
  eventW s ((s.m.launchComplete s.now launch).map (fun m => (s.now, m)))

/-- WARP_SLOT_FREE (R138): An ended warp's slot is freed once its queue and flags drain, and the block ends with its last one. -/
def execWarpSlotFree (blk w : Nat) (s : State) : Host.Outcome State Fault Refusal :=
  event s ((s.m.slotFreed s.now blk w).map (fun m => (s.now, m)))

end Sys2Proof.Machine
end

