-- ==== Sys2Proof/Machine/Admin.lean ====
section
/-!
DEFINITION. The administrative commands (17_package.md R314, R315, R335, R336), zeroisation at hand-over
(01_device.md R13), and the drain and completion of a kill (17_package.md R324).
-/
namespace Sys2Proof.Machine
open Sys2Proof

def killCommand : Nat := 0x87

/-! ### Commands -/

/-- The running administrative command of a type whose bytes outside its row must be zero: a nonzero one is
rejected with reason 1 (R315). -/
def Mach.command (m : Mach) (ty : Nat) (zero : List Byte → Bool) (act : Packet → Option Mach) : Option Mach :=
  match m.packetOf adminNo ty with
  | none => none
  | some p => if zero p.bytes then act p else some (m.reject adminNo 1 0)

/-- A command ends with STATUS 0 and the bytes from 0x20 on that its row names. -/
def Mach.commandDone (m : Mach) (tail : List Byte) : Mach := m.endPacket adminNo 0 0 0 0 0 tail

/-- A command that its own rule refuses: STATUS 1 and reason 10, nothing changed (R315). -/
def Mach.refuse (m : Mach) (cause : Nat) : Mach := m.endPacket adminNo 1 cause 10 0 0 []

/-- Staging memory: its place in the administrative memory and its size (R314). -/
def stagingBase : Nat := 0x20000
def stagingSize : Nat := 2 ^ 24 - 0x20000

/-- A range of staging memory; none where it leaves it. -/
def Mach.staged (m : Mach) (off n : Nat) : Option (List Byte) :=
  if off + n ≤ stagingSize then some (m.admin.getList (stagingBase + off) n) else none

/-- A command that has taken its first step. -/
def Mach.commandBegun (m : Mach) (p : Packet) : Mach :=
  { m with adminRing := { m.adminRing with packet := some { p with begun := true } } }

/-! ### Partitions -/

/-- The ranges that a quota record owns: base and count of positions, rows, tiles and slots (12_core_scheduling.md
R257). -/
def quotaRanges (q : List Word) : List (Nat × Nat) :=
  let w (k : Nat) : Word := q.getD k 0
  [(bitsAt (w 0) 0 4, bitsAt (w 0) 4 5), (bitsAt (w 1) 0 15, bitsAt (w 1) 16 15), (bitsAt (w 3) 0 10, bitsAt (w 3) 10 11),
   (bitsAt (w 4) 0 13, bitsAt (w 4) 13 14)]

/-- Whether a quota record's ranges lie within a core, and its L1 and scratchpad rows follow their rules (R257). -/
def quotaOk (q : List Word) : Bool :=
  let rcnt := bitsAt (q.getD 1 0) 16 15
  let lcnt := bitsAt (q.getD 2 0) 0 15
  let scnt := bitsAt (q.getD 2 0) 16 15
  ((quotaRanges q).zip [16, 24576, 1024, 6144]).all (fun e => e.1.1 + e.1.2 ≤ e.2) && lcnt + scnt ≤ rcnt && lcnt % 64 = 0 &&
  (rcnt = 0 || 64 ≤ lcnt)

/-- Whether two quota records own a common position, row, tile or slot. -/
def quotaOverlap (a b : List Word) : Bool :=
  ((quotaRanges a).zip (quotaRanges b)).any (fun e =>
    e.1.2 != 0 && e.2.2 != 0 && e.1.1 < e.2.1 + e.2.2 && e.2.1 < e.1.1 + e.1.2)

/-- Whether a quota record owns anything. -/
def quotaHolds (q : List Word) : Bool := (quotaRanges q).any (fun e => e.2 != 0)

/-- Whether a partition holds a core or a channel. -/
def Mach.holdsAny (m : Mach) (p : Nat) : Bool :=
  !(m.part p).cores.isEmpty || m.quota.any (fun e => e.1 / 512 = p && quotaHolds e.2) ||
  m.channels.any (fun e => e.2.v && e.2.own.toNat = p)

/-- Whether a die is present and its stack is on. -/
def Mach.stackOn (m : Mach) (caps : Caps) (die : Nat) : Bool := m.rails = 5 && die < caps.nstack.toNat && !(m.die die).off

/-- The cores, quota words and interleave table of a PART_SET packet. -/
def setCores (b : List Byte) : List Nat := (List.range 512).filter (fun k => (fieldAt b 8 64).testBit k)
def setQuotas (b : List Byte) : List Word :=
  (List.range 5).map (fun k => BitVec.ofNat 32 (fieldAt b (0x48 + 4 * k) 4) &&& quotaMask k)
def Mach.setChannels (m : Mach) (b : List Byte) : Option (List Nat) :=
  if 8 < fieldAt b 6 1 then none
  else (m.staged (fieldAt b 0x60 8) (2 ^ fieldAt b 6 1)).map (fun l => l.map (fun x => x.toNat))

/-- Whether PART_SET may give a partition its cores and channels (R315, R257, R291, R293, 23_physical.md R400). -/
def Mach.partSetOk (m : Mach) (caps : Caps) (p : Nat) (cores cht : List Nat) (q : List Word) : Bool :=
  p < 16 && !m.holdsAny p && quotaOk q && cores.all (fun c => m.stackOn caps (c / 64) &&
    (List.range 16).all (fun o => o = p || !quotaOverlap q ((List.range 5).map (m.quotaWord o c)))) &&
  cht.eraseDups.length = cht.length &&
  cht.all (fun k => m.stackOn caps (k / 32) && !(m.channel k).v && !(m.channel k).ret)

/-- The first key from a candidate on that is not among those in use (R304, DEDUCED, log entry 57). -/
def freshKey (used : List Word) : Nat → Word → Word
  | 0, k => k
  | n + 1, k => if used.contains k then freshKey used n (k + 1) else k

/-- PART_SET (R315). -/
def Mach.partSet (m : Mach) (caps : Caps) : Option Mach :=
  m.command 0x40 (fun b => zeroIn b 3 4 && zeroIn b 7 8 && zeroIn b 0x5C 0x60 && zeroIn b 0x68 0x100) (fun k =>
    let b := k.bytes
    let p := fieldAt b 1 1
    let q := setQuotas b
    let cores := setCores b
    match m.setChannels b with
    | none => some (m.refuse 0)
    | some cht =>
      if !m.partSetOk caps p cores cht q then some (m.refuse 0)
      else
        let used := Config.sysKey :: (m.part p).key :: m.parts.map (fun e => e.2.key)
        let key := freshKey used (used.length + 1) (Config.memKey p m.free)
        let size := Config.imageSize p m.free
        let x : Part :=
          { cores := cores, split := (b.getD 2 0).getLsbD 0, ftid := fieldAt b 4 2, cht := cht, key := key, exec := [],
            guarded := [], zeroing := false, clearing := false, turn := 0 }
        let m := { m with
          free := m.free + 1
          quota := cores.foldl (fun t c => t.put (p * 512 + c) q) m.quota
          channels := cht.foldl (fun t c => t.put c { own := BitVec.ofNat 4 p, v := true, ret := false }) m.channels }
        some ((m.setPart p x).commandDone (leBytes key.toNat 4 ++ leBytes 0 4 ++ leBytes size.toNat 8)))

/-- Whether the kill-complete records of a partition's contexts have all been written (R315, R324). -/
def Mach.killsRecorded (m : Mach) (p : Nat) : Bool :=
  m.adminRing.recs.isEmpty && (m.ctxsOf p).all (fun c => c.2.state != 5 && c.2.ring.recs.isEmpty)

/-- PART_CLEAR (R315): first every context of the partition is killed; then, when every kill-complete record has been written, its
resources are zeroised. -/
def Mach.partClear (m : Mach) (t : Nat) : Option Mach :=
  m.command 0x41 (fun b => zeroIn b 2 0x100) (fun k =>
    let p := fieldAt k.bytes 1 1
    let x := m.part p
    if 16 ≤ p then some (m.refuse 0)
    else if !k.begun then
      let m := (m.ctxsOf p).foldl (fun m c => m.kill t c.1 killCommand 4) m
      some ((m.setPart p { m.part p with clearing := true }).commandBegun k)
    else if x.clearing && m.killsRecorded p then
      some (m.setPart p { x with clearing := false, zeroing := true })
    else none)

/-- Zeroes every byte of a channel: no line of it is dirty or uncorrectable any more. -/
def Mach.zeroChannel (m : Mach) (ch : Nat) : Mach :=
  { m with mem := m.mem.drop (fun k => k / 2 ^ 31 = ch), dirty := m.dirty.filter (fun e => e.1 * 128 / 2 ^ 31 != ch),
           bad := m.bad.filter (fun g => g * 32 / 2 ^ 31 != ch), badL2 := m.badL2.filter (fun g => g * 32 / 2 ^ 31 != ch) }

/-- ZEROISATION (01_device.md R13): the outgoing channels are zeroed, but for those of a stack that is off (23_physical.md R400), no L1
keeps a line of them, and what the outgoing contexts have cached is dropped; the records are cleared, the key is retired, and
PART_CLEAR ends, whose record is the zeroisation-complete record (DESIGN CHOICE, log entry 85). -/
def Mach.zeroise (m : Mach) (t p : Nat) : Option Mach :=
  let x := m.part p
  if !x.zeroing then none
  else
    let mine := (m.channels.filter (fun e => e.2.v && e.2.own.toNat = p)).map (·.1)
    let m := mine.foldl (fun m c => if (m.die (c / 32)).off then m else m.zeroChannel c) m
    let m := (m.ctxsOf p).foldl (fun m c => m.dropCached t c.1) m
    let m := { m with
      l1 := m.l1.filter (fun e => !mine.contains (e.line / 2 ^ 24))
      quota := m.quota.filter (fun e => e.1 / 512 != p)
      channels := m.channels.mapVal (fun c => if c.v && c.own.toNat = p then { c with own := 0, v := false } else c) }
    let m := m.setPart p { Part.init with key := x.key }
    some (if (m.packetOf adminNo 0x41).isSome then m.commandDone [] else m)

/-! ### Contexts -/

/-- CTX_SET (R315): it waits until the context's records have been written. The record has a fresh ring (DESIGN CHOICE, log entry 61). -/
def Mach.ctxSetCmd (m : Mach) (t : Nat) : Option Mach :=
  m.command 0x42 (fun b => zeroIn b 2 8 && zeroIn b 0x48 0x100) (fun k =>
    let n := fieldAt k.bytes 1 1
    let c := m.ctx n
    let ws := (List.range 16).map (fun j => BitVec.ofNat 32 (fieldAt k.bytes (8 + 4 * j) 4) &&& ctxMask j)
    let part := bitsAt (ws.getD 0 0) 4 4
    if c.state != 0 || !(m.part part).isSet then some (m.refuse 0)
    else if !c.ring.recs.isEmpty then none
    else some ((((m.retag t n (c.word 0) (ws.getD 0 0)).setCtx n { c with words := ws, ring := .init }).commandDone []).serve t part))

/-- RUNLIST_WRITE (R315, R316): the whole list is replaced at once. -/
def Mach.runlistWrite (m : Mach) (t : Nat) : Option Mach :=
  m.command 0x43 (fun b => zeroIn b 1 2 && zeroIn b 4 8 && zeroIn b 0x10 0x100) (fun k =>
    let e := fieldAt k.bytes 2 2
    match (if 256 < e then none else m.staged (fieldAt k.bytes 8 8) (8 * e)) with
    | none => some (m.refuse 0)
    | some bs =>
      let l := (List.range e).map (fun i => BitVec.ofNat 64 (fieldAt bs (8 * i) 8) &&& 0x0000FFFFFFFF83FF#64)
      some ((List.range 16).foldl (fun m p => m.serve t p) ({ m with runlist := l }.commandDone [])))

/-- RING_RESTART (R315, R306). -/
def Mach.ringRestart (m : Mach) (t : Nat) : Option Mach :=
  m.command 0x44 (fun b => zeroIn b 2 0x100) (fun k =>
    let n := fieldAt k.bytes 1 1
    let c := m.ctx n
    if !c.v || !c.ring.stopped then some (m.refuse 0)
    else some (((m.setCtx n { c with ring := { c.ring with stopped := false, rc := c.ring.wc } }).commandDone []).serve t c.part))

/-- KILL (R315, R324): the command's record follows the kill-complete record; a context that does not exist leaves
nothing to wait for. -/
def Mach.killCmd (m : Mach) (t : Nat) : Option Mach :=
  m.command 0x45 (fun b => zeroIn b 2 0x100) (fun k =>
    let n := fieldAt k.bytes 1 1
    if k.begun then none
    else if !(m.ctx n).v then some (m.commandDone [])
    else some ((m.kill t n killCommand 4).commandBegun k))

/-- TLBINV (R315, R326, 18_traps.md R343). -/
def Mach.tlbinvCmd (m : Mach) : Option Mach :=
  m.command 0x46 (fun b => zeroIn b 2 8 && zeroIn b 0x18 0x100) (fun k =>
    let c := fieldAt k.bytes 1 1
    let va := fieldAt k.bytes 8 8
    let n := fieldAt k.bytes 0x10 8
    if va % 2 ^ 16 != 0 || n % 2 ^ 16 != 0 then some (m.refuse 0)
    else some (((m.tlbInv c va n).covered c va n).commandDone []))

/-! ### Firmware and attestation -/

/-- FW_LOAD (R335, 23_physical.md R397): an image whose digest and signature verify stands in the inactive bank, which
becomes active at the next reset. -/
def Mach.fwLoad (m : Mach) : Option Mach :=
  m.command 0x47 (fun b => zeroIn b 1 8 && zeroIn b 0x48 0x100) (fun k =>
    let f := fieldAt k.bytes
    let digest := (k.bytes.drop 0x18).take 32
    let image := if f 0x10 8 ≤ 2 ^ 23 then m.staged (f 8 8) (f 0x10 8) else none
    let sig := if f 0x40 8 ≤ 2 ^ 11 then m.staged (f 0x38 8) (f 0x40 8) else none
    match image, sig with
    | some img, some sg =>
      if m.ctxs.any (fun c => 1 ≤ c.2.state && c.2.state ≤ 5) || Shake.digest img != digest || !Config.falconVerifies digest sg then
        some (m.refuse fwSignature)
      else
        let i := 1 - m.active
        some ({ m with banks := m.banks.set i img, fresh := i }.commandDone [])
    | _, _ => some (m.refuse fwSignature))

/-- The partition set-up records (R336): quota words, channel words and interleave tables. -/
def Mach.setupRecords (m : Mach) : List Word :=
  m.quota.foldr (fun e l => BitVec.ofNat 32 e.1 :: e.2 ++ l) [] ++
  m.channels.foldr (fun e l => BitVec.ofNat 32 e.1 :: e.2.word :: l) [] ++
  m.parts.foldr (fun e l => BitVec.ofNat 32 e.1 :: e.2.cht.map (BitVec.ofNat 32) ++ l) []

/-- The report of ATTEST, before its signature and with it (R336). -/
def Mach.report (m : Mach) (caps : Caps) (nonce : List Byte) : List Byte :=
  nonce ++ leBytes caps.word.toNat 4 ++ m.digests.foldr (fun d l => d ++ l) [] ++ Shake.digest (Config.setupBytes m.setupRecords)
def Mach.signedReport (m : Mach) (caps : Caps) (nonce : List Byte) : List Byte :=
  let r := m.report caps nonce
  r ++ Config.falconSign (Shake.digest r)

/-- ATTEST (R315, R336). -/
def Mach.attestCmd (m : Mach) (caps : Caps) : Option Mach :=
  m.command 0x48 (fun b => zeroIn b 1 8 && zeroIn b 0x30 0x100) (fun k =>
    let off := fieldAt k.bytes 0x28 8
    let r := m.signedReport caps ((k.bytes.drop 8).take 32)
    if stagingSize < off + r.length then some (m.refuse 0)
    else some ({ m with admin := m.admin.setList (stagingBase + off) r }.commandDone (leBytes r.length 4)))

/-- MC_RESET (R315): first every granule of the retired channel is written with zero; then each is read back. A channel
of a stack that is off does not read back (23_physical.md R400). -/
def Mach.mcReset (m : Mach) (caps : Caps) : Option Mach :=
  m.command 0x49 (fun b => zeroIn b 3 0x100) (fun k =>
    let die := fieldAt k.bytes 1 1
    let ch := 32 * die + fieldAt k.bytes 2 1
    let c := m.channel ch
    if caps.nstack.toNat ≤ die || 32 ≤ fieldAt k.bytes 2 1 || !c.ret || c.v then some (m.refuse 0)
    else if !k.begun then some ((if m.stackOn caps die then m.zeroChannel ch else m).commandBegun k)
    else if !m.stackOn caps die || m.bad.any (fun g => g * 32 / 2 ^ 31 = ch) then some (m.refuse mcDram)
    else some ((m.setChannel ch { c with ret := false }).commandDone []))

/-! ### The end of a kill (R324) -/

/-- Whether a transfer to or from a host is still under way for a bulk transfer of a context. -/
def Mach.rmaBusy (m : Mach) (ctx : Nat) : Bool :=
  m.rma.any (fun e => match e.2.2 with
    | .bulkWrite x _ _ => (m.bulks.find x).any (fun b => b.ctx = ctx)
    | .bulkRead x _ _ => (m.bulks.find x).any (fun b => b.ctx = ctx)
    | _ => false)

/-- ENGINE_DRAINED: an engine has stopped a killed context's work (R324, 11_async_armature.md R253, 21_fabric.md R387). -/
def Mach.engineDrained (m : Mach) (ctx engine : Nat) : Option Mach :=
  let c := m.ctx ctx
  if c.state != 5 || !c.engines.contains engine || (engine = 1 && m.rmaBusy ctx) then none
  else
    let c := { c with engines := c.engines.erase engine, gossip := if engine = 5 then [] else c.gossip }
    let m := m.setCtx ctx c
    some { m with
      bulks := if engine = 1 then m.bulks.filter (fun e => e.2.ctx != ctx) else m.bulks
      colls := if engine = 4 then m.colls.filter (fun e => e.ctx != ctx) else m.colls
      gmsgs := if engine = 5 then m.gmsgs.filter (fun e => e.2.ctx != ctx) else m.gmsgs }

/-- The kill-complete record, with the signature of a launch that had started: the running packet's record if there is one, and a
notice on the administrative ring (R312, R324, DESIGN CHOICE, log entry 59). -/
def Mach.killRecords (m : Mach) (ctx : Nat) : Mach :=
  let c := m.ctx ctx
  let (tag, mq, sig) : DWord × Nat × List Byte := match m.launchFor ctx with
    | some (_, la) => (la.tag, la.mqst.toNat, la.sigBytes)
    | none => (0, 0, [])
  let num := match m.packet ctx with
    | some p => p.num
    | none => c.ring.rc.toNat
  let body := recBody num c.killStatus c.killCause 0 mq tag sig
  let m := if (m.packet ctx).isSome then m.endPacket ctx c.killStatus c.killCause 0 mq tag sig
    else m.setRing ctx (c.ring.addRec (.notice body))
  m.notice body

/-- KILL_COMPLETE: once every engine has reported, the context's lines and translations are dropped, its blocks and
halves are free, and the records are due (R324). -/
def Mach.killComplete (m : Mach) (t ctx : Nat) : Option Mach :=
  let c := m.ctx ctx
  if c.state != 5 || !c.engines.isEmpty then none
  else
    let m := m.killRecords ctx
    let m := (m.dropActive (fun i => match m.block i with
      | some b => b.ctx = ctx
      | none => false)).dropCached t ctx
    let m := { m with blocks := m.blocks.filter (fun e => e.2.ctx != ctx), launches := m.launches.filter (fun e => e.2.ctx != ctx) }
    let m := m.setPart c.part ((m.part c.part).unguard ctx)
    let m := m.setCtx ctx { (m.ctx ctx).setState 0 with half := none, preempt := [], saving := none }
    let m := match m.packetOf adminNo 0x45 with
      | some p => if p.begun && fieldAt p.bytes 1 1 = ctx then m.commandDone [] else m
      | none => m
    some (m.serve t c.part)

/-- PART_SET (R315): Sets up a partition's quotas, channels and memory key. -/
def execPartSet (s : State) : Host.Outcome State Fault Refusal := event s ((s.m.partSet s.caps).map (fun m => (s.now, m)))

/-- PART_CLEAR (R315): Kills a partition's contexts and clears it after zeroisation. -/
def execPartClear (s : State) : Host.Outcome State Fault Refusal := event s ((s.m.partClear s.now).map (fun m => (s.now, m)))

/-- ZEROISATION (R13): The system controller zeroes and invalidates outgoing resources and writes zeroisation-complete. -/
def execZeroisation (part : Nat) (s : State) : Host.Outcome State Fault Refusal :=
  event s ((s.m.zeroise s.now part).map (fun m => (s.now, m)))

/-- CTX_SET (R315): Writes a context record. -/
def execCtxSet (s : State) : Host.Outcome State Fault Refusal := event s ((s.m.ctxSetCmd s.now).map (fun m => (s.now, m)))

/-- RUNLIST_WRITE (R315): Replaces the run list at once. -/
def execRunlistWrite (s : State) : Host.Outcome State Fault Refusal := event s ((s.m.runlistWrite s.now).map (fun m => (s.now, m)))

/-- RING_RESTART (R315): Restarts a stopped command ring with RC := WC. -/
def execRingRestart (s : State) : Host.Outcome State Fault Refusal := event s ((s.m.ringRestart s.now).map (fun m => (s.now, m)))

/-- KILL (R324): Kills a context by command. -/
def execKill (s : State) : Host.Outcome State Fault Refusal := event s ((s.m.killCmd s.now).map (fun m => (s.now, m)))

/-- TLBINV (R315): Invalidates translations of a named context from the administrative ring. -/
def execTlbinv (s : State) : Host.Outcome State Fault Refusal := event s (s.m.tlbinvCmd.map (fun m => (s.now, m)))

/-- FW_LOAD (R335): Verifies a firmware image and writes it to the inactive flash bank. -/
def execFwLoad (s : State) : Host.Outcome State Fault Refusal := event s (s.m.fwLoad.map (fun m => (s.now, m)))

/-- ATTEST (R336): Writes a signed attestation report. -/
def execAttest (s : State) : Host.Outcome State Fault Refusal := event s ((s.m.attestCmd s.caps).map (fun m => (s.now, m)))

/-- MC_RESET (R315): Zeroes and rechecks a retired channel, clearing RET if it reads back good. -/
def execMcReset (s : State) : Host.Outcome State Fault Refusal := event s ((s.m.mcReset s.caps).map (fun m => (s.now, m)))

/-- ENGINE_DRAINED (R324): An engine reports a killed context's ID drained. -/
def execEngineDrained (ctx engine : Nat) (s : State) : Host.Outcome State Fault Refusal :=
  event s ((s.m.engineDrained ctx engine).map (fun m => (s.now, m)))

/-- KILL_COMPLETE (R324): After every engine has drained, caches are invalidated and the kill-complete record is written. -/
def execKillComplete (ctx : Nat) (s : State) : Host.Outcome State Fault Refusal :=
  event s ((s.m.killComplete s.now ctx).map (fun m => (s.now, m)))

end Sys2Proof.Machine
end

