-- ==== Sys2Proof/Machine/Preempt.lean ====
section
/-!
DEFINITION. Saving and restoring a context (17_package.md R321 to R323), CTXSV (18_traps.md R349), and the completion
of operations.
-/
namespace Sys2Proof.Machine
open Sys2Proof

def saveCorrupt : Nat := 0x83

/-! ### The save area -/

def imageMagic : Nat := 0x4F424358

/-- The area that SAVE names (R313). -/
def Ctx.saveAt (c : Ctx) : Nat := c.pair 10

/-- What a save writes at an offset of its area: bytes beyond the partition's DRAM, in a stack that is off, or in granules that no
write reaches (17_package.md R309, 21_fabric.md R372, 23_physical.md R400), are not written. -/
def Mach.writeSave (m : Mach) (t ctx off : Nat) (data : List Byte) : Mach :=
  let p := m.ctxPart ctx
  let at_ := (m.ctx ctx).saveAt + off
  let ks := ((List.range data.length).zip data).filterMap (fun e =>
    match (m.part p).place (at_ + e.1) with
    | some k => if m.offKey k || m.protectedKey p k || m.boundKey p k then none else some (k, e.2)
    | none => none)
  let keys := ks.map (·.1)
  m.consumeWrite t ctx keys (fun m => m.write ctx keys (ks.map (·.2)))

/-- The body of an image: the parts that its steps write. -/
def imageBody (save steps : Nat) : List Byte := (List.range steps).foldr (fun k l => Config.imagePart save k ++ l) []

/-- The steps of a save that write body parts: one for each block, and one for the launches (R321, R322). -/
def Image.steps (i : Image) : Nat := i.blocks.length + 1

/-- The header of an image, VALID clear (R321). -/
def imageHeader (caps : Caps) (ctx : Nat) (body : List Byte) : List Byte :=
  leBytes imageMagic 4 ++ leBytes 0 1 ++ leBytes caps.prev.toNat 1 ++ leBytes ctx 1 ++ leBytes 0 1 ++ leBytes body.length 8 ++
  Shake.digest body ++ leBytes 0 16

/-! ### Saving (R322) -/

/-- A warp as an image holds it: dead registers have no contents, and at a clause boundary there are no latches and no buffer data
(02_warp_state.md R40, R41). -/
def Warp.saved (x : Warp) : Warp :=
  let x := if x.clause.isSome then x else { x with buf := [], deadB := 0, h0 := none, h1 := none }
  { x with v := x.v.drop (fun k => x.deadV.getLsbD (k / 64)), buf := x.buf.drop (fun k => x.deadB.getLsbD (k / 64)) }

/-- The on-chip part of a warp's reconvergence stack goes to its spill area, oldest entry first, as far as the spill
depth and the translations allow (02_warp_state.md R16, R22, DEDUCED, log entry 67). -/
def Mach.saveStack (m : Mach) (t : Nat) (blk : Block) (w : Nat) (la : Launch) : Nat → Warp → Mach × Warp
  | 0, x => (m, x)
  | n + 1, x =>
    match x.stack.getLast? with
    | none => (m, x)
    | some e =>
      let k := x.spilled.length
      if la.spd ≤ k then (m, x)
      else
        match m.writeVirt t blk.ctx (spillBase la blk w + 16 * k) e.bytes with
        | .error _ => (m, x)
        | .ok m => m.saveStack t blk w la n { x with stack := x.stack.dropLast, spilled := e :: x.spilled }

/-- A block as a save takes it, with the writes that this makes. -/
def Mach.saveBlock (m : Mach) (t : Nat) (b : Block) : Mach × Block :=
  let la := m.launchOf b
  b.warps.foldl (fun (s : Mach × Block) e =>
    let (m, x) := s.1.saveStack t b e.1 la 32 e.2
    (m, s.2.setWarp e.1 x.saved)) (m, b)

/-- The first step of a save: VALID is cleared. -/
def Mach.saveBegin (m : Mach) (t ctx : Nat) : Mach :=
  let n := m.nextId
  let c := m.ctx ctx
  let m := { m.setCtx ctx { c with saving := some (n, 0) } with
    nextId := n + 1, images := m.images.put n { ctx := ctx, blocks := [], launches := [], whole := false } }
  m.writeSave t ctx 4 (leBytes 0 1)

/-- The last step: VALID is set, the context is saved, and its half and its packs' active entries are free (12_core_scheduling.md
R258). -/
def Mach.saveEnd (m : Mach) (t ctx n : Nat) : Mach :=
  let m := m.writeSave t ctx 4 (leBytes 1 1)
  let c := m.ctx ctx
  if c.state = 5 then m
  else
    let m := (m.setCtx ctx { c.setState 4 with half := none, saving := none }).dropActive (fun i => (m.block i).any (fun b => b.ctx = ctx))
    { m with
      blocks := m.blocks.filter (fun e => e.2.ctx != ctx), launches := m.launches.filter (fun e => e.2.ctx != ctx)
      images := m.images.upd n (fun i => { i with whole := true }) }

/-- The next step of a save under way. -/
def Mach.saveStep (m : Mach) (caps : Caps) (t ctx n k : Nat) (img : Image) : Mach :=
  let ids := (m.blocks.filter (fun e => e.2.ctx = ctx)).map (·.1)
  let next (m : Mach) : Mach :=
    let c := m.ctx ctx
    if c.state = 5 then m else m.setCtx ctx { c with saving := some (n, k + 1) }
  let off := 0x40 + (imageBody n k).length
  if k < ids.length then
    match m.block (ids.getD k 0) with
    | none => next m
    | some b =>
      let (m, b) := m.saveBlock t b
      let m := { m with images := m.images.put n { img with blocks := img.blocks.put (ids.getD k 0) b } }
      next (m.writeSave t ctx off (Config.imagePart n k))
  else if k = ids.length then
    let m := { m with images := m.images.put n { img with launches := m.launches.filter (fun e => e.2.ctx = ctx) } }
    next (m.writeSave t ctx off (Config.imagePart n k))
  else if k = ids.length + 1 then next (m.writeSave t ctx 0 (imageHeader caps ctx (imageBody n (ids.length + 1))))
  else m.saveEnd t ctx n

/-- Whether a partition waits for a half: its running context has none, or the context to run next is saved (R318). -/
def Mach.wantsHalf (m : Mach) (part : Nat) : Bool :=
  match m.runningCtx part with
  | some r => (m.ctx r).half.isNone
  | none => (match m.nextCtx part with
    | some c => (m.ctx c).state = 4
    | none => false)

/-- CONTEXT_SAVE: the image that ran least recently is saved when no half is free; each step is one event (R318, R322). -/
def Mach.contextSave (m : Mach) (caps : Caps) (t ctx : Nat) : Option Mach :=
  let c := m.ctx ctx
  if c.state != 3 then none
  else
    match c.saving with
    | some (n, k) =>
      (match m.images.find n with
      | some img => some ((m.saveStep caps t ctx n k img).serve t c.part)
      | none => none)
    | none =>
      if (m.freeHalf c.part).isNone && m.oldestImage c.part = some ctx && m.wantsHalf c.part then some (m.saveBegin t ctx) else none

/-! ### Restoring (R323) -/

/-- The first resident position of a half (R317). -/
def Mach.halfBase (m : Mach) (part core h : Nat) : Nat :=
  let q := m.quotaWord part core 0
  bitsAt q 0 4 + (if (m.part part).split && h = 1 then (bitsAt q 4 5 + 1) / 2 else 0)

/-- A run of `n` registers in the lanes of an operation, read from the main-file window; an operand that lies elsewhere keeps what
was read of it. -/
def Warp.reread (x : Warp) (mask : Mask) (o : Operand) (n : Nat) (old : FMap 32) : FMap 32 :=
  match o with
  | .v r => valsOf n (lanesOf mask 64) (fun l k => x.reg (r.toNat + k) l)
  | _ => old

/-- A splat that re-enters the field unit reads its sources from the restored window (08_field_unit.md R193). -/
def Warp.resource (x : Warp) (o : Op) : Op :=
  match o.payload with
  | .splat i a v d s started flags =>
    match i, i.fields with
    | .fst _, some f => { o with payload := .splat i (x.reread o.mask f.a (fieldAxes f) a) (x.reread o.mask f.b (fieldChans f) v) d s started flags }
    | .fstg _, some f =>
      { o with payload := .splat i (x.reread o.mask f.a (fieldAxes f) a) (x.reread o.mask f.b (fieldChans f * fieldAxes f) v) d s started flags }
    | _, _ => o
  | _ => o

/-- A block of an image as it stands in a half. -/
def Mach.restoreBlock (m : Mach) (h : Nat) (b : Block) : Block :=
  { b with half := h, out := true, warps := b.warps.mapVal (fun x => { x with ops := x.ops.mapVal x.resource }),
           pos := b.pos.map (fun p => p - m.halfBase b.part b.core b.half + m.halfBase b.part b.core h) }

/-- What a restore finds: the machine in which its context is being killed, or the whole image. -/
def Mach.checkImage (m : Mach) (caps : Caps) (t ctx : Nat) : Mach ⊕ Image :=
  let p := m.part (m.ctxPart ctx)
  let at_ := (m.ctx ctx).saveAt
  let corrupt : Mach ⊕ Image := .inl (m.kill t ctx saveCorrupt 2)
  match p.rmaKeys at_ 0x40 with
  | none => corrupt
  | some hk =>
    if (m.offIndex hk).isSome then corrupt
    else if m.anyBad hk then .inl (m.consume t ctx hk)
    else
      let h := m.bytes hk
      let f := fieldAt h
      match p.rmaKeys (at_ + 0x40) (f 8 8) with
      | none => corrupt
      | some bk =>
        if (m.offIndex bk).isSome then corrupt
        else if m.anyBad bk then .inl (m.consume t ctx bk)
        else
          let body := m.bytes bk
          if f 0 4 != imageMagic || f 4 1 != 1 || f 5 1 != caps.prev.toNat || f 6 1 != ctx ||
              (h.drop 0x10).take 32 != Shake.digest body then corrupt
          else
            match m.images.find? (fun e => e.2.ctx = ctx && e.2.whole && imageBody e.1 e.2.steps = body) with
            | some (_, img) => .inr img
            | none => corrupt

/-- The places of the image that a restore reads. -/
def Mach.imageKeys (m : Mach) (ctx : Nat) : List Nat :=
  let at_ := (m.ctx ctx).saveAt
  let ks (off n : Nat) : List Nat := ((m.part (m.ctxPart ctx)).rmaKeys off n).getD []
  if m.dirty.isEmpty then [] else ks at_ 0x40 ++ ks (at_ + 0x40) (fieldAt (m.bytes (ks at_ 0x40)) 8 8)

/-- A restore into a half: the machine with the blocks in place and switched out, or in which the context is being
killed. -/
def Mach.restore (m : Mach) (caps : Caps) (t ctx h : Nat) : Mach × Bool :=
  match m.checkImage caps t ctx with
  | .inl m => (m, false)
  | .inr img =>
    let m := m.claim ctx (m.imageKeys ctx)
    let m := { m with
      blocks := img.blocks.foldl (fun bs (e : Nat × Block) => bs.put e.1 (m.restoreBlock h e.2)) m.blocks
      launches := img.launches.foldl (fun ls (e : Nat × Launch) => ls.put e.1 e.2) m.launches }
    (m.setCtx ctx { (m.ctx ctx).setState 3 with half := some h }, true)

/-- CONTEXT_RESTORE: a saved context that is to run next takes a free half (R316, R318, R323). -/
def Mach.contextRestore (m : Mach) (caps : Caps) (t ctx : Nat) : Option Mach :=
  let c := m.ctx ctx
  let p := m.part c.part
  if c.state != 4 || (m.runningCtx c.part).isSome || p.clearing || p.zeroing || m.nextCtx c.part != some ctx then none
  else
    match m.freeHalf c.part with
    | none => none
    | some h => some (((m.restore caps t ctx h).1).serve t c.part)

/-! ### CTXSV (R349) -/

/-- CTXSV enters with its context. -/
def actCtxsv : Act := fun c =>
  if c.adm = 0 then .ok c else .ok (c.start none (.sys c.i (c.rd32 c.f.a c.lane % 256) 0))

/-- CTXSV's next turn: its end with a status word, or the machine with its save begun; none while a save runs. -/
def Mach.ctxsvTurn (m : Mach) (caps : Caps) (t b w op : Nat) (o : Op) (i : Instr) (ctx save : Nat) : Option Mach :=
  match i.fields with
  | none => none
  | some f =>
    let status (m : Mach) (x : Nat) : Option Mach :=
      match m.warp b w with
      | none => some m
      | some (_, _) => some (m.complete t b w op o (o.result f 1 (fun _ _ => BitVec.ofNat 32 x) 0) [])
    let waits (m : Mach) (n : Nat) : Option Mach :=
      match m.warp b w with
      | none => some m
      | some (_, x) => some (m.setWarp b w (x.setPayload op (.sys i ctx (n + 1))))
    let c := m.ctx ctx
    match i with
    | .ctxsvSave _ =>
      if save = 0 then
        if c.state != 3 then status m 1
        else
          match c.saving with
          | some (n, _) => waits m n
          | none => waits (m.saveBegin t ctx) m.nextId
      else if (m.images.find (save - 1)).any (fun e => e.whole) then status m 0
      else if c.saving.any (fun e => e.1 = save - 1) then none
      else status m 2
    | _ =>
      match (if c.state = 4 then m.freeHalf c.part else none) with
      | none => status m 1
      | some h =>
        let (m, ok) := m.restore caps t ctx h
        if ok then status m 0 else if (m.ctx ctx).killCause = saveCorrupt then status m 3 else status m 2

/-- VAR_COMPLETE: an operation's turn. -/
def Mach.opTurn (m : Mach) (caps : Caps) (t b w op : Nat) : Option Mach :=
  match m.warp b w with
  | none => none
  | some (blk, x) =>
    match x.ops.find op with
    | none => none
    | some o =>
      match o.payload with
      | .sys i ctx save =>
        if !m.alive blk || o.fault.isSome || o.flagDone then none else m.ctxsvTurn caps t b w op o i ctx save
      | _ => m.varComplete t b w op

/-- CTXSV_SAVE (R349): Saves a switched-out resident image. -/
def execCtxsvSave (w : CForm) (s : State) : Host.Outcome State Fault Refusal := issue (.ctxsvSave w) actCtxsv s

/-- CTXSV_REST (R349): Restores a saved image into a free half. -/
def execCtxsvRest (w : CForm) (s : State) : Host.Outcome State Fault Refusal := issue (.ctxsvRest w) actCtxsv s

/-- VAR_COMPLETE (R23): A variable-latency operation writes its result and lowers its flag count. -/
def execVarComplete (blk w op : Nat) (s : State) : Host.Outcome State Fault Refusal :=
  eventW s ((s.m.opTurn s.caps s.now blk w op).map (fun m => (s.now, m)))

/-- CONTEXT_SAVE (R322): A save writes an image block by block and sets VALID. -/
def execContextSave (ctx : Nat) (s : State) : Host.Outcome State Fault Refusal :=
  eventW s ((s.m.contextSave s.caps s.now ctx).map (fun m => (s.now, m)))

/-- CONTEXT_RESTORE (R323): A restore checks an image and places it back onto its cores. -/
def execContextRestore (ctx : Nat) (s : State) : Host.Outcome State Fault Refusal :=
  eventW s ((s.m.contextRestore s.caps s.now ctx).map (fun m => (s.now, m)))

end Sys2Proof.Machine
end

