-- ==== Sys2Proof/Machine/Links.lean ====
section
/-!
DEFINITION. The block-transfer engine's transfers (11_async_armature.md R235, R236, 17_package.md R304, R312), transfers
that arrive from other packages (21_fabric.md R361, R363), the Krovrin links (R359, R360) and congestion control (R362).
-/
namespace Sys2Proof.Machine
open Sys2Proof

def linkDown : Nat := 0xA1
def remoteRefused : Nat := 0xA2
def remoteRange : Nat := 0xA3

/-! ### Transfers -/

/-- Where a target lies: this package, the host, or another package (R235, R363). -/
inductive Side where
  | here | host | far
  deriving DecidableEq, Repr

def Mach.side (m : Mach) (x : Nat) : Side := if x = 0xFFFF then .host else if m.outside x then .far else .here

/-- The length of the longest part of a range, from its start, that the engine can reach, and the cause that ends it;
0 where all of it can be reached. -/
def Mach.reach (m : Mach) (ctx : Nat) (acc : Access) (va n : Nat) : Nat × Nat :=
  match m.engineKeys ctx acc va n with
  | .ok _ => (n, 0)
  | .error (c, a) => (a - va, c)

/-- The bytes that a transfer to or from a host region may move, and the cause that cuts it short (17_package.md R304). -/
def Ctx.hostReach (c : Ctx) (off n : Nat) : Nat × Nat := if off + n ≤ c.pair 8 then (n, 0) else (c.pair 8 - off, hostRange)

/-- Whether a transfer may read its source: every earlier store and atomic of its warp has performed, and every earlier copy
of it has read (R235, 06_isa_control.md R143). One that a save has taken unread waits for the restore (17_package.md R322). -/
def Mach.sourceTurn (m : Mach) (x : Bulk) : Bool :=
  match m.warp x.blk x.warp with
  | none => x.data.isSome
  | some (_, w) => (match w.ops.find x.op with
    | some o => w.sourceTurn o.seq
    | none => true)

/-- Every source byte has been read: the CPYB's part in its batch is complete (R235). -/
def Mach.sourceRead (m : Mach) (x : Bulk) : Mach :=
  match m.warp x.blk x.warp with
  | none => m
  | some (_, w) => m.setWarp x.blk x.warp { w with ops := w.ops.upd x.op (fun o => { o with batchDone := true }) }

def Mach.setBulk (m : Mach) (n : Nat) (x : Bulk) : Mach := { m with bulks := m.bulks.put n x }

/-- A transfer has finished, or has stopped with a cause. -/
def Mach.bulkEnds (m : Mach) (n : Nat) (x : Bulk) (moved cause : Nat) : Mach :=
  { m.setBulk n { x with moved := moved, status := if cause = 0 then 0 else 1, cause := cause, done := true, fin := m.nextId } with
    nextId := m.nextId + 1 }

/-- The package that a transfer goes to or comes from, if either is another one. -/
def Mach.farPackage (m : Mach) (x : Bulk) : Nat := if m.side x.srcT = .far then x.srcT else x.dstT

/-- The cycle since which no route has led to a package: that in which the last link of this one went down, or else that in which the
rest of the domain lost the route, which is free (21_fabric.md R360, DESIGN CHOICE, log entry 79). -/
def Mach.routeLost (m : Mach) (t pkg : Nat) : Option Nat := m.cutSince <|> Config.routeLost pkg t

/-- Whether a transfer to or from another package has had no route for 1 ms (R363). -/
def Mach.noRoute (m : Mach) (t : Nat) (x : Bulk) : Bool :=
  match m.routeLost t (m.farPackage x) with
  | none => false
  | some c => decide (max c x.start + cyclesPerMs ≤ t)

/-- Whether another package may give an answer: LINK_DOWN is reported where no route is left (R363). -/
def Mach.farOk (m : Mach) (t : Nat) (x : Bulk) (far : FarReply) (causes : List Nat) : Bool :=
  causes.contains far.cause && (far.cause != linkDown || m.noRoute t x)

/-- The transfer's bytes land, as far as they reach; `cause` is what cut the source short. -/
def Mach.bulkLand (m : Mach) (t n : Nat) (x : Bulk) (data : List Byte) (cause : Nat) (far : FarReply) : Option Mach :=
  match m.side x.dstT with
  | .here =>
    let (k, c) := m.reach x.ctx .write x.dst data.length
    if c = mcWalk then some (m.consumeWalk t x.ctx (x.dst + k))
    else
    match m.writeSeen t x.ctx x.dst (data.take k) with
    | .error _ => none
    | .ok m => some (m.bulkEnds n x k (if c = 0 then cause else c))
  | .host =>
    let (k, c) := (m.ctx x.ctx).hostReach x.dst data.length
    let x := { x with data := some data, cause := if c = 0 then cause else c }
    if k = 0 then some (m.bulkEnds n x 0 x.cause) else some ((m.setBulk n x).sendRma x.ctx (.bulkWrite n x.dst (data.take k)))
  | .far =>
    if m.farOk t x far [0, remoteRefused, remoteRange, gossipRange, linkDown] then
      some (if far.cause = 0 then m.bulkEnds n x data.length cause else m.bulkEnds n x (min far.landed data.length) far.cause)
    else none

/-- Whether the host's transport still carries something for a transfer. -/
def Mach.bulkWaits (m : Mach) (n : Nat) : Bool :=
  m.rma.any (fun e => match e.2.2 with
    | .bulkWrite k _ _ => k = n
    | .bulkRead k _ _ => k = n
    | _ => false)

/-- CPYB_FINISH: a transfer reads its source and lands; one from or to a host goes on when the transport reports. What
another package answers comes with the event. -/
def Mach.cpybFinish (m : Mach) (t n : Nat) (far : FarReply) : Option Mach :=
  match m.bulks.find n with
  | none => none
  | some x =>
    if x.done || (m.ctx x.ctx).state = 5 || m.bulkWaits n || !m.sourceTurn x then none
    else
      match x.data with
      | some d => m.bulkLand t n x d x.cause far
      | none =>
        match m.side x.srcT with
        | .here =>
          let (k, c) := m.reach x.ctx .read x.src x.count
          if c = mcWalk then some (m.consumeWalk t x.ctx (x.src + k))
          else
          match m.engineKeys x.ctx .read x.src k with
          | .error _ => none
          | .ok keys =>
            if m.anyBad keys then some (m.consume t x.ctx keys) 
            else ((m.brought x.ctx x.src k keys).sourceRead x).bulkLand t n x (m.bytes keys) c far
        | .host =>
          let (k, c) := (m.ctx x.ctx).hostReach x.src x.count
          let x := { x with cause := c }
          if k = 0 then some ((m.sourceRead x).bulkEnds n x 0 c) else some ((m.setBulk n x).sendRma x.ctx (.bulkRead n x.src k))
        | .far =>
          if far.cause = 0 then
            if far.data.length = x.count then (m.sourceRead x).bulkLand t n x far.data 0 far else none
          else if m.farOk t x far [remoteRefused, remoteRange, linkDown] then
            (m.sourceRead x).bulkLand t n x (far.data.take x.count) far.cause far
          else none

/-- CPYB_NO_ROUTE: a transfer to or from another package without a route for 1 ms (R363). -/
def Mach.cpybNoRoute (m : Mach) (t n : Nat) : Option Mach :=
  match m.bulks.find n with
  | none => none
  | some x =>
    if x.done || (m.ctx x.ctx).state = 5 || !(m.side x.srcT = .far || m.side x.dstT = .far) || !m.noRoute t x || !m.sourceTurn x then none
    else some ((m.sourceRead x).bulkEnds n x x.moved linkDown)

/-- The record of a transfer (R236). -/
def Bulk.record (x : Bulk) (seq : DWord) : List Byte :=
  leBytes seq.toNat 8 ++ leBytes x.moved 8 ++ leBytes x.tag.toNat 4 ++ leBytes x.status 1 ++ leBytes x.cause 1 ++ leBytes 0 10

/-- CPYB_RECORD: the record of a finished transfer, once its ring has room, in the order of finishing (R236). It waits
while its ring cannot be reached (DEDUCED, log entry 69). -/
def Mach.cpybRecord (m : Mach) (t n : Nat) : Option Mach :=
  match m.bulks.find n with
  | none => none
  | some x =>
    if !x.done || (m.ctx x.ctx).state = 5 ||
        m.bulks.any (fun e => e.2.done && e.2.ctx = x.ctx && e.2.ring = x.ring && e.2.fin < x.fin) then none
    else
      match m.engineKeys x.ctx .read x.ring 32, m.readRing x.ctx x.ring with
      | .ok keys, .ok r =>
        if m.anyBad keys then some (m.consume t x.ctx keys)
        else if !r.room then none
        else
          match (m.brought x.ctx x.ring 32 keys).putRecord t x.ctx x.ring r (x.record (r.seq + 1)) with
          | .error _ => none
          | .ok m => some { m with bulks := m.bulks.del n }
      | .error (c, va), _ => if c = mcWalk then some (m.consumeWalk t x.ctx va) else none
      | _, _ => none

/-- Sends an answer to a package's transfer. -/
def Mach.answer (m : Mach) (pkg : Nat) (r : FarReply) : Mach := { m with answers := (pkg, r) :: m.answers }

/-- The cause that the far package is told: a bound region's, or REMOTE_RANGE for whatever else this package finds (R363, R372). -/
def remoteCause (c : Nat) : Nat := if c = 0 || c = gossipRange then c else remoteRange

/-- REMOTE_CPYB_ARRIVE: a transfer of another package acts in the context of the sender's ID and FTID, or is refused; the bytes
before the first that it cannot reach are read or land, and the answer tells the sender so (R361, R363, 17_package.md R309). A
transfer that meets uncorrectable data finds its context killed, and is refused (DEDUCED, log entry 70). -/
def Mach.remoteArrive (m : Mach) (t : Nat) (b : BulkMsg) : Mach :=
  let c := m.ctx b.ctx
  let refused (m : Mach) : Mach := m.answer b.src { cause := remoteRefused, landed := 0, data := [] }
  if !c.v || c.state = 5 || (m.part c.part).ftid != b.ftid || !(m.part c.part).isSet then refused m
  else
    let a := b.addr.toNat
    let full := if b.write then b.data.length else b.count
    let n := min full (2 ^ 57 - a)
    let acc : Access := if b.write then .write else .read
    let (k, e) := m.reach b.ctx acc a n
    let cause := if e = 0 && n < full then remoteRange else remoteCause e
    if e = mcWalk then refused (m.consumeWalk t b.ctx (a + k))
    else
    match m.engineKeys b.ctx acc a k with
    | .error _ => refused m
    | .ok keys =>
      if b.write then
        if m.consumesBad keys then refused (m.consumeWrite t b.ctx keys id)
        else ((m.write b.ctx keys (b.data.take k)).purge keys).answer b.src { cause := cause, landed := k, data := [] }
      else if m.anyBad keys then refused (m.consume t b.ctx keys)
      else (m.brought b.ctx a k keys).answer b.src { cause := cause, landed := 0, data := m.bytes keys }

/-- HOST_RMA_COMPLETION: the transport reports a transfer complete. SEQ follows a record's body (17_package.md R312); a
read's bytes have come, or a write's have landed. -/
def Mach.hostRmaDone (m : Mach) (t id : Nat) (data : List Byte) : Option Mach :=
  match m.rma.find id with
  | none => none
  | some (_, r) =>
    let m := { m with rma := m.rma.del id }
    match r with
    | .record ring off _ =>
      let x := m.ringOf ring
      some ((m.setRing ring (x.setStage 2)).sendRma ring (.seqWrite ring (off - 8) (leBytes (x.seq.toNat + 1) 8)))
    | .seqWrite ring _ _ => some (m.recordDone t ring)
    | .bulkWrite n _ bytes =>
      (match m.bulks.find n with
      | none => some m
      | some x => some (m.bulkEnds n x bytes.length x.cause))
    | .bulkRead n _ k =>
      (match m.bulks.find n with
      | none => some m
      | some x => if data.length = k then some ((m.sourceRead x).setBulk n { x with data := some data }) else none)

/-! ### Links -/

/-- A direction of a link as training leaves it: its receiver expects flit 0. -/
def LinkEnd.trained (t : Nat) : LinkEnd := { next := 0, again := false, fails := 0, moved := t }

/-- A direction of a link (R359): `way` is the link for what comes to this package, and 32 more for what leaves it. -/
def Mach.linkEnd (m : Mach) (way : Nat) : LinkEnd := (m.flits.find way).getD (.trained 0)

/-- A receiver's answer to a flit: it takes the next one in sequence, which acknowledges it, and discards one whose CRC fails and
one out of sequence. After the first failure the sender sends again from the first flit not acknowledged, and what fails
from then on is a retransmission (R360). -/
def LinkEnd.receive (e : LinkEnd) (t seq : Nat) (crcOk : Bool) : LinkEnd :=
  if seq != e.next then e
  else if crcOk then { next := seq + 1, again := false, fails := 0, moved := t }
  else { e with again := true, fails := if e.again then e.fails + 1 else e.fails }

/-- Whether the links carry traffic: stage 1 of the boot has trained them (23_physical.md R395). -/
def Mach.linksUp (m : Mach) : Bool := m.rails = 5 && 1 ≤ m.boot

/-- FLIT_RECEIVE: a flit comes to the receiving end of one direction of a link (R360, DESIGN CHOICE for the directions' numbers, log
entry 79). -/
def Mach.flitReceive (m : Mach) (t way seq : Nat) (crcOk : Bool) : Option Mach :=
  if 64 ≤ way || !m.linksUp || m.isDown (way % 32) then none
  else some { m with flits := m.flits.put way ((m.linkEnd way).receive t seq crcOk) }

/-- Whether a direction has failed: 32 failed retransmissions in succession, or 100 µs without forward progress (R360). -/
def LinkEnd.failed (e : LinkEnd) (t : Nat) : Bool := 32 ≤ e.fails || decide (e.moved + 100 * cyclesPerUs ≤ t)

/-- Whether a link may be declared down: either of its directions has failed. -/
def Mach.mayGoDown (m : Mach) (t link : Nat) : Bool := (m.linkEnd link).failed t || (m.linkEnd (32 + link)).failed t

/-- The links' states, and the cycle since which every link has been down. -/
def Mach.setLink (m : Mach) (t link : Nat) (down : Bool) : Mach :=
  let m := { m with links := m.links.put link down }
  { m with cutSince := if (List.range 32).all m.isDown then some (m.cutSince.getD t) else none }

/-- A link changes its state, and a notice says so (R360). The gossip messages that a link carried learn that it went down
(R373); a link that comes back has trained again, and its counts start again. -/
def Mach.linkTurns (m : Mach) (t link far : Nat) (down : Bool) : Option Mach :=
  if 32 ≤ link || 4096 ≤ far || !m.linksUp || m.isDown link = down || (down && !m.mayGoDown t link) then none
  else
    let m := m.setLink t link down
    let m := if down then { m with gmsgs := m.gmsgs.map (fun e => if e.2.link = link then (e.1, { e.2 with cut := true }) else e) }
      else { m with flits := (m.flits.put link (.trained t)).put (32 + link) (.trained t) }
    some (m.notice (recBody 0 (if down then 0x90 else 0x91) 0 0 0 0 (leBytes link 1 ++ leBytes 0 1 ++ leBytes far 2)))

/-! ### Congestion -/

/-- 5 µs. -/
def rateWindow : Nat := 5 * cyclesPerUs

/-- A rate controller; it starts at the link rate. -/
def Mach.rate (m : Mach) (ctl : Nat) : Rate := (m.rates.find ctl).getD { num := 1, den := 1, mark := none, rise := 0 }

/-- Keeps a rate between 1/1024 of the link rate and the link rate (R362). -/
def Rate.clamp (r : Rate) : Rate :=
  if r.den < r.num then { r with num := 1, den := 1 } else if 1024 * r.num < r.den then { r with num := 1, den := 1024 } else r

/-- CONGESTION_MARK: a mark multiplies the rate by 7/8, at most once every 5 µs (R362). -/
def Mach.congestionMark (m : Mach) (t ctl : Nat) : Mach :=
  let r := m.rate ctl
  if (match r.mark with
    | some c => decide (t < rateWindow + c)
    | none => false) then m
  else { m with rates := m.rates.put ctl ({ r with num := r.num * 7, den := r.den * 8, mark := some t, rise := t }).clamp }

/-- RATE_RECOVERY: after 5 µs without a mark the rate rises by 1/128 of the link rate (R362). -/
def Mach.rateRecovery (m : Mach) (t ctl : Nat) : Option Mach :=
  let r := m.rate ctl
  if t < rateWindow + r.rise then none
  else some { m with rates := m.rates.put ctl ({ r with num := r.num * 128 + r.den, den := r.den * 128, rise := t }).clamp }

/-- CPYB_FINISH (R236): A bulk transfer finishes or stops at a fault. -/
def execCpybFinish (x : Nat) (far : FarReply) (s : State) : Host.Outcome State Fault Refusal :=
  eventW s ((s.m.cpybFinish s.now x far).map (fun m => (s.now, m)))

/-- CPYB_RECORD (R236): The engine writes a transfer's completion record once the ring has room. -/
def execCpybRecord (x : Nat) (s : State) : Host.Outcome State Fault Refusal :=
  eventW s ((s.m.cpybRecord s.now x).map (fun m => (s.now, m)))

/-- REMOTE_CPYB_ARRIVE (R363): A remote bulk transfer arrives and acts in the named context or is refused. -/
def execRemoteCpybArrive (m : BulkMsg) (s : State) : Host.Outcome State Fault Refusal :=
  eventW s (some (s.now, s.m.remoteArrive s.now m))

/-- CPYB_NO_ROUTE (R363): A transfer with no route for 1 ms stops with LINK_DOWN. -/
def execCpybNoRoute (x : Nat) (s : State) : Host.Outcome State Fault Refusal :=
  event s ((s.m.cpybNoRoute s.now x).map (fun m => (s.now, m)))

/-- FLIT_RECEIVE (R360): A flit arrives, checked by CRC and retransmitted on failure. -/
def execFlitReceive (link seq : Nat) (crcOk : Bool) (s : State) : Host.Outcome State Fault Refusal :=
  event s ((s.m.flitReceive s.now link seq crcOk).map (fun m => (s.now, m)))

/-- LINK_DOWN (R360): A link is declared down after failed retransmissions or 100 µs without progress. -/
def execLinkDown (link far : Nat) (s : State) : Host.Outcome State Fault Refusal :=
  event s ((s.m.linkTurns s.now link far true).map (fun m => (s.now, m)))

/-- LINK_UP (R360): A retrained link comes back up and a notice is written. -/
def execLinkUp (link far : Nat) (s : State) : Host.Outcome State Fault Refusal :=
  event s ((s.m.linkTurns s.now link far false).map (fun m => (s.now, m)))

/-- CONGESTION_MARK (R362): A marked flit lowers a rate controller's rate. -/
def execCongestionMark (ctl : Nat) (s : State) : Host.Outcome State Fault Refusal :=
  event s (some (s.now, s.m.congestionMark s.now ctl))

/-- RATE_RECOVERY (R362): Every 5 µs without a mark raises a controller's rate. -/
def execRateRecovery (ctl : Nat) (s : State) : Host.Outcome State Fault Refusal :=
  event s ((s.m.rateRecovery s.now ctl).map (fun m => (s.now, m)))

/-- HOST_RMA_COMPLETION (R312): The host's transport reports an RMA write or read issued by the part as complete, after which the
part issues SEQ or continues a host transfer. -/
def execHostRmaCompletion (id : Nat) (data : List Byte) (s : State) : Host.Outcome State Fault Refusal :=
  event s ((s.m.hostRmaDone s.now id data).map (fun m => (s.now, m)))

end Sys2Proof.Machine
end

