-- ==== Sys2Proof/Machine/Physical.lean ====
section
/-!
DEFINITION. Soft errors and the scrub (16_die.md R300 to R303, 15_cluster.md R284), power, the boot chain and
temperature (23_physical.md R394 to R400).
-/
namespace Sys2Proof.Machine
open Sys2Proof

/-! ### Soft errors -/

/-- SOFT_ERROR_CORRECTED (16_die.md R300, R303). -/
def Mach.softError (m : Mach) (caps : Caps) (die : Nat) : Option Mach :=
  if !m.stackOn caps die then none
  else
    let d := m.die die
    some (m.setDie die { d with cecnt := satInc d.cecnt })

/-- The die and channel of an uncorrectable error, the granule, its cause and its source (R300, R303). -/
def errDie : ErrLoc → Nat
  | .store c | .acc c | .bstage c => c / 64
  | .l2data g | .dram g | .walk g => g * 32 / 2 ^ 36
def errGranule : ErrLoc → Option Nat
  | .store _ | .acc _ | .bstage _ => none
  | .l2data g | .dram g | .walk g => some g
def errCause : ErrLoc → Nat
  | .store _ => 0x61
  | .acc _ => 0x62
  | .bstage _ => 0x63
  | .l2data _ => mcL2Data
  | .dram _ => mcDram
  | .walk _ => mcWalk
def errSource : ErrLoc → Nat
  | .store _ | .acc _ | .bstage _ => 3
  | .l2data _ => 1
  | .dram _ | .walk _ => 0

/-- The channel of a granule. -/
def granuleChannel (g : Nat) : Nat := g * 32 / 2 ^ 31

/-- Whether a channel's partition is being zeroised (01_device.md R13). -/
def Mach.zeroingChannel (m : Mach) (ch : Nat) : Bool := (m.channel ch).v && (m.part (m.channel ch).own.toNat).zeroing

/-- A channel in which a zeroisation meets an error is retired (01_device.md R13). -/
def Mach.retire (m : Mach) (ch : Nat) : Mach :=
  if m.zeroingChannel ch then m.setChannel ch { m.channel ch with ret := true } else m

/-- A granule becomes uncorrectable in its home slice or in DRAM; in a partition that is being zeroised the error is recorded, and its
channel is retired (R303, 01_device.md R13). -/
def Mach.spoil (m : Mach) (g : Nat) (l2 : Bool) : Mach :=
  let ch := granuleChannel g
  let m := if m.bad.contains g then m else { m with bad := g :: m.bad, badL2 := if l2 then g :: m.badL2 else m.badL2 }
  if m.zeroingChannel ch then (m.countUe (ch / 32) (some (ch % 32)) 0).retire ch else m

/-- UNCORRECTABLE_ERROR: the error, and the kill of the context that would consume the data (R300). Where `ctx` names
no context of the partition, nothing has consumed it yet. -/
def Mach.uncorrectable (m : Mach) (caps : Caps) (t : Nat) (loc : ErrLoc) (ctx : Nat) : Option Mach :=
  if !m.stackOn caps (errDie loc) then none
  else
    let m := match (errGranule loc) with
      | some g => m.spoil g (errSource loc = 1)
      | none => m
    let owns := match (errGranule loc) with
      | some g => (m.channel (granuleChannel g)).v && (m.channel (granuleChannel g)).own.toNat = m.ctxPart ctx
      | none => true
    if (m.ctx ctx).v && owns then
      let m := m.countUe (errDie loc) ((errGranule loc).map (fun g => granuleChannel g % 32)) (errSource loc)
      some (m.kill t ctx (errCause loc) 2)
    else some m

/-- L1_TAG_ERROR: an uncorrectable tag error invalidates the set's lines, and a data error its line (15_cluster.md R284,
DEDUCED, log entry 68). -/
def Mach.l1Error (m : Mach) (caps : Caps) (core line : Nat) (tag : Bool) : Option Mach :=
  let c := m.cluster (core / 4)
  if !m.stackOn caps (core / 64) then none
  else if tag then
    some { m.setCluster (core / 4) { c with terr := satInc c.terr } with l1 := m.l1.filter (fun e => e.core != core) }
  else
    some { m.setCluster (core / 4) { c with derr := satInc c.derr } with
      l1 := m.l1.filter (fun e => !(e.core = core && e.line = line)) }

/-- The dirty lines that an error in a home slice loses: those of the line's set for its tag, else the line alone (R302). -/
def Mach.lostLines (m : Mach) (line : Nat) (tag : Bool) : List Nat :=
  (m.dirty.map (·.1)).filter (fun l => l = line || (tag && l / 2 ^ 24 = line / 2 ^ 24 && Config.l2Set l = Config.l2Set line))

/-- L2_TAG_OR_EVICT_ERROR: the lines are lost, the contexts of the owning partition are killed, and machine-check records name
every line (R302, DEDUCED, log entry 68). -/
def Mach.l2Error (m : Mach) (caps : Caps) (t line : Nat) (tag : Bool) : Option Mach :=
  let ch := line / 2 ^ 24
  if !m.stackOn caps (ch / 32) || (!tag && (m.dirty.find line).isNone) then none
  else
    let c := m.channel ch
    let cause := if tag then mcL2Tag else mcEvict
    let lost := m.lostLines line tag
    let m := ((lost.foldl Mach.loseLine m).countUe (ch / 32) (some (ch % 32)) (if tag then 2 else 1)).retire ch
    let m := if c.v then m.losePart t c.own.toNat cause line else m
    some ((lost.filter (fun l => l != line)).foldl (fun m l => m.check [] [cause] (some (ch, l))) m)

/-- SCRUB: the scrub records an uncorrectable granule of an owned channel's line, and consumes nothing (R303). -/
def Mach.scrub (m : Mach) (caps : Caps) (line : Nat) : Option Mach :=
  let ch := line * 128 / 2 ^ 31
  if !m.stackOn caps (ch / 32) || !(m.channel ch).v then none
  else if m.lineBad line then some (m.countUe (ch / 32) (some (ch % 32)) (if m.bad.any (fun g => g / 4 = line && m.badInL2 g) then 1 else 0))
  else some m

/-! ### Power and boot -/

/-- The dies after a reset or at power-on: CYC starts at zero (06_isa_control.md R127). `off` tells which stacks stay off. -/
def freshDies (t : Nat) (off : Nat → Bool) : Tbl Die := (List.range 8).map (fun d => (d, { Die.init d with base := t, off := off d }))

/-- What a reset leaves: the flash banks, the stacks that are off, and what comes from outside (R397, R400). -/
def Mach.resetTo (m : Mach) (t : Nat) (off : Nat → Bool) : Mach :=
  { Mach.reset with
    dies := freshDies t off, banks := m.banks, active := m.fresh, fresh := m.fresh, free := m.free, inbox := m.inbox }

/-- RESET (R397): the bank written last becomes active, and the boot starts again. A stack that is off stays off. -/
def Mach.moduleReset (m : Mach) (t : Nat) : Option Mach :=
  if m.rails = 5 then some (m.resetTo t (fun d => (m.die d).off)) else none

/-- 10 ms: the time in which a rail must reach regulation (R394). -/
def railLimit : Nat := 10 * cyclesPerMs

/-- POWER_ON: the next rail reaches regulation within 10 ms of its start, and the one after it starts; with the last one the boot
can start (R394), from the bank written last (R397). The first rail, and one after a break in the order, start with the event
(DESIGN CHOICE, log entry 82). -/
def Mach.powerOn (m : Mach) (t : Nat) : Option Mach :=
  if m.rails < 5 && m.railFail.isNone && decide (t ≤ m.railAt.getD t + railLimit) then
    some { m with
      rails := m.rails + 1, railAt := if m.rails = 4 then none else some t
      dies := if m.rails = 4 then freshDies t (fun _ => false) else m.dies
      active := if m.rails = 4 then m.fresh else m.active }
  else none

/-- RAIL_TIMEOUT: a rail does not reach regulation in 10 ms, and the sequence stops there, in recovery (R394, R396). Where no start of
the rail has been seen, the event tells of one (DESIGN CHOICE, log entry 82). -/
def Mach.railTimeout (m : Mach) (t rail : Nat) : Option Mach :=
  let late : Bool := match m.railAt with
    | some c => decide (c + railLimit ≤ t)
    | none => true
  if m.rails < 5 && rail = m.rails + 1 && m.railFail.isNone && late then some { m with railFail := some rail, recovery := true }
  else none

/-- POWER_OFF: the last rail that is up goes down; with the first to go the state of the part is lost, but for the flash
(R394). -/
def Mach.powerOff (m : Mach) (t : Nat) : Option Mach :=
  if m.rails = 0 then none
  else if m.rails = 5 then some { m.resetTo t (fun _ => false) with rails := 4 }
  else some { m with rails := m.rails - 1, railAt := none, railFail := none, recovery := false }

/-- The bank that is active (R397). -/
def Mach.bank (m : Mach) : List Byte := m.banks.getD m.active []

/-- The digest of a stage in the active bank, and whether the stage verifies: its signature over that digest and, for stage 2, the
scan of the system controller's own code (R395, 03_encoding.md R60, DESIGN CHOICE, log entry 80). -/
def Mach.stageDigest (m : Mach) (stage : Nat) : List Byte := Shake.digest (Config.stageImage m.bank stage)
def Mach.stageVerifies (m : Mach) (stage : Nat) : Bool :=
  Config.falconVerifies (m.stageDigest stage) (Config.stageSignature m.bank stage) &&
    (stage != 2 || scansClean 256 64 true (Config.sysCode m.bank))

/-- The system controller's code-map request for its own code: it carries FLG.SYS = 1, and the granules, which the scanner has passed,
become executable (03_encoding.md R60, 18_traps.md R348). No partition owns them, so no write reaches them. -/
def sysGranules (code : List Byte) : Tbl ExecEntry :=
  (List.range (ceilDiv code.length (2 ^ 16))).map (fun k => (k, { win := 256, uni := 64, width := 64 }))

/-- BOOT_STAGE: a stage verifies the next one in the active flash bank, which runs, or enters recovery (R395, R396). Stage 1 sets
the package number, zeroes every channel and trains the links; stage 2 opens the rings, and the system controller's code is
executable. The digest and the signature are those of the stage that the bank holds. -/
def Mach.bootStage (m : Mach) (t : Nat) (digest signature : List Byte) (pkg : BitVec 12) : Option Mach :=
  if m.rails != 5 || m.recovery || 2 ≤ m.boot then none
  else if digest != m.stageDigest (m.boot + 1) || signature != Config.stageSignature m.bank (m.boot + 1) then none
  else if !m.stageVerifies (m.boot + 1) then some { m with recovery := true }
  else if m.boot = 0 then
    some { m with
      boot := 1, digests := [digest], pkg := pkg, mem := [], dirty := [], bad := [], badL2 := [], links := [], cutSince := none
      flits := (List.range 64).map (fun way => (way, .trained t)) }
  else some { m with boot := 2, digests := m.digests ++ [digest], sysExec := sysGranules (Config.sysCode m.bank) }

/-! ### Current and temperature -/

/-- The junction's temperature: HOT stands at 105 °C or above, since the cycle in which it was reached, and seven-in-eight ends
below 100 °C (R399). -/
def Die.heat (d : Die) (t : Nat) (tj : BitVec 8) : Die :=
  let hot := decide (105 ≤ tj.toNat)
  { d with tj := tj, hot := hot, hotSince := if hot then some (d.hotSince.getD t) else none, seven := d.seven && 100 ≤ tj.toNat }

/-- Whether a partition holds a quota on a core of a die or owns a channel of its stack (R400). -/
def Mach.partOnDie (m : Mach) (p die : Nat) : Bool :=
  m.quota.any (fun e => e.1 / 512 = p && e.1 % 512 / 64 = die && quotaHolds e.2) ||
  m.channels.any (fun e => e.1 / 32 = die && e.2.v && e.2.own.toNat = p)

/-- A junction has reached 115 °C: its stack is off, the contexts that it served are killed, and a notice says so (R400). -/
def Mach.stackOff (m : Mach) (t die : Nat) : Mach :=
  let m := m.setDie die { m.die die with off := true }
  let m := (List.range 16).foldl (fun m p => if m.partOnDie p die then m.killPart t p 0x89 4 else m) m
  m.notice (recBody 0 0x92 0 0 0 0 (leBytes die 1))

/-- CURRENT_SAMPLE: every 1 µs a die compares its current with ILIM; it withholds starts from a sample above the limit
until one below it (R398). TJ follows the sensor, and HOT with it; at 115 °C the stack goes off at once (R400). -/
def Mach.currentSample (m : Mach) (caps : Caps) (t die amps : Nat) (tj : BitVec 8) : Option Mach :=
  let d := m.die die
  if !m.stackOn caps die || (d.sample != 0 && t < cyclesPerUs + d.sample) then none
  else
    let m := m.setDie die { d.heat t tj with thr := d.ilim.toNat < amps || (d.thr && d.ilim.toNat = amps), sample := t }
    some (if 115 ≤ tj.toNat then m.stackOff t die else m)

/-- JUNCTION_AT_105: HOT is set, and the die withholds starts whatever its current (R399). -/
def Mach.junctionHot (m : Mach) (caps : Caps) (t die : Nat) : Option Mach :=
  let d := m.die die
  if !m.stackOn caps die || d.hot then none
  else some (m.setDie die (d.heat t 105))

/-- THERMAL_SUSTAINED: the junction has stood at 105 °C for longer than 1 ms (R399). -/
def Mach.thermalSustained (m : Mach) (t die : Nat) : Option Mach :=
  let d := m.die die
  match d.hotSince with
  | some c => if cyclesPerMs + c < t && !d.seven then some (m.setDie die { d with seven := true }) else none
  | none => none

/-- JUNCTION_BELOW_100: the withholding for temperature ends (R399). -/
def Mach.junctionCool (m : Mach) (t die : Nat) (tj : BitVec 8) : Option Mach :=
  let d := m.die die
  if (d.hot || d.seven) && tj.toNat < 100 then some (m.setDie die (d.heat t tj)) else none

/-- THERMAL_SHUTDOWN: a die's junction reaches 115 °C (R400). -/
def Mach.thermalShutdown (m : Mach) (caps : Caps) (t die : Nat) : Option Mach :=
  if !m.stackOn caps die then none else some ((m.setDie die ((m.die die).heat t 115)).stackOff t die)

/-- SOFT_ERROR_CORRECTED (R300): A correctable error is corrected where found and counted. -/
def execSoftErrorCorrected (die : Nat) (s : State) : Host.Outcome State Fault Refusal :=
  event s ((s.m.softError s.caps die).map (fun m => (s.now, m)))

/-- UNCORRECTABLE_ERROR (R300): An uncorrectable error halts and kills the consuming context. -/
def execUncorrectableError (loc : ErrLoc) (ctx : Nat) (s : State) : Host.Outcome State Fault Refusal :=
  event s ((s.m.uncorrectable s.caps s.now loc ctx).map (fun m => (s.now, m)))

/-- L1_TAG_ERROR (R284): An uncorrectable L1 tag or data error invalidates lines and counts. -/
def execL1TagError (core line : Nat) (tag : Bool) (s : State) : Host.Outcome State Fault Refusal :=
  event s ((s.m.l1Error s.caps core line tag).map (fun m => (s.now, m)))

/-- L2_TAG_OR_EVICT_ERROR (R302): An L2 tag or write-back error kills every context of the owning partition. -/
def execL2TagOrEvictError (line : Nat) (tag : Bool) (s : State) : Host.Outcome State Fault Refusal :=
  eventW s ((s.m.l2Error s.caps s.now line tag).map (fun m => (s.now, m)))

/-- SCRUB (R303): The background scrub reads and corrects a line. -/
def execScrub (line : Nat) (s : State) : Host.Outcome State Fault Refusal :=
  event s ((s.m.scrub s.caps line).map (fun m => (s.now, m)))

/-- POWER_ON (R394): The module brings up its rails in order. -/
def execPowerOn (s : State) : Host.Outcome State Fault Refusal := event s ((s.m.powerOn s.now).map (fun m => (s.now, m)))

/-- RAIL_TIMEOUT (R394): A rail fails to reach regulation in 10 ms and the sequence stops. -/
def execRailTimeout (rail : Nat) (s : State) : Host.Outcome State Fault Refusal :=
  event s ((s.m.railTimeout s.now rail).map (fun m => (s.now, m)))

/-- POWER_OFF (R394): The module removes its rails in reverse order. -/
def execPowerOff (s : State) : Host.Outcome State Fault Refusal := event s ((s.m.powerOff s.now).map (fun m => (s.now, m)))

/-- BOOT_STAGE (R395): A boot stage verifies and starts the next stage. -/
def execBootStage (digest signature : List Byte) (pkg : BitVec 12) (s : State) : Host.Outcome State Fault Refusal :=
  event s ((s.m.bootStage s.now digest signature pkg).map (fun m => (s.now, m)))

/-- CURRENT_SAMPLE (R398): Every 1 µs a die compares its current with ILIM and throttles clause starts. -/
def execCurrentSample (die amps : Nat) (tj : BitVec 8) (s : State) : Host.Outcome State Fault Refusal :=
  event s ((s.m.currentSample s.caps s.now die amps tj).map (fun m => (s.now, m)))

/-- THERMAL_SUSTAINED (R399): A junction held at 105 °C for 1 ms throttles the die to one start in eight. -/
def execThermalSustained (die : Nat) (s : State) : Host.Outcome State Fault Refusal :=
  event s ((s.m.thermalSustained s.now die).map (fun m => (s.now, m)))

/-- THERMAL_SHUTDOWN (R400): A junction reaches 115 °C and its stack is switched off, killing affected contexts. -/
def execThermalShutdown (die : Nat) (s : State) : Host.Outcome State Fault Refusal :=
  event s ((s.m.thermalShutdown s.caps s.now die).map (fun m => (s.now, m)))

/-- RESET (R397): A reset of the module makes the newly written flash bank active and starts the boot of R395 again. -/
def execReset (s : State) : Host.Outcome State Fault Refusal := event s ((s.m.moduleReset s.now).map (fun m => (s.now, m)))

/-- JUNCTION_AT_105 (R399): A die's junction reaches 105 °C, which sets DPWR.HOT and makes the die withhold clause starts whatever
its current. -/
def execJunctionAt105 (die : Nat) (s : State) : Host.Outcome State Fault Refusal :=
  event s ((s.m.junctionHot s.caps s.now die).map (fun m => (s.now, m)))

/-- JUNCTION_BELOW_100 (R399): A throttled die's junction falls below 100 °C and the seven-in-eight withholding ends. -/
def execJunctionBelow100 (die : Nat) (tj : BitVec 8) (s : State) : Host.Outcome State Fault Refusal :=
  event s ((s.m.junctionCool s.now die tj).map (fun m => (s.now, m)))

end Sys2Proof.Machine
end

