-- ==== Sys2Proof/Machine/Dispatch.lean ====
section
/-!
DEFINITION. One arm per constructor: a direct call of its meaning.
-/
namespace Sys2Proof.Machine
open Sys2Proof

/-- The meaning of an instruction or event in a state. -/
def exec (i : Instr) (s : State) : Host.Outcome State Fault Refusal :=
  match i with
  | .nop w => Sys2Proof.Machine.execNop w s
  | .iadd w => Sys2Proof.Machine.execIadd w s
  | .isub w => Sys2Proof.Machine.execIsub w s
  | .imul w => Sys2Proof.Machine.execImul w s
  | .imad w => Sys2Proof.Machine.execImad w s
  | .imadw w => Sys2Proof.Machine.execImadw w s
  | .idiv w => Sys2Proof.Machine.execIdiv w s
  | .imnmx w => Sys2Proof.Machine.execImnmx w s
  | .iabs w => Sys2Proof.Machine.execIabs w s
  | .lop w => Sys2Proof.Machine.execLop w s
  | .lop3 w => Sys2Proof.Machine.execLop3 w s
  | .shl w => Sys2Proof.Machine.execShl w s
  | .shr w => Sys2Proof.Machine.execShr w s
  | .rot w => Sys2Proof.Machine.execRot w s
  | .shf w => Sys2Proof.Machine.execShf w s
  | .bfx w => Sys2Proof.Machine.execBfx w s
  | .bfi w => Sys2Proof.Machine.execBfi w s
  | .popc w => Sys2Proof.Machine.execPopc w s
  | .clz w => Sys2Proof.Machine.execClz w s
  | .brev w => Sys2Proof.Machine.execBrev w s
  | .prmb w => Sys2Proof.Machine.execPrmb w s
  | .iadd64 w => Sys2Proof.Machine.execIadd64 w s
  | .lea w => Sys2Proof.Machine.execLea w s
  | .lea64 w => Sys2Proof.Machine.execLea64 w s
  | .mov w => Sys2Proof.Machine.execMov w s
  | .movi w => Sys2Proof.Machine.execMovi w s
  | .sel w => Sys2Proof.Machine.execSel w s
  | .idp4 w => Sys2Proof.Machine.execIdp4 w s
  | .mix w => Sys2Proof.Machine.execMix w s
  | .fadd w => Sys2Proof.Machine.execFadd w s
  | .fmul w => Sys2Proof.Machine.execFmul w s
  | .ffma w => Sys2Proof.Machine.execFfma w s
  | .fdot2 w => Sys2Proof.Machine.execFdot2 w s
  | .fmin w => Sys2Proof.Machine.execFmin w s
  | .fmax w => Sys2Proof.Machine.execFmax w s
  | .fdiv w => Sys2Proof.Machine.execFdiv w s
  | .fsqrt w => Sys2Proof.Machine.execFsqrt w s
  | .frcp w => Sys2Proof.Machine.execFrcp w s
  | .frsq w => Sys2Proof.Machine.execFrsq w s
  | .fex2 w => Sys2Proof.Machine.execFex2 w s
  | .flg2 w => Sys2Proof.Machine.execFlg2 w s
  | .fsinp w => Sys2Proof.Machine.execFsinp w s
  | .fcosp w => Sys2Proof.Machine.execFcosp w s
  | .frnd w => Sys2Proof.Machine.execFrnd w s
  | .fscl w => Sys2Proof.Machine.execFscl w s
  | .fxtr w => Sys2Proof.Machine.execFxtr w s
  | .fcls w => Sys2Proof.Machine.execFcls w s
  | .cvti w => Sys2Proof.Machine.execCvti w s
  | .cvtf w => Sys2Proof.Machine.execCvtf w s
  | .cvtif w => Sys2Proof.Machine.execCvtif w s
  | .cvtfi w => Sys2Proof.Machine.execCvtfi w s
  | .cvtnEnc w => Sys2Proof.Machine.execCvtnEnc w s
  | .cvtnDec w => Sys2Proof.Machine.execCvtnDec w s
  | .cvtwFx w => Sys2Proof.Machine.execCvtwFx w s
  | .cvtwFp w => Sys2Proof.Machine.execCvtwFp w s
  | .srnd w => Sys2Proof.Machine.execSrnd w s
  | .rand w => Sys2Proof.Machine.execRand w s
  | .pack w => Sys2Proof.Machine.execPack w s
  | .unpk w => Sys2Proof.Machine.execUnpk w s
  | .isetp w => Sys2Proof.Machine.execIsetp w s
  | .fsetp w => Sys2Proof.Machine.execFsetp w s
  | .plop w => Sys2Proof.Machine.execPlop w s
  | .pmovP2v w => Sys2Proof.Machine.execPmovP2v w s
  | .pmovV2p w => Sys2Proof.Machine.execPmovV2p w s
  | .vote w => Sys2Proof.Machine.execVote w s
  | .shfl w => Sys2Proof.Machine.execShfl w s
  | .wred w => Sys2Proof.Machine.execWred w s
  | .wscan w => Sys2Proof.Machine.execWscan w s
  | .wfred w => Sys2Proof.Machine.execWfred w s
  | .match w => Sys2Proof.Machine.execMatch w s
  | .s2v w => Sys2Proof.Machine.execS2v w s
  | .flagsRd w => Sys2Proof.Machine.execFlagsRd w s
  | .flagsClr w => Sys2Proof.Machine.execFlagsClr w s
  | .prio w => Sys2Proof.Machine.execPrio w s
  | .bra w => Sys2Proof.Machine.execBra w s
  | .brx w => Sys2Proof.Machine.execBrx w s
  | .rcv w => Sys2Proof.Machine.execRcv w s
  | .call w => Sys2Proof.Machine.execCall w s
  | .ret w => Sys2Proof.Machine.execRet w s
  | .exit w => Sys2Proof.Machine.execExit w s
  | .loop w => Sys2Proof.Machine.execLoop w s
  | .bkpt w => Sys2Proof.Machine.execBkpt w s
  | .ld w => Sys2Proof.Machine.execLd w s
  | .st w => Sys2Proof.Machine.execSt w s
  | .prf w => Sys2Proof.Machine.execPrf w s
  | .opf w => Sys2Proof.Machine.execOpf w s
  | .cmnt w => Sys2Proof.Machine.execCmnt w s
  | .fence w => Sys2Proof.Machine.execFence w s
  | .axch w => Sys2Proof.Machine.execAxch w s
  | .acas w => Sys2Proof.Machine.execAcas w s
  | .aadd w => Sys2Proof.Machine.execAadd w s
  | .amnmx w => Sys2Proof.Machine.execAmnmx w s
  | .alop w => Sys2Proof.Machine.execAlop w s
  | .agadd w => Sys2Proof.Machine.execAgadd w s
  | .ainc w => Sys2Proof.Machine.execAinc w s
  | .fbind w => Sys2Proof.Machine.execFbind w s
  | .fld w => Sys2Proof.Machine.execFld w s
  | .fldg w => Sys2Proof.Machine.execFldg w s
  | .fst w => Sys2Proof.Machine.execFst w s
  | .fstg w => Sys2Proof.Machine.execFstg w s
  | .fwt w => Sys2Proof.Machine.execFwt w s
  | .fdrn w => Sys2Proof.Machine.execFdrn w s
  | .fclr w => Sys2Proof.Machine.execFclr w s
  | .gang w => Sys2Proof.Machine.execGang w s
  | .mma w => Sys2Proof.Machine.execMma w s
  | .mldb w => Sys2Proof.Machine.execMldb w s
  | .mldc w => Sys2Proof.Machine.execMldc w s
  | .mclr w => Sys2Proof.Machine.execMclr w s
  | .mdrn w => Sys2Proof.Machine.execMdrn w s
  | .mstp w => Sys2Proof.Machine.execMstp w s
  | .mperm w => Sys2Proof.Machine.execMperm w s
  | .mred w => Sys2Proof.Machine.execMred w s
  | .mtrn w => Sys2Proof.Machine.execMtrn w s
  | .mhist w => Sys2Proof.Machine.execMhist w s
  | .cpy w => Sys2Proof.Machine.execCpy w s
  | .cpyb w => Sys2Proof.Machine.execCpyb w s
  | .bclose w => Sys2Proof.Machine.execBclose w s
  | .bwait w => Sys2Proof.Machine.execBwait w s
  | .barArrive w => Sys2Proof.Machine.execBarArrive w s
  | .barWait w => Sys2Proof.Machine.execBarWait w s
  | .barSync w => Sys2Proof.Machine.execBarSync w s
  | .barx w => Sys2Proof.Machine.execBarx w s
  | .sleep w => Sys2Proof.Machine.execSleep w s
  | .wake w => Sys2Proof.Machine.execWake w s
  | .smov w => Sys2Proof.Machine.execSmov w s
  | .salu w => Sys2Proof.Machine.execSalu w s
  | .ssetp w => Sys2Proof.Machine.execSsetp w s
  | .sld w => Sys2Proof.Machine.execSld w s
  | .sst w => Sys2Proof.Machine.execSst w s
  | .sbr w => Sys2Proof.Machine.execSbr w s
  | .v2s w => Sys2Proof.Machine.execV2s w s
  | .shpwWr w => Sys2Proof.Machine.execShpwWr w s
  | .shpwMk w => Sys2Proof.Machine.execShpwMk w s
  | .lsclRd w => Sys2Proof.Machine.execLsclRd w s
  | .lsclSet w => Sys2Proof.Machine.execLsclSet w s
  | .lsclUpd w => Sys2Proof.Machine.execLsclUpd w s
  | .sclaimClaim w => Sys2Proof.Machine.execSclaimClaim w s
  | .sclaimRel w => Sys2Proof.Machine.execSclaimRel w s
  | .ovftRd w => Sys2Proof.Machine.execOvftRd w s
  | .ovftClr w => Sys2Proof.Machine.execOvftClr w s
  | .cbarArrive w => Sys2Proof.Machine.execCbarArrive w s
  | .cbarWait w => Sys2Proof.Machine.execCbarWait w s
  | .cbarSync w => Sys2Proof.Machine.execCbarSync w s
  | .gadd w => Sys2Proof.Machine.execGadd w s
  | .grd w => Sys2Proof.Machine.execGrd w s
  | .gsprd w => Sys2Proof.Machine.execGsprd w s
  | .gsync w => Sys2Proof.Machine.execGsync w s
  | .gctlStart w => Sys2Proof.Machine.execGctlStart w s
  | .gctlStop w => Sys2Proof.Machine.execGctlStop w s
  | .gctlRate w => Sys2Proof.Machine.execGctlRate w s
  | .gctlStep w => Sys2Proof.Machine.execGctlStep w s
  | .gmass w => Sys2Proof.Machine.execGmass w s
  | .coll w => Sys2Proof.Machine.execColl w s
  | .trap w => Sys2Proof.Machine.execTrap w s
  | .eret w => Sys2Proof.Machine.execEret w s
  | .halt w => Sys2Proof.Machine.execHalt w s
  | .mqchk w => Sys2Proof.Machine.execMqchk w s
  | .shashSet w => Sys2Proof.Machine.execShashSet w s
  | .shashClr w => Sys2Proof.Machine.execShashClr w s
  | .sysr w => Sys2Proof.Machine.execSysr w s
  | .sysw w => Sys2Proof.Machine.execSysw w s
  | .ctxsvSave w => Sys2Proof.Machine.execCtxsvSave w s
  | .ctxsvRest w => Sys2Proof.Machine.execCtxsvRest w s
  | .clauseStart core slot => Sys2Proof.Machine.execClauseStart core slot s
  | .deschedule core slot pack => Sys2Proof.Machine.execDeschedule core slot pack s
  | .packEnter core slot => Sys2Proof.Machine.execPackEnter core slot s
  | .warpUrgent blk w => Sys2Proof.Machine.execWarpUrgent blk w s
  | .varComplete blk w op => Sys2Proof.Machine.execVarComplete blk w op s
  | .operationFault blk w op => Sys2Proof.Machine.execOperationFault blk w op s
  | .storePerform blk w => Sys2Proof.Machine.execStorePerform blk w s
  | .atomicGroup blk w slice => Sys2Proof.Machine.execAtomicGroup blk w slice s
  | .mqGateAdmit blk w slice => Sys2Proof.Machine.execMqGateAdmit blk w slice s
  | .l2Evict line => Sys2Proof.Machine.execL2Evict line s
  | .pageWalk core ctx va acc => Sys2Proof.Machine.execPageWalk core ctx va acc s
  | .fieldPair blk w => Sys2Proof.Machine.execFieldPair blk w s
  | .mmaEngineEntry blk w => Sys2Proof.Machine.execMmaEngineEntry blk w s
  | .gangRendezvous blk members => Sys2Proof.Machine.execGangRendezvous blk members s
  | .gangBroken blk members => Sys2Proof.Machine.execGangBroken blk members s
  | .copyPieceLand blk w op piece => Sys2Proof.Machine.execCopyPieceLand blk w op piece s
  | .waitPollTimer blk w op => Sys2Proof.Machine.execWaitPollTimer blk w op s
  | .sleepTimeout blk w op => Sys2Proof.Machine.execSleepTimeout blk w op s
  | .sleepComplete blk w op => Sys2Proof.Machine.execSleepComplete blk w op s
  | .batchRetire blk w cls => Sys2Proof.Machine.execBatchRetire blk w cls s
  | .cpybFinish x far => Sys2Proof.Machine.execCpybFinish x far s
  | .cpybRecord x => Sys2Proof.Machine.execCpybRecord x s
  | .remoteCpybArrive m => Sys2Proof.Machine.execRemoteCpybArrive m s
  | .cpybNoRoute x => Sys2Proof.Machine.execCpybNoRoute x s
  | .warpStop blk w => Sys2Proof.Machine.execWarpStop blk w s
  | .haltBroadcast blk => Sys2Proof.Machine.execHaltBroadcast blk s
  | .warpSlotFree blk w => Sys2Proof.Machine.execWarpSlotFree blk w s
  | .handlerEntry blk w => Sys2Proof.Machine.execHandlerEntry blk w s
  | .blockResume blk => Sys2Proof.Machine.execBlockResume blk s
  | .faultTimeout blk => Sys2Proof.Machine.execFaultTimeout blk s
  | .rmaWrite key off data => Sys2Proof.Machine.execRmaWrite key off data s
  | .rmaRead key off len => Sys2Proof.Machine.execRmaRead key off len s
  | .ueAtomic key off => Sys2Proof.Machine.execUeAtomic key off s
  | .doorbellWrite key off wc => Sys2Proof.Machine.execDoorbellWrite key off wc s
  | .packetFetch ring => Sys2Proof.Machine.execPacketFetch ring s
  | .launchPacket ctx => Sys2Proof.Machine.execLaunchPacket ctx s
  | .tlbInvalidatePacket ctx => Sys2Proof.Machine.execTlbInvalidatePacket ctx s
  | .codeMap ctx => Sys2Proof.Machine.execCodeMap ctx s
  | .codeUnmap ctx => Sys2Proof.Machine.execCodeUnmap ctx s
  | .completionRecord ring => Sys2Proof.Machine.execCompletionRecord ring s
  | .blockPlace launch => Sys2Proof.Machine.execBlockPlace launch s
  | .launchComplete launch => Sys2Proof.Machine.execLaunchComplete launch s
  | .partSet => Sys2Proof.Machine.execPartSet s
  | .partClear => Sys2Proof.Machine.execPartClear s
  | .zeroisation part => Sys2Proof.Machine.execZeroisation part s
  | .ctxSet => Sys2Proof.Machine.execCtxSet s
  | .runlistWrite => Sys2Proof.Machine.execRunlistWrite s
  | .ringRestart => Sys2Proof.Machine.execRingRestart s
  | .kill => Sys2Proof.Machine.execKill s
  | .tlbinv => Sys2Proof.Machine.execTlbinv s
  | .fwLoad => Sys2Proof.Machine.execFwLoad s
  | .attest => Sys2Proof.Machine.execAttest s
  | .mcReset => Sys2Proof.Machine.execMcReset s
  | .sliceExpiry ctx => Sys2Proof.Machine.execSliceExpiry ctx s
  | .higherClassReady ctx => Sys2Proof.Machine.execHigherClassReady ctx s
  | .graceExpiry ctx die => Sys2Proof.Machine.execGraceExpiry ctx die s
  | .killtExpiry ctx die => Sys2Proof.Machine.execKilltExpiry ctx die s
  | .contextSave ctx => Sys2Proof.Machine.execContextSave ctx s
  | .contextRestore ctx => Sys2Proof.Machine.execContextRestore ctx s
  | .engineDrained ctx engine => Sys2Proof.Machine.execEngineDrained ctx engine s
  | .killComplete ctx => Sys2Proof.Machine.execKillComplete ctx s
  | .softErrorCorrected die => Sys2Proof.Machine.execSoftErrorCorrected die s
  | .uncorrectableError loc ctx => Sys2Proof.Machine.execUncorrectableError loc ctx s
  | .l1TagError core line tag => Sys2Proof.Machine.execL1TagError core line tag s
  | .l2TagOrEvictError line tag => Sys2Proof.Machine.execL2TagOrEvictError line tag s
  | .scrub line => Sys2Proof.Machine.execScrub line s
  | .flitReceive link seq crcOk => Sys2Proof.Machine.execFlitReceive link seq crcOk s
  | .linkDown link far => Sys2Proof.Machine.execLinkDown link far s
  | .linkUp link far => Sys2Proof.Machine.execLinkUp link far s
  | .congestionMark ctl => Sys2Proof.Machine.execCongestionMark ctl s
  | .rateRecovery ctl => Sys2Proof.Machine.execRateRecovery ctl s
  | .collInstanceRun blk w op others => Sys2Proof.Machine.execCollInstanceRun blk w op others s
  | .collAbort blk w op => Sys2Proof.Machine.execCollAbort blk w op s
  | .gossipSnapshot ctx rgn chunk nbr => Sys2Proof.Machine.execGossipSnapshot ctx rgn chunk nbr s
  | .freeRunTick ctx rgn => Sys2Proof.Machine.execFreeRunTick ctx rgn s
  | .gossipMessageArrive m => Sys2Proof.Machine.execGossipMessageArrive m s
  | .gossipEnquiry msg => Sys2Proof.Machine.execGossipEnquiry msg s
  | .gossipDecisionLearned msg applied => Sys2Proof.Machine.execGossipDecisionLearned msg applied s
  | .powerOn => Sys2Proof.Machine.execPowerOn s
  | .railTimeout rail => Sys2Proof.Machine.execRailTimeout rail s
  | .powerOff => Sys2Proof.Machine.execPowerOff s
  | .bootStage digest signature pkg => Sys2Proof.Machine.execBootStage digest signature pkg s
  | .currentSample die amps tj => Sys2Proof.Machine.execCurrentSample die amps tj s
  | .thermalSustained die => Sys2Proof.Machine.execThermalSustained die s
  | .thermalShutdown die => Sys2Proof.Machine.execThermalShutdown die s
  | .reset => Sys2Proof.Machine.execReset s
  | .junctionAt105 die => Sys2Proof.Machine.execJunctionAt105 die s
  | .junctionBelow100 die tj => Sys2Proof.Machine.execJunctionBelow100 die tj s
  | .hostRmaCompletion id data => Sys2Proof.Machine.execHostRmaCompletion id data s

end Sys2Proof.Machine
end

