-- ==== Sys2Proof/Machine/Pick.lean ====
section
/-!
DEFINITION. What comes next: the fetch and execution of the word of a warp that stands inside a clause, and the choice
among the part's own events (DESIGN CHOICE, log entry 5).
-/
namespace Sys2Proof.Machine
open Sys2Proof

/-! ### Fetch and execution -/

/-- The word of the clause at which the focused warp stands. -/
def Mach.focusWord (m : Mach) : Option (Nat × Nat × Except Nat IWord) :=
  match m.focus with
  | none => none
  | some (b, w) =>
    match m.warp b w with
    | none => none
    | some (blk, x) =>
      match x.clause, x.stop with
      | some c, none => some (b, w, m.fetchWord blk.core blk.ctx c.word)
      | _, _ => none

/-- The machine with no warp in focus. -/
def State.unfocus (s : State) : State := { s with m := { s.m with focus := none } }

/-- A word that cannot be fetched inside a clause: a precise trap of its address, which executes again when the fault is
resolved (06_isa_control.md R133); uncorrectable data kills the context (16_die.md R300). -/
def State.fetchFault (s : State) (b w cause : Nat) : State :=
  match s.m.warp b w with
  | none => s
  | some (blk, x) =>
    match x.clause with
    | none => s
    | some c =>
      let info : FaultInfo :=
        { FaultInfo.zero with cause := cause, ia := c.word, fmask := (x.slot c.slot).mask, faddr := BitVec.ofNat 64 c.word, slot := c.slot }
      if isBadData cause then s.lift s.now ((s.m.foundFault blk.core blk.ctx info).kill s.now blk.ctx cause 2)
      else
        let stop : Stop :=
          { how := 0, cycle := s.now, cause := cause, kind := 0, info := info, rhdr := c.head, pos := c.pos, skid := 0 }
        s.lift s.now (s.m.setWarp b w { x with stop := some stop, clause := if c.pos = 0 then none else some c })

/-- The outcome of a step in which the focused warp's word runs. -/
def unfocused (r : Host.Outcome State Fault Refusal) : Host.Outcome State Fault Refusal :=
  match r with
  | .next s => .next s.unfocus
  | .fault f => .fault f
  | .refused f => .refused f

/-- The focused warp's word is fetched, decoded and executed. -/
def State.runFocus (s : State) : Host.Outcome State Fault Refusal :=
  match s.m.focusWord with
  | none => .next s.unfocus
  | some (b, w, .error cause) => .next (s.fetchFault b w cause).unfocus
  | some (_, _, .ok word) =>
    match decode word with
    | none => .refused .undecodableWord
    | some i => unfocused (exec i s)

/-! ### The part's own events -/

/-- The events of an operation. A wait reads its word again in every cycle, which keeps the 4096 cycles of
11_async_armature.md R238 and R241; a collective of one member needs no other (21_fabric.md R364). -/
def Mach.opEvents (m : Mach) (b w op : Nat) (blk : Block) (x : Warp) (o : Op) : List Instr :=
  let pieces : List Instr := match o.payload with
    | .copy _ _ _ _ _ _ ps _ => ps.map (fun p => Instr.copyPieceLand b w op p.1)
    | .coll _ _ _ _ (_ + 1) => [Instr.collInstanceRun b w op []]
    | _ => []
  (if m.pollEnds blk x o then [Instr.waitPollTimer b w op] else []) ++
  [Instr.operationFault b w op, Instr.varComplete b w op, Instr.sleepTimeout b w op, Instr.sleepComplete b w op] ++ pieces

/-- The events of a warp, in issue order of its operations. -/
def Mach.warpEvents (m : Mach) (b w : Nat) (blk : Block) (x : Warp) : List Instr :=
  let slices : List Nat := match x.queue with
    | [] => []
    | q :: _ => q.slices
  [Instr.warpStop b w, Instr.handlerEntry b w, Instr.storePerform b w, Instr.mmaEngineEntry b w, Instr.gangRendezvous b x.gang, Instr.gangBroken b x.gang,
   Instr.fieldPair b w] ++
  slices.map (fun k => Instr.mqGateAdmit b w k) ++ x.ops.foldr (fun e l => m.opEvents b w e.1 blk x e.2 ++ l) [] ++
  (List.range 4).map (fun k => Instr.batchRetire b w k) ++ [Instr.warpSlotFree b w]

/-- The events of a block. The causes of its halt are routed behind what its warps still do in the cycle (19_program_replay.md
R354). -/
def Mach.blockEvents (m : Mach) (b : Nat) (blk : Block) : List Instr :=
  blk.warps.foldr (fun e l => m.warpEvents b e.1 blk e.2 ++ l) [] ++ [Instr.haltBroadcast b, Instr.blockResume b, Instr.faultTimeout b]

/-- The events of an issue slot. -/
def Mach.slotEvents (m : Mach) (core slot : Nat) : List Instr :=
  (m.slotOf core slot).active.map (fun a => Instr.deschedule core slot a.1) ++ [Instr.packEnter core slot]

/-- The cores that hold blocks. -/
def Mach.liveCores (m : Mach) : List Nat := (m.blocks.map (fun e => e.2.core)).eraseDups

/-- The exchanges that a warp's GCTL.step asks for. -/
def stepEvents (ctx : Nat) (x : Warp) : List Instr :=
  x.ops.foldr (fun e l => match e.2.payload with
    | .gossip (.gctlStep f) a y _ => Instr.gossipSnapshot ctx (bitsAt f.mod 4 3) (e.2.once32 y) (e.2.once32 a) :: l
    | _ => l) []

/-- The events of a context. -/
def Mach.ctxEvents (m : Mach) (n : Nat) (c : Ctx) : List Instr :=
  c.engines.map (fun e => Instr.engineDrained n e) ++
  [Instr.killComplete n, Instr.completionRecord n, Instr.packetFetch n, Instr.launchPacket n, Instr.tlbInvalidatePacket n, Instr.codeMap n, Instr.codeUnmap n,
   Instr.higherClassReady n, Instr.sliceExpiry n, Instr.contextRestore n, Instr.contextSave n] ++
  c.preempt.foldr (fun p l => Instr.graceExpiry n p.die :: Instr.killtExpiry n p.die :: l) [] ++
  (m.blocks.filter (fun e => e.2.ctx = n)).foldr (fun e l => e.2.warps.foldr (fun w l => stepEvents n w.2 ++ l) l) [] ++
  c.gossip.map (fun g => Instr.freeRunTick n g.1)

/-- The events of the administrative ring. -/
def adminEvents : List Instr :=
  [Instr.partSet, Instr.partClear, Instr.ctxSet, Instr.runlistWrite, Instr.ringRestart, Instr.kill, Instr.tlbinv, Instr.fwLoad, Instr.attest, Instr.mcReset] ++
  (List.range 16).map (fun p => Instr.zeroisation p) ++ [Instr.completionRecord adminNo, Instr.packetFetch adminNo]

/-- The events of a bulk transfer that no other package has a part in. -/
def Mach.bulkEvents (m : Mach) (n : Nat) (x : Bulk) : List Instr :=
  (if m.side x.srcT = .far || m.side x.dstT = .far then [] else [Instr.cpybFinish n { cause := 0, landed := 0, data := [] }]) ++ [Instr.cpybRecord n]

/-- Every event that the part may bring about by itself, in the order in which the model looks for one. -/
def Mach.ownEvents (m : Mach) : List Instr :=
  m.blocks.foldr (fun e l => m.blockEvents e.1 e.2 ++ l) [] ++
  m.liveCores.foldr (fun c l => (List.range 4).foldr (fun k l => m.slotEvents c k ++ l) l) [] ++
  m.bulks.foldr (fun e l => m.bulkEvents e.1 e.2 ++ l) [] ++
  m.launches.foldr (fun e l => Instr.launchComplete e.1 :: Instr.blockPlace e.1 :: l) [] ++
  m.ctxs.foldr (fun e l => m.ctxEvents e.1 e.2 ++ l) [] ++ adminEvents ++
  m.gmsgs.map (fun e => Instr.gossipEnquiry e.1) ++ m.rates.map (fun e => Instr.rateRecovery e.1) ++
  m.dies.map (fun e => Instr.thermalSustained e.1)

/-- Whether an event occurs in a state. -/
def enabled (s : State) (i : Instr) : Bool :=
  match exec i s with
  | .next _ => true
  | .fault _ => false
  | .refused _ => false

/-- Whether the pack of a warp stands in the active set, its refill over (12_core_scheduling.md R258, R259). -/
def Mach.inActive (m : Mach) (t b w : Nat) (blk : Block) : Bool :=
  let p : PackId := { blk := b, k := blk.packOf w }
  (m.slotOf blk.core (p.k % 4)).active.any (fun a => a.1 = p && a.2 ≤ t)

/-- The warps that stand inside a clause and whose next word's issue cycle has come, the last of those that it occupies
(02_warp_state.md R43). -/
def Mach.due (m : Mach) (t : Nat) : List (Nat × Nat × Nat) :=
  m.blocks.foldr (fun e l =>
    if e.2.out || e.2.past || !m.alive e.2 then l
    else e.2.warps.foldr (fun w l => match w.2.clause, w.2.stop with
      | some c, none =>
        let at_ := c.next + m.wordCost e.2.core e.2.ctx c.word
        if at_ ≤ t && m.inActive t e.1 w.1 e.2 then (at_, e.1, w.1) :: l else l
      | _, _ => l) l) []

/-- What the machine does next of its own. -/
inductive Pick where
  | event (i : Instr)
  | issue (b w : Nat)
  /-- Nothing more in this cycle. -/
  | tick
  deriving DecidableEq, Repr

/-- The events that come before a clause's start in a cycle: the broadcast of a stop, and a warp's becoming urgent, which its slot
sees in that cycle (12_core_scheduling.md R265, R269). -/
def Mach.firstEvents (m : Mach) : List Instr :=
  (m.blocks.filter (fun e => !e.2.halted || e.2.routed)).map (fun e => Instr.haltBroadcast e.1) ++
  m.blocks.foldr (fun e l => ((e.2.warps.filter (fun w => 2048 ≤ w.2.readyFor)).map (fun w => Instr.warpUrgent e.1 w.1)) ++ l) []

/-- The choice (DESIGN CHOICE, log entry 5): the broadcast of a stop and a warp's urgency; then a clause's start; then the word that
has been due longest; then any other event of the part. -/
def State.pick (s : State) : Pick :=
  let m := s.m
  match m.firstEvents.find? (enabled s) with
  | some i => .event i
  | none =>
    match (m.liveCores.foldr (fun c l => (List.range 4).map (fun k => (.clauseStart c k : Instr)) ++ l) []).find? (enabled s) with
    | some i => .event i
    | none =>
      match bestOf (fun (a b : Nat × Nat × Nat) => decide (a.1 < b.1)) (m.due s.now) with
      | some (_, b, w) => .issue b w
      | none =>
        match m.ownEvents.find? (enabled s) with
        | some i => .event i
        | none => .tick

/-- The state with a warp in focus. -/
def State.focusOn (s : State) (b w : Nat) : State := { s with m := { s.m with focus := some (b, w) } }

/-- What the machine does when nothing comes from outside. -/
def State.advance (s : State) : Host.Outcome State Fault Refusal :=
  match s.pick with
  | .event i => exec i s
  | .issue b w => (s.focusOn b w).runFocus
  | .tick => .next (s.lift (s.now + 1) (s.m.countReady s.now))

/-! ### Placing one instruction -/

/-- LEN of the clause that holds a placed word: a control transfer ends its clause (03_encoding.md R58), so it stands
alone; any other word is the first of eight. -/
def placedLen (w : IWord) : BitVec 4 :=
  let op := bitsAt w 88 8
  if (0x60 ≤ op && op ≤ 0x66) || op = 0xE1 || op = 0xE2 then 0 else 7

/-- The block of the warp that runs a placed instruction: one warp of 64 lanes on core 0, inside a clause whose first
word comes next. -/
def placedBlock (t id : Nat) (len : BitVec 4) : Block :=
  let la : Launch := { Launch.none with width := 64, warps := 1, win := 256, uni := 64, acc := 1024, bst := 6144, prod := 0, nx := 1, ny := 1, nz := 1, scr := 1024, spd := 0 }
  let arm : Arm := .init
  let hdr : Header := { len := len, wait := 0, e1 := true, f1 := 0, e2 := true, f2 := 1, yp := false, rh := false }
  let cl : Clause := { hdr := hdr, head := 0, slot := 0, pos := 0, next := t, skip := 0, arm := arm, beats := [] }
  let b := la.block id t 0 0 0 [0]
  { b with warps := [(0, { Warp.launch t 64 0 with clause := some cl })] }

/-- The bytes of a clause whose header is followed by a word. -/
def placedBytes (w : IWord) : List Byte := leBytes (0xF8#8 ++ placedLen w ++ 0#84 : BitVec 96).toNat 12 ++ leBytes w.toNat 12

/-- A machine whose next step fetches and runs a word: its launch, block, partition, context and translation stand as a
launch would have left them, and the word lies in memory behind its clause's header (DESIGN CHOICE, log entry 71). -/
def State.place (s : State) (w : IWord) : State :=
  let id := s.m.nextId
  let la : Launch := { Launch.none with width := 64, warps := 1, win := 256, uni := 64, acc := 1024, bst := 6144, prod := 0, nx := 1, ny := 1, nz := 1, scr := 1024, nextB := 1 }
  let part : Part := { Part.init with cores := [0], cht := [0], exec := [(0, { win := 256, uni := 64, width := 64 })] }
  let ctx := Ctx.init.setWord 0 0x00020005#32
  let tlb : TlbEntry := { ctx := 0, va := 0, size := 2 ^ 16, pa := 0, w := false, x := true }
  { s with m := { s.m with
      inbox := [], focus := some (id, 0), bad := [], badL2 := [],
      mem := s.m.mem.setList 0 (placedBytes w),
      parts := s.m.parts.put 0 part, ctxs := s.m.ctxs.put 0 ctx, launches := s.m.launches.put id la,
      blocks := s.m.blocks.put id (placedBlock s.now id (placedLen w)), nextId := id + 1,
      utlb := s.m.utlb.put 0 [tlb], ctlb := s.m.ctlb.put 0 [tlb] } }

end Sys2Proof.Machine
end

