-- ==== Sys2Proof/Machine/Step.lean ====
section
/-!
DEFINITION. One step of the machine.
-/
namespace Sys2Proof.Machine
open Sys2Proof

/-- One step: what comes from outside first; then the word of the warp in focus; then what the machine does next of its
own. -/
def step (s : State) : Host.Outcome State Fault Refusal :=
  match s.m.inbox with
  | i :: rest => exec i { s with m := { s.m with inbox := rest } }
  | [] =>
    match s.m.focus with
    | some _ => s.runFocus
    | none => s.advance

/-- The state in which the next step fetches and runs the instruction whose table bits are `w`, every bit above `nbits`
being zero. -/
def State.withFetchWord (s : State) (nbits w : Nat) : State := s.place (BitVec.ofNat 96 (w % 2 ^ nbits))

end Sys2Proof.Machine
end

