-- ==== Sys2Proof/Safety.lean ====
section
/-! DEFINITION. What counts as a safe step, and the words in which the claims speak of an issue and of an event. -/
namespace Sys2Proof
open Sys2Proof.Machine

/-- The step from `s` answers a next state. -/
def Safe (s : State) : Prop := ∃ t, step s = .next t

/-- The warp in focus issues the well-formed instruction `i` in `s`, `c` being what the instruction sees, and no check that
comes before every instruction's own effect stops it: its unit is present (00_scope.md R3), and it reads no dead register under MODE.dchk
(02_warp_state.md R41). -/
def Issues (s : State) (i : Instr) (c : Cx) : Prop :=
  i.wf = true ∧ openCx i s = some c ∧ c.unitAbsent = false ∧
    (modeDchk c.mode && c.adm != 0 && c.sh.cls != .opf && c.w.readsDead c.sh c.f) = false

/-- The state after an issue whose effect leaves `d`: the killed sources are dead (R41) and the clause goes on to its next
instruction or ends (R33, R43). -/
def After (s : State) (c d : Cx) : State :=
  s.lift c.t ({ d with w := d.w.kill d.sh d.f }.advance).flush

/-- The state after an issue that traps precisely (04_numbers.md R88). -/
def AfterTrap (s : State) (c : Cx) (tr : Trap) : State := s.lift c.t (c.takeTrap tr).flush

/-- What an issue leaves that writes D in the admitted lanes, `lat` cycles after issue, `val` giving each lane's word, and
enters the result into the latches (02_warp_state.md R20, R31, R44). -/
def writes32 (c : Cx) (lat : Nat) (val : Nat → Word) : Cx := c.fixed lat true 0 (c.resultN 1 (fun l _ => val l))

/-- The same of a 64-bit destination, its low word first (R19). -/
def writes64 (c : Cx) (lat : Nat) (val : Nat → DWord) : Cx :=
  c.fixed lat true 0 (c.resultN 2 (fun l o => (val l).extractLsb' (32 * o) 32))

end Sys2Proof
end

