-- ==== Sys2Proof/Certificates/Slice0/Obligations.lean ====
section
/-! DEFINITION. The statements for the provers. What an instruction leaves is said first, in the words of its rule
(`Spec.<constructor>`); the statement says that its meaning answers that state. -/
namespace Sys2Proof.Spec
open Sys2Proof Sys2Proof.Machine

/-! ### Integer and address instructions (05_isa_arithmetic.md R100 to R103) -/

/-- The nearest of `x` to the signed range of `n` bits. -/
def clampS (n : Nat) (x : Int) : BitVec n := BitVec.ofInt n (max (-2 ^ (n - 1)) (min (2 ^ (n - 1) - 1) x))
/-- The nearest of `x` to the unsigned range of `n` bits. -/
def clampU (n : Nat) (x : Int) : BitVec n := BitVec.ofInt n (max 0 (min (2 ^ n - 1) x))

/-- The carry or borrow in: the lane's pCI under CIE, and 0 otherwise (R100). -/
def carryIn (w : CForm) (c : Cx) (l : Nat) : Nat :=
  if w.mod.getLsbD 3 ∧ (c.w.pred (w.mod.extractLsb' 0 3).toNat).getLsbD l then 1 else 0

/-- A 32-bit result and, under COE, the carry out into pCO (R100). -/
def withCarry (w : CForm) (c : Cx) (val : Nat → Word) (carry : Nat → Bool) : Cx :=
  c.fixed 1 true 0 { c.resultN 1 (fun l _ => val l) with
    preds := if w.mod.getLsbD 7 then [((w.mod.extractLsb' 4 3).toNat, c.where_ carry)] else [] }

def iadd (w : CForm) (c : Cx) : Cx :=
  let a (l : Nat) := c.rd w.a 0 l
  let b (l : Nat) := c.rd w.b 0 l
  if w.fn = 1 then writes32 c 1 (fun l => clampS 32 ((a l).toInt + (b l).toInt))
  else if w.fn = 2 then writes32 c 1 (fun l => clampU 32 ((a l).toNat + (b l).toNat))
  else if w.fn = 3 then
    withCarry w c (fun l => a l + b l + BitVec.ofNat 32 (carryIn w c l))
      (fun l => decide (2 ^ 32 ≤ (a l).toNat + (b l).toNat + carryIn w c l))
  else writes32 c 1 (fun l => a l + b l)

def isub (w : CForm) (c : Cx) : Cx :=
  let a (l : Nat) := c.rd w.a 0 l
  let b (l : Nat) := c.rd w.b 0 l
  if w.fn = 1 then writes32 c 1 (fun l => clampS 32 ((a l).toInt - (b l).toInt))
  else if w.fn = 2 then writes32 c 1 (fun l => BitVec.ofNat 32 ((a l).toNat - (b l).toNat))
  else if w.fn = 3 then
    withCarry w c (fun l => a l - b l - BitVec.ofNat 32 (carryIn w c l))
      (fun l => decide ((a l).toNat < (b l).toNat + carryIn w c l))
  else writes32 c 1 (fun l => a l - b l)

/-- The word of a product that FN names: low, signed high, unsigned high. -/
def mulHiLo (fn : BitVec 4) (a b : Word) : Word :=
  if fn = 1 then (a.signExtend 64 * b.signExtend 64).extractLsb' 32 32
  else if fn = 2 then (a.zeroExtend 64 * b.zeroExtend 64).extractLsb' 32 32
  else a * b

def imul (w : CForm) (c : Cx) : Cx := writes32 c 1 (fun l => mulHiLo w.fn (c.rd w.a 0 l) (c.rd w.b 0 l))

def imad (w : CForm) (c : Cx) : Cx :=
  writes32 c 1 (fun l => mulHiLo w.fn (c.rd w.a 0 l) (c.rd w.b 0 l) + c.rd w.c 0 l)

def imadw (w : CForm) (c : Cx) : Cx :=
  writes64 c 1 (fun l =>
    if w.fn = 0 then (c.rd w.a 0 l).signExtend 64 * (c.rd w.b 0 l).signExtend 64 + c.rd64 w.c l
    else (c.rd w.a 0 l).zeroExtend 64 * (c.rd w.b 0 l).zeroExtend 64 + c.rd64 w.c l)

def imnmx (w : CForm) (c : Cx) : Cx :=
  writes32 c 1 (fun l =>
    let a := c.rd w.a 0 l
    let b := c.rd w.b 0 l
    if w.fn = 0 then (if a.sle b then a else b)
    else if w.fn = 1 then (if a.sle b then b else a)
    else if w.fn = 2 then (if a ≤ b then a else b)
    else if a ≤ b then b else a)

def iabs (w : CForm) (c : Cx) : Cx :=
  writes32 c 1 (fun l =>
    let a := c.rd w.a 0 l
    if w.mod.getLsbD 0 ∧ a = 0x80000000#32 then 0x7FFFFFFF#32
    else if w.fn = 1 then -a
    else if a.msb then -a else a)

def lop (w : CForm) (c : Cx) : Cx :=
  writes32 c 1 (fun l =>
    let a := c.rd w.a 0 l
    let b := c.rd w.b 0 l
    if w.fn = 0 then a &&& b else if w.fn = 1 then a ||| b else if w.fn = 2 then a ^^^ b
    else if w.fn = 3 then a &&& ~~~b else if w.fn = 4 then a ||| ~~~b else if w.fn = 5 then ~~~(a ^^^ b)
    else ~~~a)

/-- A word by its bits. -/
def bits32 (f : Nat → Bool) : Word := BitVec.ofFnLE (fun j : Fin 32 => f j.val)

def lop3 (w : CForm) (c : Cx) : Cx :=
  writes32 c 1 (fun l =>
    let bit (o : Operand) (j : Nat) : Nat := if (c.rd o 0 l).getLsbD j then 1 else 0
    bits32 (fun j => w.mod.getLsbD (4 * bit w.a j + 2 * bit w.b j + bit w.c j)))

def shl (w : CForm) (c : Cx) : Cx := writes32 c 1 (fun l => c.rd w.a 0 l <<< min (c.rd w.b 0 l).toNat 32)

def shr (w : CForm) (c : Cx) : Cx :=
  writes32 c 1 (fun l =>
    if w.fn = 0 then c.rd w.a 0 l >>> (c.rd w.b 0 l).toNat else (c.rd w.a 0 l).sshiftRight (c.rd w.b 0 l).toNat)

def rot (w : CForm) (c : Cx) : Cx :=
  writes32 c 1 (fun l =>
    let n := (c.rd w.b 0 l).toNat % 32
    if w.fn = 0 then (c.rd w.a 0 l).rotateLeft n else (c.rd w.a 0 l).rotateRight n)

def shf (w : CForm) (c : Cx) : Cx :=
  writes32 c 1 (fun l =>
    let v : DWord := c.rd w.b 0 l ++ c.rd w.a 0 l
    let n := min (c.rd w.c 0 l).toNat 32
    if w.fn = 0 then (v.zeroExtend 96 <<< n).extractLsb' 32 32 else (v >>> n).extractLsb' 0 32)

def bfx (w : CForm) (c : Cx) : Cx :=
  writes32 c 1 (fun l =>
    let a := c.rd w.a 0 l
    let pos := ((c.rd w.b 0 l).extractLsb' 0 8).toNat
    let len := min ((c.rd w.b 0 l).extractLsb' 8 8).toNat 32
    let f (j : Nat) : Bool := if pos + j < 32 then a.getLsbD (pos + j) else w.fn = 1 && a.msb
    if len = 0 then 0 else bits32 (fun j => if j < len then f j else w.fn = 1 && f (len - 1)))

def bfi (w : CForm) (c : Cx) : Cx :=
  writes32 c 1 (fun l =>
    let a := c.rd w.a 0 l
    let pos := ((c.rd w.b 0 l).extractLsb' 0 8).toNat
    let len := min ((c.rd w.b 0 l).extractLsb' 8 8).toNat 32
    bits32 (fun i => if pos ≤ i ∧ i < pos + len then a.getLsbD (i - pos) else (c.rd w.c 0 l).getLsbD i))

def popc (w : CForm) (c : Cx) : Cx :=
  writes32 c 1 (fun l => BitVec.ofNat 32 ((List.range 32).countP (fun j => (c.rd w.a 0 l).getLsbD j)))

/-- The least position below 32 that `p` holds for; 32 where there is none. -/
def firstBit (p : Nat → Bool) : Word := BitVec.ofNat 32 (((List.range 32).find? p).getD 32)

def clz (w : CForm) (c : Cx) : Cx :=
  writes32 c 1 (fun l =>
    if w.fn = 0 then firstBit (fun j => (c.rd w.a 0 l).getLsbD (31 - j)) else firstBit (fun j => (c.rd w.a 0 l).getLsbD j))

def brev (w : CForm) (c : Cx) : Cx := writes32 c 1 (fun l => bits32 (fun j => (c.rd w.a 0 l).getLsbD (31 - j)))

def prmb (w : CForm) (c : Cx) : Cx :=
  writes32 c 1 (fun l =>
    let v : DWord := c.rd w.b 0 l ++ c.rd w.a 0 l
    let y (i : Nat) : Byte :=
      let s := (c.rd w.c 0 l).extractLsb' (4 * i) 4
      let x := v.extractLsb' (8 * (s.extractLsb' 0 3).toNat) 8
      if s.msb then (if x.msb then 0xFF#8 else 0#8) else x
    y 3 ++ y 2 ++ y 1 ++ y 0)

def iadd64 (w : CForm) (c : Cx) : Cx :=
  writes64 c 1 (fun l =>
    let a := c.rd64 w.a l
    let b := c.rd64 w.b l
    if w.fn = 1 then clampS 64 (a.toInt + b.toInt) else if w.fn = 2 then clampU 64 (a.toNat + b.toNat) else a + b)

def lea (w : CForm) (c : Cx) : Cx :=
  writes32 c 1 (fun l => c.rd w.a 0 l + c.rd w.b 0 l <<< (w.mod.extractLsb' 0 5).toNat)

def lea64 (w : CForm) (c : Cx) : Cx :=
  writes64 c 1 (fun l =>
    let b := c.rd w.b 0 l
    c.rd64 w.a l + (if w.mod.getLsbD 5 then b.signExtend 64 else b.zeroExtend 64) <<< (w.mod.extractLsb' 0 5).toNat)

/-- MOV copies one, two or four words (R100). -/
def mov (w : CForm) (c : Cx) : Cx :=
  c.fixed 1 true 0 (c.resultN (if w.fn = 2 then 4 else if w.fn = 1 then 2 else 1) (fun l o => c.rd w.a o l))

def movi (w : IForm) (c : Cx) : Cx :=
  if w.fn = 1 then writes64 c 1 (fun _ => w.imm.signExtend 64) else writes32 c 1 (fun _ => w.imm)

def sel (w : CForm) (c : Cx) : Cx :=
  let p (l : Nat) : Bool := (c.w.pred (w.mod.extractLsb' 0 3).toNat).getLsbD l
  let src (l : Nat) : Operand := if p l = w.mod.getLsbD 3 then w.b else w.a
  if w.mod.getLsbD 4 then writes64 c 1 (fun l => c.rd64 (src l) l) else writes32 c 1 (fun l => c.rd (src l) 0 l)

def idp4 (w : CForm) (c : Cx) : Cx :=
  writes32 c 1 (fun l =>
    let byte (o : Operand) (i : Nat) : Word :=
      let x := (c.rd o 0 l).extractLsb' (8 * i) 8
      if w.fn = 0 then x.signExtend 32 else x.zeroExtend 32
    c.rd w.c 0 l + byte w.a 0 * byte w.b 0 + byte w.a 1 * byte w.b 1 + byte w.a 2 * byte w.b 2 + byte w.a 3 * byte w.b 3)

/-- MIX.comb (R103). -/
def comb (h x : Word) : Word := ((h ^^^ x) * 0x2C1B3C6D#32).rotateLeft 13

def mix (w : CForm) (c : Cx) : Cx :=
  writes32 c 1 (fun l =>
    let a := c.rd w.a 0 l
    if w.fn = 1 then comb a (c.rd w.b 0 l)
    else
      let n := (w.mod.extractLsb' 0 2).toNat
      let h := comb 0 a
      let h := if 2 ≤ n then comb h (c.rd w.b 0 l) else h
      let h := if 3 ≤ n then comb h (c.rd w.c 0 l) else h
      h ^^^ (h >>> 16))

/-- IDIV (R102). -/
def idiv (w : CForm) (c : Cx) : Cx :=
  c.start none (.result (c.resultN 1 (fun l _ =>
    let a := c.rd w.a 0 l
    let b := c.rd w.b 0 l
    if w.fn = 0 then (if b = 0 then BitVec.allOnes 32 else a.sdiv b)
    else if w.fn = 1 then (if b = 0 then BitVec.allOnes 32 else a / b)
    else if w.fn = 2 then (if b = 0 then a else a.srem b)
    else if b = 0 then a else a % b)))

/-! ### Issues that may raise exceptions (04_numbers.md R88, R89) -/

/-- A fixed-latency instruction whose result is `r`: without an enabled exception it enters `r`; with one it traps
precisely, the cause being the first enabled one (R88). -/
def FixedExc (s : State) (i : Instr) (c : Cx) (lat : Nat) (latch : Bool) (r : Result) : Prop :=
  Issues s i c →
    exec i s = .next (match excCause c.mode r.flags with
      | none => After s c (c.fixed lat latch 0 r)
      | some k => AfterTrap s c { Trap.of k with exc := r.flags, lat := lat })

/-- The fault that an enabled exception gives a variable-latency instruction: it names the first lane that raised it (R89). -/
def excFault (c : Cx) (k : Nat) (xs : List (Nat × Num.Exc)) : FaultInfo :=
  { cause := k, ia := c.ia, fmask := c.adm, faddr := 0, xcode := 0, lane := (firstTrapLane c.mode k xs).getD 0xFF, slot := c.cl.slot }

/-- A variable-latency instruction of the warp whose result is `r`, each lane's exceptions being `xs`: it starts an
operation that will write `r`; with an enabled exception the operation faults and writes no lane (R89). With no admitted
lane it completes at issue (03_encoding.md R47). -/
def VarExc (s : State) (i : Instr) (c : Cx) (r : Result) (xs : List (Nat × Num.Exc)) : Prop :=
  Issues s i c →
    exec i s = .next (if c.adm = 0 then After s c c
      else match excCause c.mode r.flags with
      | none => After s c (c.startTracked c.flagNo none (.result r))
      | some k =>
        let d := c.startTracked c.flagNo none (.result { r with mask := 0, preds := [] })
        After s c { d with w := { d.w with
          ops := d.w.ops.upd c.w.nextOp (fun o => { o with fault := some (excFault c k xs) }) } })

/-- The result of a floating-point form of type FN: each element of each admitted lane by `g`, from its operands and
its random word (05_isa_arithmetic.md R104, R105). -/
def floatLanes (c : Cx) (fn : BitVec 4) (srcs : List Operand) (rand : Operand)
    (g : Num.Fmt → Num.Rnd → Nat → Nat → List Num.Val → Nat × Num.Exc) : List (Nat × Nat × Num.Exc) :=
  c.elementwise fn.toNat (fpFmt fn.toNat).bits srcs rand g
def floatResult (c : Cx) (fn : BitVec 4) (srcs : List Operand) (rand : Operand)
    (g : Num.Fmt → Num.Rnd → Nat → Nat → List Num.Val → Nat × Num.Exc) : Result :=
  c.resultOf (fpBits fn) (floatLanes c fn srcs rand g)

/-! ### Predicates and exchange across lanes (06_isa_control.md R115 to R125) -/

/-- The relation of CMP between two values by their order. -/
def relation (cmp : Nat) (o : Ordering) : Bool :=
  if cmp = 0 then o == .eq else if cmp = 1 then o != .eq else if cmp = 2 then o == .lt else if cmp = 3 then o != .gt
  else if cmp = 4 then o == .gt else o != .lt

/-- A comparison's outcome in the lanes of `m`, under INV and COMB, entering pN (R116). -/
def combined (w : CForm) (c : Cx) (n : Nat) (m : Mask) : Mask :=
  let x := if w.mod.getLsbD 10 then ~~~m else m
  let comb := (w.mod.extractLsb' 8 2).toNat
  if comb = 0 then x else if comb = 1 then c.w.pred n &&& x else if comb = 2 then c.w.pred n ||| x else c.w.pred n ^^^ x

/-- A result that is predicates alone. -/
def predResult (c : Cx) (ps : List (Nat × Mask)) (x : Num.Exc) : Result :=
  { dest := none, n := 0, wt := false, mask := c.adm, vals := [], preds := ps, flags := x }

def isetp (w : CForm) (c : Cx) : Cx :=
  let pd := (w.mod.extractLsb' 4 3).toNat
  let cmp := (w.mod.extractLsb' 0 3).toNat
  let rel (l : Nat) : Bool :=
    if w.mod.getLsbD 3 then
      relation cmp (if w.fn = 0 then compare (c.rd64 w.a l).toInt (c.rd64 w.b l).toInt
        else compare (c.rd64 w.a l).toNat (c.rd64 w.b l).toNat)
    else relation cmp (if w.fn = 0 then compare (c.rd w.a 0 l).toInt (c.rd w.b 0 l).toInt
        else compare (c.rd w.a 0 l).toNat (c.rd w.b 0 l).toNat)
  c.fixed 1 false 0 (predResult c [(pd, combined w c pd (c.where_ rel))] 0)

/-- Element i of an FSETP operand; a subnormal compares as zero under FTZ (R116). -/
def fsetpVal (w : CForm) (c : Cx) (o : Operand) (l i : Nat) : Num.Val :=
  let f := fpFmt w.fn.toNat
  Num.flush f (modeFtz c.mode) (Num.decodeF f (elemOf f.bits i (c.rdF f o l)))

/-- The relations of FSETP (R116). -/
def fsetpRel (cmp : Nat) (a b : Num.Val) : Bool :=
  let un := a.isNan || b.isNan
  if cmp = 6 then !un else if cmp = 7 then un
  else if cmp < 6 then !un && relation cmp (Num.cmp a b) else un || relation (cmp - 8) (Num.cmp a b)

/-- FSETP raises invalid for a signalling NaN, and for a quiet one under .lt, .le, .gt and .ge (R117). -/
def fsetpInvalid (cmp : Nat) (a b : Num.Val) : Bool :=
  a.isSnan || b.isSnan || ((a.isNan || b.isNan) && 2 ≤ cmp && cmp ≤ 5)

def fsetp (w : CForm) (c : Cx) : Result :=
  let cmp := (w.mod.extractLsb' 0 4).toNat
  let pd := (w.mod.extractLsb' 4 3).toNat
  let is := List.range (fpElems w.fn.toNat)
  let ms := is.map (fun i =>
    (pd + i, combined w c (pd + i) (c.where_ (fun l => fsetpRel cmp (fsetpVal w c w.a l i) (fsetpVal w c w.b l i)))))
  let bad := c.lanes.any (fun l => is.any (fun i => fsetpInvalid cmp (fsetpVal w c w.a l i) (fsetpVal w c w.b l i)))
  predResult c ms (if bad then Num.nv else 0)

def plop (w : CForm) (c : Cx) : Cx :=
  let x (l n : Nat) : Bool := w.mod.getLsbD n && (c.w.pred n).getLsbD l != w.mod.getLsbD (7 + n)
  let srcs := (List.range 7).countP (fun n => w.mod.getLsbD n)
  let trues (l : Nat) := (List.range 7).countP (x l)
  let red (l : Nat) : Bool :=
    let k := w.fn.toNat % 4
    if k = 0 then trues l = srcs else if k = 1 then 0 < trues l else if k = 2 then trues l % 2 = 1 else trues l = 1
  c.fixed 1 false 0 (predResult c
    [((w.mod.extractLsb' 14 3).toNat, c.where_ (fun l => if w.fn.toNat < 4 then red l else !red l))] 0)

def pmovP2v (w : CForm) (c : Cx) : Cx :=
  writes32 c 1 (fun l => bits32 (fun j => j < 8 && w.mod.getLsbD j && (c.w.pred j).getLsbD l))

def pmovV2p (w : CForm) (c : Cx) : Cx :=
  c.fixed 1 false 0 (predResult c (((List.range 7).filter (fun j => w.mod.getLsbD j)).map (fun j =>
    (j, c.where_ (fun l => (c.rd w.a 0 l).getLsbD j)))) 0)

def vote (w : CForm) (c : Cx) : Cx :=
  let v := c.where_ (fun l => (c.w.pred (w.mod.extractLsb' 0 3).toNat).getLsbD l != w.mod.getLsbD 3)
  if w.fn = 3 then writes64 c 1 (fun _ => v)
  else
    let b : Bool := if w.fn = 0 then v = c.adm else if w.fn = 1 then v ≠ 0 else v = 0 ∨ v = c.adm
    c.fixed 1 false 0 (predResult c [((w.mod.extractLsb' 4 3).toNat, if b then BitVec.allOnes 64 else 0)] 0)

/-- S, the lanes of a segment (R121). -/
def seg (w : CForm) (c : Cx) : Nat :=
  let k := (w.mod.extractLsb' 4 3).toNat
  min (if k = 0 then c.blk.width else if k = 1 then 8 else if k = 2 then 16 else 32) c.blk.width

/-- The lane that SHFL reads in lane L; none where it does not exist or is not admitted (R122). -/
def shflFrom (w : CForm) (c : Cx) (l : Nat) : Option Nat :=
  let s := seg w c
  let base := l - l % s
  let b := (c.rd w.b 0 l).toNat
  let ok (j : Nat) (p : Prop) [Decidable p] : Option Nat := if p ∧ c.adm.getLsbD j then some j else none
  if w.fn = 0 then ok (base + b % s) True
  else if w.fn = 1 then ok (l - b) (b < s ∧ base + b ≤ l)
  else if w.fn = 2 then ok (l + b) (b < s ∧ l + b < base + s)
  else ok (Nat.xor l (b % s)) True

def shfl (w : CForm) (c : Cx) : Cx :=
  let n := if w.mod.getLsbD 7 then 2 else 1
  let r := c.resultN n (fun l o => c.rd w.a o ((shflFrom w c l).getD l))
  c.fixed 4 true 0 (if w.mod.getLsbD 11 then
    { r with preds := [((w.mod.extractLsb' 8 3).toNat, c.where_ (fun l => (shflFrom w c l).isSome))] } else r)

/-- The admitted lanes of a lane's segment (R121). -/
def segLanes (w : CForm) (c : Cx) (l : Nat) : List Nat :=
  let s := seg w c
  (lanesOf c.adm 64).filter (fun j => l - l % s ≤ j && j < l - l % s + s)

/-- The reductions of WRED and WSCAN and their identities (R123). -/
def reduction (op : Nat) (xs : List Word) : Word :=
  if op = 0 then xs.foldl (· + ·) 0
  else if op = 1 then xs.foldl (fun a b => if b.slt a then b else a) 0x7FFFFFFF#32
  else if op = 2 then xs.foldl (fun a b => if a.slt b then b else a) 0x80000000#32
  else if op = 3 then xs.foldl (fun a b => if b < a then b else a) (BitVec.allOnes 32)
  else if op = 4 then xs.foldl (fun a b => if a < b then b else a) 0
  else if op = 5 then xs.foldl (· &&& ·) (BitVec.allOnes 32)
  else if op = 6 then xs.foldl (· ||| ·) 0
  else xs.foldl (· ^^^ ·) 0

def wred (w : CForm) (c : Cx) : Cx :=
  c.start none (.result (c.resultN 1 (fun l _ => reduction w.fn.toNat ((segLanes w c l).map (fun j => c.rd w.a 0 j)))))

def wscan (w : CForm) (c : Cx) : Cx :=
  c.start none (.result (c.resultN 1 (fun l _ =>
    reduction (w.mod.extractLsb' 12 3).toNat
      (((segLanes w c l).filter (fun j => if w.fn = 0 then j ≤ l else j < l)).map (fun j => c.rd w.a 0 j)))))

/-- MATCH: the mask of the segment's lanes that hold a lane's value (R125). -/
def matchR (w : CForm) (c : Cx) : Cx :=
  let v (l : Nat) : DWord := if w.mod.getLsbD 7 then c.rd64 w.a l else (c.rd w.a 0 l).zeroExtend 64
  let all (l : Nat) : Bool := (segLanes w c l).all (fun j => v j = v l)
  let mask (js : List Nat) : DWord := BitVec.ofNat 64 (js.foldl (fun a j => a + 2 ^ j) 0)
  let r := c.resultN 2 (fun l o =>
    (if w.fn = 0 then mask ((segLanes w c l).filter (fun j => v j = v l))
     else if all l then mask (segLanes w c l) else 0).extractLsb' (32 * o) 32)
  c.start none (.result (if w.fn = 1 ∧ w.mod.getLsbD 11 then
    { r with preds := [((w.mod.extractLsb' 8 3).toNat, c.where_ all)] } else r))

/-- WFRED: each lane's exact sum of its segment, rounded once with the lane's random word (R124). -/
def wfred (w : CForm) (c : Cx) : List (Nat × Nat × Num.Exc) :=
  let f := fpFmt w.fn.toNat
  (lanesOf c.adm 64).map (fun l =>
    let k := c.rounding (c.rd w.c 0 l).toNat
    let vs := inputs f k ((segLanes w c l).map (fun j => Num.decodeF f (c.rdF f w.a j)))
    (l, sumProducts f k vs [] vs))

/-- What each lane of a WFRED raised, by the lane that a trap names for it: the lowest admitted one of its segment (R124). -/
def wfredRaised (w : CForm) (c : Cx) : List (Nat × Num.Exc) :=
  (wfred w c).map (fun e => ((segLanes w c e.1).headD e.1, e.2.2))

/-! ### Warp state (R126 to R129) -/

/-- What S2V reads by SEL (R126). -/
def stateWord (c : Cx) (sel : Nat) : Word :=
  if sel = 1 then c.w.pix else if sel = 2 then c.w.flags else if sel = 3 then c.w.wprio.zeroExtend 32
  else if sel = 4 then c.w.shash else if sel = 5 then c.la.mode else if sel = 6 then c.caps.word
  else if 8 ≤ sel ∧ sel ≤ 15 then c.la.sig.getD (sel - 8) 0
  else if 16 ≤ sel ∧ sel ≤ 23 then c.la.nf.getD (sel - 16) 0
  else 0

def s2v (w : CForm) (c : Cx) : Cx :=
  if w.mod.extractLsb' 0 8 = 0 then c.start none (.readCyc (c.resultN 2 (fun _ _ => 0)))
  else writes32 c 1 (fun _ => stateWord c (w.mod.extractLsb' 0 8).toNat)

def flagsRd (_ : CForm) (c : Cx) : Cx := writes32 c 1 (fun _ => c.w.flags)

def flagsClr (w : CForm) (c : Cx) : Cx :=
  if c.adm = 0 then c
  else c.fixed 1 false (w.mod.extractLsb' 0 5) { predResult c [] 0 with mask := 0 }

def prio (w : CForm) (c : Cx) : Cx :=
  if c.adm = 0 then c
  else
    let n : BitVec 4 := if w.mod.getLsbD 4 then (c.rd w.a 0 0).extractLsb' 0 4 else w.mod.extractLsb' 0 4
    { c with w := { c.w with prioAt := some (c.t + 1, n) } }

/-- Writes bytes at their places, in order. -/
def put (f : FMap 8) (ks : List Nat) (bs : List Byte) : FMap 8 := (ks.zip bs).foldl (fun f e => f.set e.1 e.2) f

/-! ### Control flow (R130 to R139) -/

/-- The whole slot goes to an address; the other slot and the stack stay. -/
def toPc (c : Cx) (pc : Nat) : Cx :=
  { c with ctl := true, w := c.w.setSlot c.cl.slot { c.slot with pc := BitVec.ofNat 57 pc } }

/-- The slots and the stack as a control instruction leaves them: the issuing slot `p`, the other one `q`. -/
def setSlots (c : Cx) (p q : PcSlot) (stack : List StackEntry) : Cx :=
  { c with ctl := true, w := { (c.w.setSlot c.cl.slot p).setSlot (1 - c.cl.slot) q with stack := stack } }

/-- A direct target: the word's address plus 4 × the signed offset (03_encoding.md R48). -/
def target {n : Nat} (c : Cx) (off : BitVec n) : Nat := (((c.ia : Int) + 4 * off.toInt) % (2 ^ 57 : Nat)).toNat

/-- A direct target that a branch may take: within the branch's granule, which the scanner has checked, or a clause
header of a scanned granule (R62). -/
def goodTarget (c : Cx) (va : Nat) : Prop :=
  va / 2 ^ 16 = c.ia / 2 ^ 16 ∨ c.m.isHeader c.blk.core c.blk.ctx va = .ok true

/-- The entry of the reconvergence stack that a slot or an address and a mask make (02_warp_state.md R21). -/
def entry (pc : BitVec 57) (mask : Mask) : StackEntry := { rpc := pc, mask := mask }

/-- Two pushes, one after the other: first, where `o` is live, the slot `o` that is parked, and then `e` (R132, R135). -/
def pushes (c : Cx) (o : PcSlot) (e : StackEntry) : Except Trap Cx :=
  if o.mask = 0 then c.push e
  else match c.push (entry o.pc o.mask) with
    | .error t => .error t
    | .ok d => { d with w := d.w.setSlot (1 - d.cl.slot) .empty }.push e

/-- A direct branch to a target that is none: a word outside the branch's granule that is no clause header traps with BRX_TARGET,
and one whose granule cannot be fetched with the fault of the fetch, to be executed again (03_encoding.md R62, R133). -/
def BadTarget (s : State) (i : Instr) (c : Cx) (t : Nat) : Prop :=
  t / 2 ^ 16 ≠ c.ia / 2 ^ 16 →
    (c.m.isHeader c.blk.core c.blk.ctx t = .ok false → exec i s = .next (AfterTrap s c (Trap.of 0x08))) ∧
    ∀ k, c.m.isHeader c.blk.core c.blk.ctx t = .error k →
      exec i s = .next (AfterTrap s c { Trap.of k with faddr := BitVec.ofNat 64 t, redo := true })

/-- BRA (R132, R141): a divergent one leaves the join and a parked slot on the stack, and the clause that follows comes next. -/
def Bra (s : State) (w : TForm) (c : Cx) : Prop :=
  let m := c.slot.mask
  let f := m &&& ~~~c.adm
  let t := target c w.target
  let join := target c w.x
  let o := c.w.slot (1 - c.cl.slot)
  let split (d : Cx) (stack : List StackEntry) : Cx :=
    let e := setSlots d { pc := BitVec.ofNat 57 t, mask := c.adm } { pc := BitVec.ofNat 57 c.next, mask := f } stack
    { e with w := { e.w with nextFirst := true } }
  Issues s (.bra w) c →
    (c.adm = 0 → exec (.bra w) s = .next (After s c (toPc c c.next))) ∧
    (c.adm ≠ 0 → f = 0 → goodTarget c t → exec (.bra w) s = .next (After s c (toPc c t))) ∧
    (c.adm ≠ 0 → f ≠ 0 → w.x = 0 → exec (.bra w) s = .next (AfterTrap s c (Trap.of 0x07))) ∧
    (c.adm ≠ 0 → f ≠ 0 → w.x ≠ 0 → goodTarget c t → goodTarget c join → o.mask = 0 → c.w.stack.length < 32 →
      exec (.bra w) s = .next (After s c (split c (entry (BitVec.ofNat 57 join) m :: c.w.stack)))) ∧
    (c.adm ≠ 0 → f ≠ 0 → w.x ≠ 0 → goodTarget c t → goodTarget c join → o.mask ≠ 0 → c.w.stack.length < 31 →
      exec (.bra w) s = .next (After s c (split c (entry (BitVec.ofNat 57 join) m :: entry o.pc o.mask :: c.w.stack)))) ∧
    (c.adm ≠ 0 → f = 0 → BadTarget s (.bra w) c t) ∧ (c.adm ≠ 0 → f ≠ 0 → w.x ≠ 0 → BadTarget s (.bra w) c t) ∧
    (c.adm ≠ 0 → f ≠ 0 → w.x ≠ 0 → goodTarget c t → BadTarget s (.bra w) c join) ∧
    (c.adm ≠ 0 → f ≠ 0 → w.x ≠ 0 → goodTarget c t → goodTarget c join →
      exec (.bra w) s = .next (match pushes c o (entry (BitVec.ofNat 57 join) m) with
        | .ok d => After s c (split d d.w.stack)
        | .error e => AfterTrap s c e))

/-- BRX (R133). -/
def Brx (s : State) (w : CForm) (c : Cx) : Prop :=
  let t := (c.rd64 w.a c.lane).toNat % 2 ^ 57
  Issues s (.brx w) c →
    exec (.brx w) s = .next (if c.adm = 0 then After s c (toPc c c.next)
      else match c.m.isHeader c.blk.core c.blk.ctx t with
      | .ok true => After s c (toPc c t)
      | .ok false => AfterTrap s c (Trap.of 0x08)
      | .error k => AfterTrap s c { Trap.of k with faddr := BitVec.ofNat 64 t, redo := true })

/-- LOOP (R137): the whole slot goes to the target while a, in the lowest admitted lane, is nonzero. -/
def Loop (s : State) (w : IForm) (c : Cx) : Prop :=
  let t := target c w.imm
  Issues s (.loop w) c →
    (c.adm = 0 ∨ c.rd w.a 0 c.lane = 0 → exec (.loop w) s = .next (After s c (toPc c c.next))) ∧
    (c.adm ≠ 0 → c.rd w.a 0 c.lane ≠ 0 → goodTarget c t → exec (.loop w) s = .next (After s c (toPc c t))) ∧
    (c.adm ≠ 0 → c.rd w.a 0 c.lane ≠ 0 → BadTarget s (.loop w) c t)

/-- A push (02_warp_state.md R21, R22): onto a full on-chip stack it first writes the oldest entry at the end of the spill area,
and it traps where that area is full or cannot be reached, or where a handler runs (18_traps.md R342). -/
def Push (c : Cx) (e : StackEntry) : Prop :=
  let va := spillBase c.la c.blk c.wid + 16 * c.w.spilled.length
  (c.w.stack.length < 32 → c.push e = .ok { c with w := { c.w with stack := e :: c.w.stack } }) ∧
  (32 ≤ c.w.stack.length → c.w.shadow ≠ none → c.push e = .error { Trap.of 0x12 with mach := some c.m }) ∧
  (32 ≤ c.w.stack.length → c.w.shadow = none → c.la.spd ≤ c.w.spilled.length →
    c.push e = .error { Trap.of 0x09 with mach := some c.m }) ∧
  (∀ k a, 32 ≤ c.w.stack.length → c.w.shadow = none → c.w.spilled.length < c.la.spd → va + 16 ≤ 2 ^ 57 →
    c.m.coreKeys c.blk.core c.blk.ctx .write va 16 = .error (k, a) →
    c.push e = .error { Trap.of k with faddr := BitVec.ofNat 64 a, redo := true, mach := some c.m }) ∧
  ∀ ks x, c.w.stack.length = 32 → c.w.stack.getLast? = some x → c.w.shadow = none → c.w.spilled.length < c.la.spd →
    va + 16 ≤ 2 ^ 57 → c.m.coreKeys c.blk.core c.blk.ctx .write va 16 = .ok ks → c.m.bad = [] →
    c.m.warp c.bid c.wid = some (c.blk, c.w) →
    ∃ d, c.push e = .ok d ∧ d.w.stack = e :: c.w.stack.dropLast ∧ d.w.spilled = x :: c.w.spilled ∧ d.w.v = c.w.v ∧
      d.m.mem = put c.m.mem ks (leBytes x.rpc.toNat 8 ++ leBytes x.mask.toNat 8)

/-- CALL (R135): a live other slot is parked below the return point; the frame of an overflow resumes at the target (18_traps.md
R340). -/
def Call (s : State) (w : TForm) (c : Cx) : Prop :=
  let t := target c w.target
  let o := c.w.slot (1 - c.cl.slot)
  let ret := entry (BitVec.ofNat 57 c.next) c.slot.mask
  let p : PcSlot := { pc := BitVec.ofNat 57 t, mask := c.slot.mask }
  Issues s (.call w) c →
    (c.adm = 0 → exec (.call w) s = .next (After s c (toPc c c.next))) ∧
    (c.adm ≠ 0 → goodTarget c t → o.mask = 0 → c.w.stack.length < 32 →
      exec (.call w) s = .next (After s c (setSlots c p o (ret :: c.w.stack)))) ∧
    (c.adm ≠ 0 → goodTarget c t → o.mask ≠ 0 → c.w.stack.length < 31 →
      exec (.call w) s = .next (After s c (setSlots c p .empty (ret :: entry o.pc o.mask :: c.w.stack)))) ∧
    (c.adm ≠ 0 → BadTarget s (.call w) c t) ∧
    (c.adm ≠ 0 → goodTarget c t → exec (.call w) s = .next (match pushes c o ret with
      | .ok d => After s c (setSlots d p (if o.mask = 0 then o else .empty) d.w.stack)
      | .error e => AfterTrap s c (if e.cause = 0x09 then { e with next := some t } else e)))

/-- The view of a warp that ends: both slots empty, and the s registers that it owns are freed (R138, 11_async_armature.md R246). -/
def endsWarp (c : Cx) (exm : Mask) : Cx :=
  { c with ctl := true, blk := c.blk.freeOwned c.t c.wid, w := { c.w with exm := exm, ended := true, s0 := .empty, s1 := .empty } }

/-- Next(H), of a join in an executable granule: the clause's own where H is its header, else by the LEN that the header there has
(R130). -/
def joinNext (c : Cx) (h : Nat) : Nat := match c.nextOf h with
  | .ok a => a
  | .error _ => 0

/-- Every join on the stack lies in a granule that is still mapped executable. -/
def joinsOpen (c : Cx) : Prop := ∀ e ∈ c.w.stack, (c.nextOf e.rpc.toNat).isOk = true

/-- What Unwind finds on a stack that is all on chip (R134): the slots that go on, behind the join of the newest entry that still
has a lane and in the slot that was parked below it, and the entries left; none where no lane is left. -/
def unwound (c : Cx) (exm : Mask) : List StackEntry → Option (PcSlot × PcSlot × List StackEntry)
  | [] => none
  | [e] =>
    if e.mask &&& ~~~exm = 0 then none
    else some ({ pc := BitVec.ofNat 57 (joinNext c e.rpc.toNat), mask := e.mask &&& ~~~exm }, .empty, [])
  | e :: q :: below =>
    let l := e.mask &&& ~~~exm
    let k := q.mask &&& ~~~exm
    let s0 : PcSlot := if l = 0 then .empty else { pc := BitVec.ofNat 57 (joinNext c e.rpc.toNat), mask := l }
    if q.mask &&& e.mask ≠ 0 then (if l = 0 then unwound c exm (q :: below) else some (s0, .empty, q :: below))
    else if l = 0 ∧ k = 0 then unwound c exm below
    else some (s0, if k = 0 then .empty else { pc := q.rpc, mask := k }, below)

/-- An instruction that leaves both slots empty: Unwind finds where the warp goes on, and ends it where it finds nothing (R134). -/
def Unwinds (s : State) (i : Instr) (c : Cx) (exm : Mask) : Prop :=
  joinsOpen c → exec i s = .next (After s c (match unwound c exm c.w.stack with
    | some (p, q, below) => { c with ctl := true, w := { c.w with exm := exm, s0 := p, s1 := q, stack := below } }
    | none => { endsWarp c exm with w := { (endsWarp c exm).w with stack := [] } }))

/-- A slot of some lanes; an empty one where there are none. -/
def slotOf (pc : BitVec 57) (mask : Mask) : PcSlot := if mask = 0 then .empty else { pc := pc, mask := mask }

/-- A pop's fill (02_warp_state.md R21, R22): with an entry on chip or none spilled there is nothing to fill; otherwise the most
recently spilled entry comes back from the spill area, and one that the part did not write itself is cut to the lanes that have not
exited. A fill that does not translate is a memory fault of the warp. -/
def Fill (c : Cx) : Prop :=
  (c.w.stack ≠ [] ∨ c.w.spilled = [] → c.fill = .ok c) ∧
  ∀ x rest, c.w.stack = [] → c.w.spilled = x :: rest →
    let va := spillBase c.la c.blk c.wid + 16 * rest.length
    va + 16 ≤ 2 ^ 57 →
      (∀ k a, c.m.coreKeys c.blk.core c.blk.ctx .read va 16 = .error (k, a) →
        c.fill = .error { Trap.of k with faddr := BitVec.ofNat 64 a, redo := true, mach := some c.m }) ∧
      ∀ ks, c.m.coreKeys c.blk.core c.blk.ctx .read va 16 = .ok ks → c.w.queue = [] → c.m.bad = [] →
        let bs := ks.map (c.m.loadByte c.blk.part c.blk.core c.blk.ctx)
        ∃ d, c.fill = .ok d ∧ d.w.spilled = rest ∧ d.w.v = c.w.v ∧ d.w.exm = c.w.exm ∧ d.m.mem = c.m.mem ∧
          d.w.stack = [if bs = leBytes x.rpc.toNat 8 ++ leBytes x.mask.toNat 8 then x
            else entry (BitVec.ofNat 57 (leNat (bs.take 8))) (BitVec.ofNat 64 (leNat (bs.drop 8)) &&& (widthMask c.blk.width &&& ~~~c.w.exm))]

/-- The entry that was parked below a popped one: its mask shares no lane with it (R134). -/
def parkedBelow (g : Cx) (e : StackEntry) : Option StackEntry := g.w.stack.head?.filter (fun q => q.mask &&& e.mask = 0)
/-- The slot that it makes, and the stack without it. -/
def parkedSlot (g : Cx) (e : StackEntry) : PcSlot := ((parkedBelow g e).map (fun q => slotOf q.rpc (q.mask &&& ~~~g.w.exm))).getD .empty
def belowParked (g : Cx) (e : StackEntry) : List StackEntry := if (parkedBelow g e).isSome then g.w.stack.tail else g.w.stack

/-- Unwind (R134) from a view whose slots are both empty, entry by entry, each filled from the spill area where it must be: the warp
ends on an empty stack; a join that has lanes left and a slot that was parked go on; an entry without either is dropped. -/
inductive UnwindTo : Cx → Cx → Prop
  | ends (c f : Cx) : c.fill = .ok f → f.w.stack = [] → UnwindTo c (endsWarp f f.w.exm)
  | goesOn (c f g : Cx) (e : StackEntry) (rest : List StackEntry) (next : Nat) :
    c.fill = .ok f → f.w.stack = e :: rest → ({ f with w := { f.w with stack := rest } } : Cx).fill = .ok g →
    (e.mask &&& ~~~f.w.exm ≠ 0 → g.nextOf e.rpc.toNat = .ok next) →
    (e.mask &&& ~~~f.w.exm ≠ 0 ∨ parkedSlot g e ≠ .empty) →
    UnwindTo c { g with ctl := true, w := { g.w with
      s0 := slotOf (BitVec.ofNat 57 next) (e.mask &&& ~~~f.w.exm), s1 := parkedSlot g e, stack := belowParked g e } }
  | drops (c f g d : Cx) (e : StackEntry) (rest : List StackEntry) :
    c.fill = .ok f → f.w.stack = e :: rest → ({ f with w := { f.w with stack := rest } } : Cx).fill = .ok g →
    e.mask &&& ~~~f.w.exm = 0 → parkedSlot g e = .empty →
    UnwindTo { g with w := { g.w with stack := belowParked g e } } d → UnwindTo c d

/-- An instruction that leaves the view `d`, both slots empty: where Unwind leads is where the warp goes on, and a fill that fails
traps (R134, 02_warp_state.md R22). -/
def UnwindsFrom (s : State) (i : Instr) (c d : Cx) : Prop :=
  (∀ r, UnwindTo d r → exec i s = .next (After s c r)) ∧ ∀ t, d.fill = .error t → exec i s = .next (AfterTrap s c t)

/-- EXIT (R136, R138): the admitted lanes leave the slot; with the last lane of its width the warp ends. -/
def Exit (s : State) (w : ZForm) (c : Cx) : Prop :=
  let rest := c.slot.mask &&& ~~~c.adm
  let exm := c.w.exm ||| c.adm
  let all := widthMask c.blk.width &&& ~~~exm = 0
  let o := c.w.slot (1 - c.cl.slot)
  let gone (p : PcSlot) : Cx := { c with ctl := true, w := { c.w with exm := exm }.setSlot c.cl.slot p }
  Issues s (.exit w) c →
    (all → exec (.exit w) s = .next (After s c (endsWarp c exm))) ∧
    (¬all → rest ≠ 0 → exec (.exit w) s = .next (After s c (gone { pc := BitVec.ofNat 57 c.next, mask := rest }))) ∧
    (¬all → rest = 0 → o.mask ≠ 0 → exec (.exit w) s = .next (After s c (gone .empty))) ∧
    (¬all → rest = 0 → o = .empty → c.w.spilled = [] → Unwinds s (.exit w) c exm) ∧
    (¬all → rest = 0 → o = .empty → UnwindsFrom s (.exit w) c (gone .empty))

/-- RET (R135) with its return point, which may first come back from the spill area: the slot goes on there, and a slot that the call
parked comes back; where neither has a lane left, Unwind goes on. -/
def RetPops (s : State) (w : ZForm) (c : Cx) : Prop :=
  let m := c.slot.mask
  (∀ t, c.adm ≠ 0 → c.fill = .error t → exec (.ret w) s = .next (AfterTrap s c t)) ∧
  ∀ f e rest, c.adm ≠ 0 → c.fill = .ok f → f.w.stack = e :: rest →
    let d : Cx := { f with ctl := true, w := ({ f.w with stack := rest } : Warp).setSlot f.cl.slot (slotOf e.rpc (m &&& ~~~f.w.exm)) }
    (∀ t, d.fill = .error t → exec (.ret w) s = .next (AfterTrap s c t)) ∧
    ∀ g, d.fill = .ok g →
      let b : Cx :=
        if (g.w.slot (1 - g.cl.slot)).mask = 0 ∧ (parkedBelow g e).isSome then
          { g with w := ({ g.w with stack := g.w.stack.tail } : Warp).setSlot (1 - g.cl.slot) (parkedSlot g e) }
        else g
      widthMask b.blk.width &&& ~~~b.w.exm ≠ 0 →
        (b.w.s0.mask ≠ 0 ∨ b.w.s1.mask ≠ 0 → exec (.ret w) s = .next (After s c b)) ∧
        (b.w.s0 = .empty → b.w.s1 = .empty → UnwindsFrom s (.ret w) c b)

/-- RET (R135), its return point on the on-chip stack: the slot goes on there, and a slot that the call parked comes back.
On an empty stack RET acts as an EXIT of the whole slot. -/
def Ret (s : State) (w : ZForm) (c : Cx) : Prop :=
  let m := c.slot.mask
  let o := c.w.slot (1 - c.cl.slot)
  let back (e : StackEntry) : PcSlot := { pc := e.rpc, mask := m &&& ~~~c.w.exm }
  let live (exm : Mask) : Prop := widthMask c.blk.width &&& ~~~exm ≠ 0
  Issues s (.ret w) c →
    (c.adm = 0 → exec (.ret w) s = .next (After s c (toPc c c.next))) ∧
    match c.w.stack with
    | [] =>
      c.adm ≠ 0 → c.w.spilled = [] →
        (¬live (c.w.exm ||| m) → exec (.ret w) s = .next (After s c (endsWarp c (c.w.exm ||| m)))) ∧
        (live (c.w.exm ||| m) → o.mask ≠ 0 → exec (.ret w) s = .next (After s c
          { c with ctl := true, w := { c.w with exm := c.w.exm ||| m }.setSlot c.cl.slot .empty })) ∧
        (live (c.w.exm ||| m) → o = .empty → Unwinds s (.ret w) c (c.w.exm ||| m))
    | e :: rest =>
      c.adm ≠ 0 → m &&& ~~~c.w.exm ≠ 0 → live c.w.exm → (rest = [] → c.w.spilled = []) →
        exec (.ret w) s = .next (After s c (match rest with
          | [] => setSlots c (back e) o []
          | q :: below =>
            if o.mask = 0 ∧ q.mask &&& e.mask = 0 then setSlots c (back e) (slotOf q.rpc (q.mask &&& ~~~c.w.exm)) below
            else setSlots c (back e) o rest))

/-- RCV (R134): where the top entry names this clause and holds the slot's lanes, the slot arrives and waits for the other
one; when both have arrived, the joined lanes that have not exited go on in slot 0 behind the join's clause, and a slot that
was parked comes back in slot 1. Elsewhere RCV has no effect. -/
def Rcv (s : State) (w : ZForm) (c : Cx) : Prop :=
  let m := c.slot.mask
  let o := c.w.slot (1 - c.cl.slot)
  let falls : Prop := exec (.rcv w) s = .next (After s c (toPc c c.next))
  let joins (e : StackEntry) (p : PcSlot) (below : List StackEntry) : Prop :=
    exec (.rcv w) s = .next (After s c { c with ctl := true, w := { c.w with
      s0 := { pc := BitVec.ofNat 57 (joinNext c e.rpc.toNat), mask := e.mask &&& ~~~c.w.exm }, s1 := p, stack := below } })
  Issues s (.rcv w) c → widthMask c.blk.width &&& ~~~c.w.exm ≠ 0 →
    (c.skipped = true → falls) ∧
    match c.w.stack with
    | [] => c.skipped = false → c.w.spilled = [] → falls
    | e :: rest =>
      c.skipped = false →
        if e.rpc.toNat = c.cl.head ∧ m &&& ~~~e.mask = 0 then
          (o.mask ≠ 0 → exec (.rcv w) s = .next (After s c (setSlots c .empty o c.w.stack))) ∧
          (o = .empty → e.mask &&& ~~~c.w.exm ≠ 0 →
            match rest with
            | [] => c.w.spilled = [] → joins e .empty []
            | q :: below =>
              if q.mask &&& e.mask ≠ 0 then joins e .empty rest
              else q.mask &&& ~~~c.w.exm ≠ 0 → joins e { pc := q.rpc, mask := q.mask &&& ~~~c.w.exm } below) ∧
          (o = .empty → c.w.spilled = [] → Unwinds s (.rcv w) c c.w.exm)
        else falls

/-- RCV (R134) with its top entry, which may first come back from the spill area: the slot arrives or falls through, and with the
other slot empty Unwind goes on. -/
def RcvPops (s : State) (w : ZForm) (c : Cx) : Prop :=
  (∀ t, c.skipped = false → c.fill = .error t → exec (.rcv w) s = .next (AfterTrap s c t)) ∧
  ∀ f e rest, c.skipped = false → c.fill = .ok f → f.w.stack = e :: rest → widthMask f.blk.width &&& ~~~f.w.exm ≠ 0 →
    let d : Cx := { f with ctl := true, w := f.w.setSlot f.cl.slot .empty }
    let here : Prop := e.rpc.toNat = f.cl.head ∧ f.slot.mask &&& ~~~e.mask = 0
    (¬here → exec (.rcv w) s = .next (After s c (toPc f f.next))) ∧
    (here → (f.w.slot (1 - f.cl.slot)).mask ≠ 0 → exec (.rcv w) s = .next (After s c d)) ∧
    (here → f.w.slot (1 - f.cl.slot) = .empty → UnwindsFrom s (.rcv w) c d)

/-- BKPT and TRAP: a precise trap that carries X when a lane is admitted, and nothing otherwise (R139, 18_traps.md R345). -/
def TrapCode (s : State) (i : Instr) (cause : Nat) (x : Word) (c : Cx) : Prop :=
  Issues s i c →
    (c.adm ≠ 0 → exec i s = .next (AfterTrap s c { Trap.of cause with xcode := x })) ∧
    (c.adm = 0 → exec i s = .next (After s c c))

/-- With an admitted lane an issue of `i` leaves `d`; with none it has no effect (03_encoding.md R47). -/
def Acts (s : State) (i : Instr) (c d : Cx) : Prop :=
  Issues s i c → exec i s = .next (After s c (if c.adm = 0 then c else d))

/-! ### Core memory (07_core_memory.md R149 to R168) -/

/-- The size of an access of LD or ST, in bytes (R153). -/
def memSize (w : CForm) : Nat := 2 ^ (w.mod.extractLsb' 15 3).toNat

/-- A lane's address: base, index under IX and scaled offset, in 64 bits for .g and in 32 elsewhere (R149). -/
def address (w : CForm) (c : Cx) (sp : Space) (size l : Nat) : Nat :=
  let base : Int := if sp = .g then (c.rd64 w.a l).toNat else (c.rd w.a 0 l).toNat
  let index : Int := if w.mod.getLsbD 13 then (c.rd w.b 0 l).toInt else 0
  ((base + index + (w.mod.extractLsb' 0 9).toInt * (size : Int)) % (2 ^ (if sp = .g then 64 else 32) : Nat)).toNat

/-- The admitted lanes with their addresses. -/
def addresses (w : CForm) (c : Cx) (sp : Space) (size : Nat) : List (Nat × Nat) :=
  c.lanes.map (fun l => (l, address w c sp size l))

/-- The places of every lane. -/
def placesOf (ks : List (Nat × List Nat)) : List Nat := ks.foldr (fun e l => e.2 ++ l) []

/-- LD (R154) of accesses that pass their checks (R170), while nothing earlier of the warp holds it back (R156, R161,
R163): its bytes are those of the youngest queued stores or of memory, and it writes them into D at its completion. -/
def Ld (s : State) (w : CForm) (c : Cx) : Prop :=
  let sp := spaceOf w.fn.toNat
  let size := memSize w
  let acq := w.mod.getLsbD 12
  Issues s (.ld w) c →
    (c.adm = 0 → exec (.ld w) s = .next (After s c c)) ∧
    ∀ m ks, c.adm ≠ 0 →
      c.m.checkLanes c.blk c.la sp false .read size c.ia c.cl.slot (addresses w c sp size) = (m, .ok ks) →
      c.w.loadWaits c.w.seq sp acq (placesOf ks) = false → (sp = .g → m.anyBad (placesOf ks) = false) →
      exec (.ld w) s = .next (After s c (
        let m := if acq then m.acquire c.blk.part c.blk.core c.blk.ctx (scopeIn sp (w.mod.extractLsb' 9 3).toNat) else m
        let (m, bs) := m.loadLanes c.block c.la c.w.queue c.t sp ks
        ({ c with m := m }).start none (.result (loadResult w.d w.hint.wt c.adm size (w.mod.getLsbD 14) bs))))

/-- Byte `k` of a block's own space: the scratchpad, the parameter area or a register row (R147, R148). -/
def ownByte (c : Cx) (sp : Space) (k : Nat) : Byte :=
  match sp with
  | .s => c.blk.scratch.get k
  | .c => c.la.param.getD k 0
  | _ =>
    match c.block.warp (k / 2 ^ 16) with
    | some x => ((x.settle c.t).reg (k / 2 ^ 8 % 256) (k / 4 % 64)).extractLsb' (8 * (k % 4)) 8
    | none => 0

/-- Whether a byte lies in a block's own space (R148, R149). -/
def inOwn (c : Cx) (sp : Space) (k : Nat) : Prop :=
  match sp with
  | .s => k < c.la.scr
  | .c => k < c.la.param.length
  | _ => k / 2 ^ 16 < c.blk.warpCount ∧ k / 2 ^ 8 % 256 < c.la.win ∧ k / 4 % 64 < c.blk.width ∧ k < 2 ^ 22

/-- LD of a block's own space, with no store queued and no operation in flight: every lane receives its little-endian
bytes, extended to 32 bits under SX by their sign (R154, 00_scope.md R5). -/
def LdOwn (s : State) (w : CForm) (c : Cx) : Prop :=
  let sp := spaceOf w.fn.toNat
  let size := memSize w
  let bytes (l : Nat) : List Byte := (List.range size).map (fun i => ownByte c sp (address w c sp size l + i))
  let value (l : Nat) : Nat :=
    if w.mod.getLsbD 14 ∧ size < 4 then ((BitVec.ofNat (8 * size) (leNat (bytes l))).signExtend 32).toNat else leNat (bytes l)
  Issues s (.ld w) c → c.adm ≠ 0 → w.fn ≠ 0 → c.w.queue = [] → c.w.ops = [] →
    (∀ l ∈ c.lanes, ∀ i < size, inOwn c sp (address w c sp size l + i)) →
    exec (.ld w) s = .next (After s c (c.start none
      (.result (c.resultN (max 1 (size / 4)) (fun l o => BitVec.ofNat 32 (value l / 2 ^ (32 * o)))))))

/-- LD of global memory whose lines the L1 does not hold, with no store queued and no operation in flight: every lane receives the
bytes that its home slices hold at its places, extended to 32 bits under SX by their sign (R154, 15_cluster.md R278). -/
def LdGlobal (s : State) (w : CForm) (c : Cx) : Prop :=
  let size := memSize w
  Issues s (.ld w) c → ∀ m ks, c.adm ≠ 0 → w.fn = 0 → c.w.queue = [] → c.w.ops = [] → c.m.bad = [] →
    c.m.checkLanes c.blk c.la .g false .read size c.ia c.cl.slot (addresses w c .g size) = (m, .ok ks) →
    (∀ k ∈ placesOf ks, c.m.l1Find (c.m.l1Core c.blk.part c.blk.core (k / 128)) c.blk.ctx (k / 128) = none) →
    let bytes (l : Nat) : List Byte := (((ks.find? (fun e => e.1 = l)).map (·.2)).getD []).map c.m.mem.get
    let value (l : Nat) : Nat :=
      if w.mod.getLsbD 14 ∧ size < 4 then ((BitVec.ofNat (8 * size) (leNat (bytes l))).signExtend 32).toNat else leNat (bytes l)
    ∃ m', m'.mem = c.m.mem ∧ exec (.ld w) s = .next (After s c (({ c with m := m' } : Cx).start none
      (.result (c.resultN (max 1 (size / 4)) (fun l o => BitVec.ofNat 32 (value l / 2 ^ (32 * o)))))))

/-- An operation that is started and whose fold of SHASH takes its place in program order (02_warp_state.md R29). -/
def folding (c d : Cx) : Cx := { d with w := { d.w with folds := d.w.folds ++ [.waiting c.w.nextOp] } }

/-- The bytes that a lane stores: the low bytes of C. -/
def storeBytes (w : CForm) (c : Cx) (size l : Nat) : List Byte :=
  ((List.range ((size + 3) / 4)).foldr (fun o bs => leBytes (c.rd w.c o l).toNat 4 ++ bs) []).take size

/-- ST (R155) of accesses that pass their checks: it enters the warp's store queue as one entry and folds its addresses and
words into SHASH. Memory does not change before the entry performs. -/
def St (s : State) (w : CForm) (c : Cx) : Prop :=
  let sp := spaceOf w.fn.toNat
  let size := memSize w
  let as := addresses w c sp size
  Issues s (.st w) c →
    (c.adm = 0 → exec (.st w) s = .next (After s c c)) ∧
    ∀ m ks, c.adm ≠ 0 → c.m.checkLanes c.blk c.la sp false .write size c.ia c.cl.slot as = (m, .ok ks) →
      let acc : List LaneAcc := storeAcc size as ks (storeBytes w c size)
      let d := folding c (({ c with m := m }).start none (.sourcesRead (foldWords (acc.map (fun (a : LaneAcc) => (a.addr, a.data)))) 0))
      exec (.st w) s = .next (After s c { d with w := { d.w with queue := c.w.queue ++
        [{ seq := c.w.seq, space := sp, rel := w.mod.getLsbD 12, acq := false,
           scope := scopeIn sp (w.mod.extractLsb' 9 3).toNat, kind := .store acc }] } })

/-- An access that fails its checks never traps at issue: the operation is in flight with its fault (R170, 02_warp_state.md R24). -/
def MemFault (s : State) (i : Instr) (w : CForm) (c : Cx) (acc : Access) : Prop :=
  let sp := spaceOf w.fn.toNat
  let size := memSize w
  Issues s i c → ∀ m e, c.adm ≠ 0 →
    c.m.checkLanes c.blk c.la sp false acc size c.ia c.cl.slot (addresses w c sp size) = (m, .error e) →
    ∃ d : Cx, exec i s = .next (After s c d) ∧ d.w.queue = c.w.queue ∧ d.w.v = c.w.v ∧ d.w.nextOp = c.w.nextOp + 1 ∧
      (d.w.ops.find c.w.nextOp).bind (·.fault) = some e

/-- PRF (R157): it never faults, and nothing changes but what the L1 holds, the tags of the lines that it finds dirty (16_die.md
R289) and the counts of the bad granules that it finds (R301). -/
def Prf (s : State) (w : CForm) (c : Cx) : Prop :=
  Issues s (.prf w) c → ∃ l1 dirty dies, exec (.prf w) s =
    .next (After s c (({ c with m := { c.m with l1 := l1, dirty := dirty, dies := dies } }).start none (.sourcesRead [] 0))) ∧
    (c.m.bad = [] → dies = c.m.dies)

/-- OPF (R158, R159): entry k of the buffer receives the k-th register that its runs name, in every lane of the width; it is
dead where the register is. Under RH the region's map names exactly those registers. Nothing else of the warp changes. -/
def Opf (s : State) (w : CForm) (c : Cx) : Prop :=
  Issues s (.opf w) c → ∃ buf deadB map, exec (.opf w) s =
      .next (After s c { c with w := { c.w with buf := buf, deadB := deadB, map := map } }) ∧
    (∀ k, k < (opfRegs w.fields).length →
      (∀ l < min c.blk.width 64, (if deadB.getLsbD k then 0 else buf.get (regKey k l)) = c.w.reg ((opfRegs w.fields).getD k 0) l) ∧
      deadB.getLsbD k = c.w.deadV.getLsbD ((opfRegs w.fields).getD k 0)) ∧
    (∀ k, (opfRegs w.fields).length ≤ k → k < 16 →
      deadB.getLsbD k = c.w.deadB.getLsbD k ∧ ∀ l < 64, buf.get (regKey k l) = c.w.buf.get (regKey k l)) ∧
    (c.cl.hdr.rh = false → map = c.w.map) ∧
    (c.cl.hdr.rh = true → ∀ k < 16, map.get k =
      if k < (opfRegs w.fields).length then BitVec.ofNat 9 (256 + (opfRegs w.fields).getD k 0) else 0)

/-- CMNT (R160), read once in the lowest admitted lane: an empty range is nothing. A range that translates is widened to whole lines:
.inv and .wbinv drop its lines of the context from the L1 that serves the core, .wb and .wbinv write its dirty lines of the context
back, and no byte of memory changes. That it acts at issue, before the warp's queued stores, is log entry 89 (DESIGN CHOICE). -/
def Cmnt (s : State) (w : CForm) (c : Cx) : Prop :=
  let a := (c.rd64 w.a c.lane).toNat
  let n := (c.rd w.b 0 c.lane).toNat
  let op := (w.mod.extractLsb' 0 2).toNat
  let lo := a / 128 * 128
  let hi := (a + n + 127) / 128 * 128
  Issues s (.cmnt w) c →
    (c.adm = 0 ∨ n = 0 → exec (.cmnt w) s = .next (After s c c)) ∧
    ∀ rs, c.adm ≠ 0 → n ≠ 0 → hi ≤ 2 ^ 57 → c.flush.bad = [] →
      c.flush.coreRanges c.blk.core c.blk.ctx (granuleChunks ((hi - lo) / 2 ^ 16 + 2) lo (hi - lo)) = .ok rs →
      let hit (line : Nat) : Bool := inRanges (c.flush.part c.blk.part) rs line
      ∃ dirty, exec (.cmnt w) s = .next (After s c ((c.reload { c.flush with
          l1 := if op = 1 then c.flush.l1
            else c.flush.l1.filter (fun e => !(e.ctx = c.blk.ctx && c.flush.l1Core c.blk.part c.blk.core e.line = e.core && hit e.line))
          dirty := dirty }).start none (.sourcesRead [] 0))) ∧
        (op = 0 → dirty = c.flush.dirty) ∧
        (op ≠ 0 → ∀ e ∈ c.flush.dirty, e.2.ctx = c.blk.ctx → hit e.1 = true → dirty.find e.1 = none) ∧
        ∀ line, (∀ e ∈ c.flush.dirty, e.1 = line → e.2.ctx ≠ c.blk.ctx ∨ hit line = false) → dirty.find line = c.flush.dirty.find line

/-- FENCE (R161): an operation of its kind and scope, which completes when the earlier accesses have performed. -/
def fence (w : CForm) (c : Cx) : Cx := c.start none (.fence w.fn.toNat (w.mod.extractLsb' 9 3).toNat)

/-- The read-modify-write operation of an atomic (R166). -/
def rmw (i : Instr) (w : CForm) : RmwOp :=
  match i with
  | .axch _ => .xchg
  | .acas _ => .cas
  | .amnmx _ => .mnmx (w.mod.extractLsb' 8 2)
  | .alop _ => .lop (w.mod.extractLsb' 8 2)
  | .agadd _ => .gadd (w.mod.extractLsb' 0 8)
  | .ainc _ => .inc
  | _ => .add

/-- An atomic (R165 to R168) whose addresses pass their checks: it enters the store queue as one entry with its operands as
they stood at issue. A returning one folds into SHASH when it returns; .red returns nothing. -/
def Atomic (s : State) (i : Instr) (w : CForm) (c : Cx) : Prop :=
  let sp : Space := if w.mod.getLsbD 16 then .s else .g
  let size := if w.mod.getLsbD 17 then 8 else 4
  let as := c.lanes.map (fun l => (l, if sp = .g then (c.rd64 w.a l).toNat else (c.rd w.a 0 l).toNat))
  let b := c.atomicB (rmw i w) (size / 4)
  let x := c.capture w.c (size / 4)
  Issues s i c →
    (c.adm = 0 → exec i s = .next (After s c c)) ∧
    ∀ m ks, c.adm ≠ 0 → c.m.checkLanes c.blk c.la sp true .write size c.ia c.cl.slot as = (m, .ok ks) →
      let d := ({ c with m := m }).start none (atomicPayload w.fields (rmw i w) c.adm b)
      let d := if w.fn = 1 then d else folding c d
      exec i s = .next (After s c { d with w := { d.w with
        queue := c.w.queue ++ [atomicEntry c.w.seq c.w.nextOp w.fields (rmw i w) b x as ks] } })

/-! ### The field unit (08_field_unit.md R188 to R191) -/

/-- A binary32 operand's patterns in the admitted lanes. -/
def floatLanesOf (c : Cx) (o : Operand) : FMap 32 := valsOf 1 c.lanes (fun l _ => BitVec.ofNat 32 (c.rdF Num.f32 o l))

/-- Axes and channels that a field instruction names (R187). -/
def axes (w : CForm) : Nat := (w.mod.extractLsb' 8 2).toNat + 1
def chans (w : CForm) : Nat := (w.mod.extractLsb' 10 2).toNat + 1

/-- FBIND, FLD, FLDG and FWT enter the unit with their sources. -/
def fieldOp (i : Instr) (a b : FMap 32) (c : Cx) : Cx := c.start none (.field i a b)

/-- Coordinates, values and gammas are binary32 sources: where one register holds them an inline constant is its value (R188,
03_encoding.md R53). -/
def floatRun (c : Cx) (o : Operand) (n : Nat) : FMap 32 := if n = 1 then floatLanesOf c o else c.capture o n

/-- FST and FSTG enter the unit's queue with their sources (R191). -/
def splatOp (i : Instr) (w : CForm) (nb : Nat) (c : Cx) : Cx :=
  let d := c.start none (.splat i (floatRun c w.a (axes w)) (floatRun c w.b nb) [] [] false 0)
  { d with w := { d.w with fieldQ := c.w.fieldQ ++ [c.w.nextOp] } }

/-- FDRN and FCLR join the open .fd batch and set no flag (R190). -/
def fieldBulk (i : Instr) (c : Cx) : Cx :=
  let d := c.startTracked none (some 2) (.splat i [] [] [] [] false 0)
  { d with w := { d.w with
    ops := d.w.ops.upd c.w.nextOp (fun o => { o with flagDone := true })
    fieldQ := c.w.fieldQ ++ [c.w.nextOp] } }

/-! ### The matrix engine (10_matrix.md R209, R222) -/

/-- A matrix instruction joins the open .mx batch and enters the engine's queue with its operands. -/
def matrixOp (i : Instr) (a b x : FMap 32) (c : Cx) : Cx :=
  let d := c.start (some 1) (.matrix i a b x [] false)
  { d with w := { d.w with matQ := c.w.matQ ++ [c.w.nextOp] } }

/-! ### Copies, batches and barriers (11_async_armature.md R228 to R242) -/

/-- CPY (R231 to R234): by any warp but the producer it traps; otherwise its checks come first, an empty copy is complete
for its batch at once, and another one moves its pieces, cut at every multiple of 16. -/
def Cpy (s : State) (w : CForm) (c : Cx) : Prop :=
  let dir := (w.mod.extractLsb' 0 2).toNat
  let dst := if dir = 1 then (c.rd64 w.a c.lane).toNat else (c.rd w.a 0 c.lane).toNat
  let src := if dir = 0 then (c.rd64 w.b c.lane).toNat else (c.rd w.b 0 c.lane).toNat
  let n := (c.rd w.c 0 c.lane).toNat
  let bar := (c.rd w.c 1 c.lane).toNat
  Issues s (.cpy w) c →
    (c.adm = 0 → exec (.cpy w) s = .next (After s c c)) ∧
    (c.adm ≠ 0 → c.blk.prod = 0xFF ∨ c.wid ≠ c.blk.prod → exec (.cpy w) s = .next (AfterTrap s c (Trap.of 0x0D))) ∧
    (c.adm ≠ 0 → c.blk.prod ≠ 0xFF → c.wid = c.blk.prod → copyCheck c.la dir dst src n bar = none →
      exec (.cpy w) s = .next (After s c (
        if n = 0 then
          let d := c.start (some 0) (.sourcesRead [] 0)
          { d with w := { d.w with ops := d.w.ops.upd c.w.nextOp (fun o => { o with batchDone := true }) } }
        else c.start (some 0) (.copy dir dst src n (if bar = 0xFFFFFFFF then none else some bar) none
          (copyPieces (n / 16 + 2) dst 0 n) false))))

/-- CPYB (R231, R235): with a record that is in order it reads its ring's descriptor as a load of the warp does (06_isa_control.md
R142, R143), and enters the block-transfer engine; where that load has to wait, so does the CPYB. -/
def Cpyb (s : State) (w : CForm) (c : Cx) : Prop :=
  let k (n : Nat) : Word := c.rd w.c n c.lane
  let dst := (c.rd64 w.a c.lane).toNat
  let src := (c.rd64 w.b c.lane).toNat
  let dt := ((k 1).extractLsb' 0 16).toNat
  let st := ((k 1).extractLsb' 16 16).toNat
  let ring := (k 4 ++ k 3).toNat
  Issues s (.cpyb w) c →
    (c.adm = 0 → exec (.cpyb w) s = .next (After s c c)) ∧
    (c.adm ≠ 0 → c.blk.prod = 0xFF ∨ c.wid ≠ c.blk.prod → exec (.cpyb w) s = .next (AfterTrap s c (Trap.of 0x0D))) ∧
    ∀ m ks, c.adm ≠ 0 → c.blk.prod ≠ 0xFF → c.wid = c.blk.prod →
      targetOk dt = true → targetOk st = true → ¬(c.m.outside dt = true ∧ c.m.outside st = true) →
      (dt ≠ 0xFFFF → dst < 2 ^ 57) → (st ≠ 0xFFFF → src < 2 ^ 57) → ring ≠ 0 → ring % 32 = 0 → ring < 2 ^ 57 →
      c.m.checkLanes c.blk c.la .g false .read 32 c.ia c.cl.slot [(c.lane, ring)] = (m, .ok ks) →
      let r := m.loadLanes c.block c.la c.w.queue c.t .g ks
      (c.w.loadWaits c.w.seq .g false (placesOf ks) = true → exec (.cpyb w) s = .next (After s c
        (({ c with m := m }).start (some 0) (.retry (.cpyb w) (c.capture w.a 2) (c.capture w.b 2) (c.capture w.c 5))))) ∧
      (c.w.loadWaits c.w.seq .g false (placesOf ks) = false → m.anyBad (placesOf ks) = false →
       (RingDesc.ofBytes ((r.2.headD (0, [])).2)).ok = true →
      exec (.cpyb w) s = .next (After s c (({ c with m := { r.1 with
        nextId := r.1.nextId + 1
        bulks := r.1.bulks.put r.1.nextId
          { ctx := c.blk.ctx, blk := c.bid, warp := c.wid, op := c.w.nextOp, dst := dst, src := src, dstT := dt, srcT := st,
            count := (k 0).toNat, tag := k 2, ring := ring, data := none, moved := 0, status := 0, cause := 0, done := false,
            fin := 0, start := c.t } } }).start (some 0) (.bulk r.1.nextId (!r.1.outside st)))))

/-- BCLOSE (R228): D receives the old OPEN, OPEN rises modulo 2^16 and OUT rises; a mark of an earlier batch of the new open
number goes. -/
def bclose (w : CForm) (c : Cx) : Cx :=
  let k := (w.fn.extractLsb' 0 2).toNat
  let q := c.w.batch k
  ({ c with w := c.w.setBatch k { open_ := q.open_ + 1, out := q.out + 1, bad := q.bad.filter (fun e => e.2.1 != (q.open_ + 1).toNat) } }).start none
    (.result (c.resultN 1 (fun _ _ => q.open_.zeroExtend 32)))

/-- BWAIT (R230) that names a flag: it waits for the batches outstanding at issue that it names, from the oldest on. A `.n` wait on a
batch that has retired faults on its mark, and waits for an operation of it that is outstanding again (log entry 36). -/
def Bwait (s : State) (w : CForm) (c : Cx) : Prop :=
  let k := (w.fn.extractLsb' 0 2).toNat
  let q := c.w.batch k
  let a := (c.rd w.a 0 c.lane).toNat
  let n := a % 2 ^ 16
  let gone := q.out ≤ (q.open_ - 1 - BitVec.ofNat 16 a).toNat
  let waits (bs : List Nat) : Prop := exec (.bwait w) s = .next (After s c (c.start none (.bwait k bs [])))
  Issues s (.bwait w) c →
    (c.adm = 0 ∨ c.flagNo = none → exec (.bwait w) s = .next (After s c c)) ∧
    (c.adm ≠ 0 → c.flagNo ≠ none → w.fn.getLsbD 2 = true → q.out ≤ a → waits []) ∧
    (c.adm ≠ 0 → c.flagNo ≠ none → w.fn.getLsbD 2 = true → a < q.out →
      waits ((List.range (q.out - a)).map (fun i => (q.open_ - BitVec.ofNat 16 (q.out - i)).toNat))) ∧
    (c.adm ≠ 0 → c.flagNo ≠ none → w.fn.getLsbD 2 = false → n ≠ q.open_.toNat → ¬gone → waits [n]) ∧
    (c.adm ≠ 0 → c.flagNo ≠ none → w.fn.getLsbD 2 = false → n ≠ q.open_.toNat → gone → (∀ e ∈ q.bad, e.2.1 ≠ n) →
      waits (if c.w.batchOps k n = [] then [] else [n])) ∧
    ∀ f, c.adm ≠ 0 → c.flagNo ≠ none → w.fn.getLsbD 2 = false → n ≠ q.open_.toNat → gone → q.mark n = some f →
      exec (.bwait w) s = .next (After s c (c.start none (.bwait k []
        [(n, { f with ia := c.ia, fmask := c.adm, slot := c.cl.slot, lane := 0xFF })])))

/-- BAR, BARX and CBAR are in flight with their operands until earlier accesses have performed (R163, R238, R239). -/
def barOp (i : Instr) (w : CForm) (na nb : Nat) (c : Cx) : Cx := c.start none (.retry i (c.capture w.a na) (c.capture w.b nb) [])

/-- SLEEP (R241) on a word that passes its checks: the warp sleeps, its wake-pending bit is taken, and the word is read, which may
write back a dirty line that another context holds (16_die.md R289). -/
def Sleep (s : State) (w : CForm) (c : Cx) : Prop :=
  let sp : Space := if w.mod.getLsbD 16 then .s else .g
  let addr := if sp = .g then (c.rd64 w.a c.lane).toNat else (c.rd w.a 0 c.lane).toNat
  let n := (c.rd w.c 0 c.lane).toNat
  Issues s (.sleep w) c →
    (c.adm = 0 → exec (.sleep w) s = .next (After s c c)) ∧
    ∀ m key, c.adm ≠ 0 →
      c.m.checkLanes c.blk c.la sp true .read 4 c.ia c.cl.slot [(c.lane, addr)] = (m, .ok [(c.lane, (List.range 4).map (key + ·))]) →
      (sp = .g → m.anyBad ((List.range 4).map (key + ·)) = false) →
      ∃ past lines, exec (.sleep w) s = .next (After s c (
          let d := ({ c with m := { m with dirty := lines } }).start none (.sleep sp key addr (c.rd w.b 0 c.lane) (if n = 0 then none else some (c.t + n))
            (w.mod.getLsbD 12) (scopeIn sp (w.mod.extractLsb' 9 3).toNat) w.d past)
          { d with w := { d.w with sleeping := c.w.nextOp :: c.w.sleeping, wake := false } })) ∧
        (c.w.wake = true → past = true)

/-- WAKE (R242): an operation that will wake the warps of its mask. -/
def wake (w : CForm) (c : Cx) : Cx := c.start none (.wake (c.rd64 w.a c.lane))

/-! ### The armature (11_async_armature.md R244 to R251) -/

/-- The number of a uniform destination. -/
def sNo (o : Operand) : Nat :=
  match o with
  | .s n => n.toNat
  | _ => 0

/-- Whether the warp owns `n` uniform registers from `base` on (R246). -/
def Owns (c : Cx) (base n : Nat) : Prop := ∀ k, base ≤ k → k < base + n → (c.blk.armAt c.t).owner.find k = some c.wid

/-- An issue that makes writes of the armature, of result cycle issue + 1 (R244). -/
def armWrites (c : Cx) (ws : List ArmWrite) : Cx :=
  { c with blk := { c.blk with armPend := c.blk.armPend ++ ws.map (fun x => { at_ := c.t + 1, warp := c.wid, wr := x }) } }

/-- An armature instruction that needs `n` registers from `base` on: it makes its writes when the warp owns them, and
otherwise traps with UREG_NOT_OWNER and changes nothing (R244). -/
def ArmOwned (s : State) (i : Instr) (c : Cx) (base n : Nat) (ws : List ArmWrite) : Prop :=
  Issues s i c →
    (c.adm = 0 → exec i s = .next (After s c c)) ∧
    (c.adm ≠ 0 → Owns c base n → exec i s = .next (After s c (armWrites c ws))) ∧
    (c.adm ≠ 0 → ¬Owns c base n → exec i s = .next (AfterTrap s c (Trap.of 0x0E)))

def smov (w : CForm) (c : Cx) : Word :=
  if w.mod.getLsbD 19 then (w.mod.extractLsb' 0 19).signExtend 32 else c.rd w.a 0 c.lane

def salu (w : CForm) (c : Cx) : Word :=
  let a := c.rd w.a 0 c.lane
  let b := c.rd w.b 0 c.lane
  let k := w.fn.toNat
  if k = 0 then a + b else if k = 1 then a - b else if k = 2 then a * b else if k = 3 then a &&& b else if k = 4 then a ||| b
  else if k = 5 then a ^^^ b else if k = 6 then a <<< min b.toNat 32 else a >>> b.toNat

def ssetp (w : CForm) (c : Cx) : Word :=
  let a := c.rd w.a 0 c.lane
  let b := c.rd w.b 0 c.lane
  if relation (w.mod.extractLsb' 0 3).toNat
    (if w.fn = 0 then compare a.toInt b.toInt else compare a.toNat b.toNat) then 1 else 0

/-- SHPW.mk's two words (R250). -/
def shpwMk (w : CForm) (c : Cx) : Word × Word :=
  let r := (c.cl.arm.shapes.find (w.mod.extractLsb' 0 4).toNat).getD (0, 0)
  let lo (x : Word) : Nat := (x.extractLsb' 0 16).toNat
  let hi (x : Word) : Nat := (x.extractLsb' 16 16).toNat
  let a := c.rd w.a 0 c.lane
  let kt := 4 * 2 ^ (r.2.extractLsb' 16 3).toNat
  let g := max 1 (kt / 16)
  (bits32 (fun i => if i < 16 then lo a + i < lo r.1 else hi a + (i - 16) < hi r.1),
   bits32 (fun i => i < kt / g && lo (c.rd w.b 0 c.lane) + i * g < lo r.2))

/-- LSCL.upd's new LS and GCNT (R251): the scale is a positive normal pattern, so halving takes one from its exponent. -/
def lsclUpd (w : CForm) (c : Cx) : Word × Word :=
  let arm := c.cl.arm
  let a := c.rd w.a 0 c.lane
  let least : Word := 0x33800000#32
  let most : Word := 0x4B800000#32
  if arm.ovf.getLsbD 0 ∨ arm.ovf.getLsbD 2 then (if arm.ls.toNat < least.toNat + 2 ^ 23 then least else arm.ls - 0x800000#32, 0)
  else
    let g := if arm.gcnt = BitVec.allOnes 32 then arm.gcnt else arm.gcnt + 1
    if a ≠ 0 ∧ a ≤ g then (if most.toNat ≤ arm.ls.toNat + 2 ^ 23 then most else arm.ls + 0x800000#32, 0) else (arm.ls, g)

/-- SHPW.wr (R250) and LSCL.set (R251): a value that the rule bars traps with ARMATURE_VALUE. -/
def ArmValue (s : State) (i : Instr) (c : Cx) (bad : Prop) (ws : List ArmWrite) : Prop :=
  Issues s i c →
    (c.adm = 0 → exec i s = .next (After s c c)) ∧
    (c.adm ≠ 0 → ¬bad → exec i s = .next (After s c (armWrites c ws))) ∧
    (c.adm ≠ 0 → bad → exec i s = .next (AfterTrap s c (Trap.of 0x0F)))

/-- Whether a pattern is no positive normal binary32 (R251). -/
def notNormal (a : Word) : Prop := a.msb = true ∨ a.extractLsb' 23 8 = 0 ∨ a.extractLsb' 23 8 = 255#8

/-- SCLAIM.claim (R246): free registers become the warp's; a register of another warp bars the whole range. -/
def Claim (s : State) (w : CForm) (c : Cx) : Prop :=
  let base := (w.mod.extractLsb' 0 6).toNat
  let n := (w.mod.extractLsb' 6 7).toNat
  let other (k : Nat) : Prop := ∃ v, (c.blk.armAt c.t).owner.find k = some v ∧ v ≠ c.wid
  Issues s (.sclaimClaim w) c →
    (c.adm = 0 → exec (.sclaimClaim w) s = .next (After s c c)) ∧
    (c.adm ≠ 0 → (∀ k, base ≤ k → k < base + n → ¬other k) → (∀ p ∈ c.blk.armPend, p.at_ ≤ c.t) →
      exec (.sclaimClaim w) s = .next (After s c (armWrites c [.own base n (some c.wid)]))) ∧
    (c.adm ≠ 0 → (∃ k, base ≤ k ∧ k < base + n ∧ other k) → exec (.sclaimClaim w) s = .next (AfterTrap s c (Trap.of 0x0E)))

/-- SBR (R249): the next N instructions of the clause admit no lane when the condition holds. -/
def sbr (w : CForm) (c : Cx) : Cx :=
  let a := c.rd w.a 0 c.lane
  if (if w.mod.getLsbD 3 then a = 0 else a ≠ 0) then { c with cl := { c.cl with skip := (w.mod.extractLsb' 0 3).toNat + 1 } } else c

/-- The space and size of SLD and SST (R248). -/
def armSp (w : CForm) : Space :=
  let k := w.mod.extractLsb' 16 2
  if k = 0 then .c else if k = 1 then .s else .g
def armSz (w : CForm) : Nat := 4 * 2 ^ (w.mod.extractLsb' 14 2).toNat

/-- SLD (R248): in flight until its turn among the warp's accesses. -/
def Sld (s : State) (w : CForm) (c : Cx) : Prop :=
  Issues s (.sld w) c →
    (c.adm = 0 → exec (.sld w) s = .next (After s c c)) ∧
    (c.adm ≠ 0 → Owns c (sNo w.d) (armSz w / 4) →
      exec (.sld w) s = .next (After s c (c.start none (.retry (.sld w) (c.capture w.a 2) [] [])))) ∧
    (c.adm ≠ 0 → ¬Owns c (sNo w.d) (armSz w / 4) → exec (.sld w) s = .next (AfterTrap s c (Trap.of 0x0E)))

/-- SST (R248): a store of one lane into the store queue; it folds into SHASH as an ST of one lane. -/
def Sst (s : State) (w : CForm) (c : Cx) : Prop :=
  let size := armSz w
  let base : Int := if armSp w = .g then (c.rd64 w.a c.lane).toNat else (c.rd w.a 0 c.lane).toNat
  let addr := ((base + (w.mod.extractLsb' 0 9).toInt * (size : Int)) % (2 ^ (if armSp w = .g then 64 else 32) : Nat)).toNat
  Issues s (.sst w) c →
    (c.adm = 0 → exec (.sst w) s = .next (After s c c)) ∧
    ∀ m ks, c.adm ≠ 0 → c.m.checkLanes c.blk c.la (armSp w) false .write size c.ia c.cl.slot [(c.lane, addr)] = (m, .ok ks) →
      let acc : List LaneAcc := storeAcc size [(c.lane, addr)] ks (storeBytes w c size)
      let d := folding c (({ c with m := m }).start none (.sourcesRead (foldWords (acc.map (fun (a : LaneAcc) => (a.addr, a.data)))) 0))
      exec (.sst w) s = .next (After s c { d with w := { d.w with queue := c.w.queue ++
        [{ seq := c.w.seq, space := armSp w, rel := false, acq := false, scope := 1, kind := .store acc }] } })

/-! ### The fabric (21_fabric.md R365, R380 to R386) -/

/-- A gossip operation is in flight with its operands; GADD's terms are binary32 values (R381). -/
def gossipOp (i : Instr) (a : FMap 32) (w : CForm) (c : Cx) : Cx := c.start none (.gossip i a (c.capture w.b 1) (c.capture w.c 1))

/-- The machine in which GCTL.stop.unb has taken its slot out of use (R385). -/
def unbindSlot (w : CForm) (c : Cx) : Mach :=
  let rgn := (w.mod.extractLsb' 4 3).toNat
  match c.m.gossipOf c.blk.ctx rgn with
  | some g => if w.mod.getLsbD 7 then c.m.setGossip c.blk.ctx rgn { g with unbinding := true } else c.m
  | none => c.m

/-- COLL joins the open .cl batch with its operands (R365, R368). -/
def collOp (w : CForm) (c : Cx) : Cx :=
  c.start (some 3) (.coll (.coll w) (if w.mod.getLsbD 16 then floatLanesOf c w.a else c.capture w.a 2)
    (c.capture w.b 2) (c.capture w.c 2) 0)

/-! ### The system instructions (17_package.md R332, R333, 18_traps.md R345 to R349) -/

/-- HALT stops the warp by a precise failure when a lane is admitted (R347). -/
def Halt (s : State) (w : ZForm) (c : Cx) : Prop :=
  Issues s (.halt w) c → exec (.halt w) s = .next (if c.adm = 0 then After s c c else AfterTrap s c (Trap.of 0x11))

/-- MQCHK (R332): nothing with the maquette off; otherwise an operation that acts behind every earlier fold. -/
def Mqchk (s : State) (w : CForm) (c : Cx) : Prop :=
  Issues s (.mqchk w) c →
    (c.adm = 0 ∨ c.la.mqm = 0 → exec (.mqchk w) s = .next (After s c c)) ∧
    ∀ m ks, c.adm ≠ 0 → c.la.mqm ≠ 0 →
      c.m.checkLanes c.blk c.la .g true (if c.la.mqm = 1 then .write else .read) 4 c.ia c.cl.slot
        [(c.lane, (c.rd64 w.a c.lane).toNat)] = (m, .ok ks) →
      exec (.mqchk w) s = .next (After s c (folding c (({ c with m := m }).start none (.retry (.mqchk w) (c.capture w.a 2) [] []))))

/-- SHASH.set and SHASH.clr (R333): at once where no fold is outstanding; else at their place in the order of folds. -/
def Shash (s : State) (i : Instr) (c : Cx) (x : Word) : Prop :=
  Issues s i c →
    (c.adm = 0 → exec i s = .next (After s c c)) ∧
    (c.adm ≠ 0 → c.w.folds = [] → exec i s = .next (After s c { c with w := { c.w with shash := x } })) ∧
    (∀ n rest, c.adm ≠ 0 → c.w.folds = .waiting n :: rest →
      exec i s = .next (After s c { c with w := { c.w with folds := c.w.folds ++ [.set x] } }))

/-- SYSR (R348) of a register that the part has. -/
def Sysr (s : State) (w : CForm) (c : Cx) : Prop :=
  let sel := (w.mod.extractLsb' 0 16).toNat
  let idx := (c.rd w.a 0 c.lane).toNat
  Issues s (.sysr w) c →
    (c.adm = 0 → exec (.sysr w) s = .next (After s c c)) ∧
    (c.adm ≠ 0 → c.m.sysIndexOk c.caps sel idx = true →
      exec (.sysr w) s = .next (After s c (({ c with m := (c.m.sysRead sel idx).2 }).start none
        (.result (c.resultN 1 (fun _ _ => (c.m.sysRead sel idx).1))))))

/-- SYSW (R348) of a register that the part has, where no rule forbids the write. -/
def Sysw (s : State) (w : CForm) (c : Cx) : Prop :=
  let sel := (w.mod.extractLsb' 0 16).toNat
  let idx := (c.rd w.a 0 c.lane).toNat
  Issues s (.sysw w) c →
    (c.adm = 0 → exec (.sysw w) s = .next (After s c c)) ∧
    ∀ m, c.adm ≠ 0 → c.m.sysIndexOk c.caps sel idx = true → c.m.sysWrite c.t sel idx (c.rd w.b 0 c.lane) = some m →
      exec (.sysw w) s = .next (After s c (({ c with m := m }).start none (.sourcesRead [] 0)))

/-- CTXSV (R349): an operation on the context that a names. -/
def ctxsv (i : Instr) (w : CForm) (c : Cx) : Cx := c.start none (.sys i ((c.rd w.a 0 c.lane).extractLsb' 0 8).toNat 0)

/-- ERET of a warp that runs no handler traps with ERET_NO_FRAME; one whose stores have performed goes on as the frame says:
with ACTION 0 and no FLGCLR, at the clause of RHDR, its PC slots, stack, map, counts and fault bits being those of the shadow (R346). -/
def Eret (s : State) (w : ZForm) (c : Cx) : Prop :=
  Issues s (.eret w) c →
    (c.skipped = true → exec (.eret w) s = .next (After s c c)) ∧
    (c.skipped = false → c.w.shadow = none → exec (.eret w) s = .next (AfterTrap s c (Trap.of 0x10))) ∧
    ∀ sh ks, c.skipped = false → c.w.shadow = some sh → c.w.drained c.w.seq = true →
      frameAt c.la c.blk.b c.wid + 16 ≤ 2 ^ 57 →
      let blk := c.blk.setWarp c.wid c.w
      let bs := ks.map (c.flush.loadByte blk.part blk.core blk.ctx)
      let slot := sh.stop.info.slot
      let rhdr := leNat (bs.drop 8)
      c.flush.coreKeys blk.core blk.ctx .read (frameAt c.la blk.b c.wid) 16 = .ok ks → c.flush.anyBad ks = false →
      bs.getD 2 0 = 0 → bs.getD 3 0 = 0 → bs.getD 4 0 = 0 → bs.getD 5 0 = 0 → c.flush.isHeader blk.core blk.ctx rhdr = .ok true →
      sh.s0.mask ≠ 0 ∨ sh.s1.mask ≠ 0 →
      ∃ y lines, exec (.eret w) s = .next (s.lift c.t (({ c.flush with dirty := lines } : Mach).setBlock c.bid ({ blk with handler := none }.setWarp c.wid y))) ∧
        y.slot slot = { pc := BitVec.ofNat 57 rhdr, mask := (if slot = 0 then sh.s0 else sh.s1).mask } ∧
        y.slot (1 - slot) = (if 1 - slot = 0 then sh.s0 else sh.s1) ∧ y.stack = sh.stack ∧ y.spilled = sh.spilled ∧ y.map = sh.map ∧
        y.counts = sh.counts ∧ y.bits = sh.bits ∧ y.h0 = none ∧ y.h1 = none ∧ y.shadow = none ∧ y.clause = none

/-! ### Events -/

/-- The event `i` occurs in `s` and leaves the machine `m`; CAPS stays and no time passes. -/
def Becomes (s : State) (i : Instr) (m : Mach) : Prop := exec i s = .next { s with m := m }

/-- The event `i` occurs in `s` and leaves a machine of which `P` holds. -/
def Leaves (s : State) (i : Instr) (P : Mach → Prop) : Prop := ∃ m, Becomes s i m ∧ P m

/-- A warp stands in the machine, and `P` holds of it. -/
def WarpIn (m : Mach) (b w : Nat) (P : Warp → Prop) : Prop := ∃ blk x, m.warp b w = some (blk, x) ∧ P x

/-- What a kill leaves of a context (17_package.md R324): STATE 5, its ring stopped, its entry off the run list, every
engine asked to drain, and the cause and the STATUS of its record. -/
def Killed (m : Mach) (ctx cause status : Nat) : Prop :=
  (m.ctx ctx).state = 5 ∧ (m.ctx ctx).ring.dead = true ∧ (m.ctx ctx).engines = [0, 1, 2, 3, 4, 5] ∧
  (m.ctx ctx).killCause = cause ∧ (m.ctx ctx).killStatus = status ∧ ∀ e ∈ m.runlist, bitsAt e 0 8 ≠ ctx

/-! ### Scheduling (12_core_scheduling.md R258 to R265) -/

/-- WARP_URGENT (R265): a warp that has been ready for 2048 cycles. -/
def WarpUrgent (s : State) (b w : Nat) : Prop :=
  ∀ blk x, s.m.warp b w = some (blk, x) → x.urgent = false → 2048 ≤ x.readyFor →
    s.m.warpReady s.now blk w x = true → Becomes s (.warpUrgent b w) (s.m.setWarp b w { x with urgent := true })

/-- PACK_ENTER (R258, R259): the first candidate takes a free entry; the buffers of its warps refill, and it may start a clause
only after the refill. A warp that stands inside a clause, as one that was restored there may, keeps its buffer (02_warp_state.md
R40); the warps of other packs and blocks stay as they are. -/
def PackEnter (s : State) (core slot : Nat) : Prop :=
  ∀ p, (s.m.slotOf core slot).active.length < 4 →
    bestOf (s.m.entersFirst s.now) (s.m.candidates s.now core slot) = some p →
    Leaves s (.packEnter core slot) (fun m =>
      (∃ c, s.now < c ∧ (m.slotOf core slot).active = (s.m.slotOf core slot).active ++ [(p, c)]) ∧
      (∀ b, b ≠ p.blk → m.block b = s.m.block b) ∧
      ∀ blk w x, s.m.warp p.blk w = some (blk, x) → WarpIn m p.blk w (fun y =>
        (blk.packOf w = p.k → x.ended = false → x.clause = none → y = (x.settle s.now).refill blk.width) ∧
        (blk.packOf w ≠ p.k → y = x) ∧ (x.clause ≠ none → y.buf = x.buf ∧ y.map = x.map ∧ y.v = x.v)))

/-- DESCHEDULE (02_warp_state.md R37): the pack leaves, its buffers' data are discarded, and its maps stay. -/
def Deschedule (s : State) (core slot : Nat) (p : PackId) : Prop :=
  s.m.leaver s.now core slot = some p →
    Leaves s (.deschedule core slot p) (fun m =>
      (∀ a ∈ (m.slotOf core slot).active, a.1 ≠ p) ∧
      m.blocks = (s.m.mapPack p (fun _ w => { w.settle s.now with buf := [], deadB := 0 })).blocks)

/-- CLAUSE_START (03_encoding.md R57, 02_warp_state.md R33, 11_async_armature.md R245): the chosen warp stands at the first
instruction of its clause, its latches invalid, with the armature as its writes of result cycles up to two before left it. A warp with
a fault that named no flag stops there instead (12_core_scheduling.md R268). -/
def ClauseStart (s : State) (core slot : Nat) : Prop :=
  ∀ e ys, s.m.choose s.now core slot (s.m.starters s.now core slot) = (some e, ys) →
    s.m.warp e.blk e.wid = some (e.b, e.w) → e.w.noFlag = none →
    Leaves s (.clauseStart core slot) (fun m =>
      (m.slotOf core slot).last = some (e.blk, e.wid) ∧
      WarpIn m e.blk e.wid (fun y => y.h0 = none ∧ y.h1 = none ∧ y.urgent = false ∧ y.yield_ = none ∧
        ∃ c, y.clause = some c ∧ c.hdr = e.hdr ∧ c.slot = e.slot ∧ c.pos = 0 ∧ c.next = s.now ∧
          c.head = ((e.w.settle s.now).slot e.slot).pc.toNat ∧ c.arm = e.b.armAt (s.now - 2)))

/-! ### Operations as they complete or fault (02_warp_state.md R23, R24) -/

/-- Whether an operation of a warp was issued before the handler that the warp runs: its flag is then the trap shadow's
(18_traps.md R341). -/
def inShadow (x : Warp) (op : Nat) : Bool := x.shadow.any (fun sh => op < sh.mark)

/-- The operation `o` of a warp of a live block has neither completed nor faulted. -/
def InFlight (s : State) (b w op : Nat) (blk : Block) (x : Warp) (o : Op) : Prop :=
  s.m.warp b w = some (blk, x) ∧ s.m.alive blk = true ∧ x.ops.find op = some o ∧ o.fault = none ∧ o.flagDone = false

/-- The warp `y` is `x` once its operation has completed with a result (R23): the result is written, its exceptions enter FLAGS, and
the flag's count falls by one: the warp's, or the trap shadow's of an operation issued before the handler (18_traps.md R341). -/
def Fallen (s : State) (x : Warp) (op : Nat) (o : Op) (r : Result) (y : Warp) : Prop :=
  let less (f : FMap 6) : FMap 6 := match o.flag with
    | some k => f.set k (f.get k - 1)
    | none => f
  y.v = ((x.settle s.now).writeResult r).v ∧ y.preds = ((x.settle s.now).writeResult r).preds ∧
  y.flags = (x.settle s.now).flags ||| r.flags.zeroExtend 32 ∧
  y.counts = (if inShadow x op then x.counts else less x.counts) ∧
  y.shadow.map (·.counts) = x.shadow.map (fun sh => if inShadow x op then less sh.counts else sh.counts)

/-- The result that an operation completes with where nothing but its turn is left: its own; that of a store or an atomic whose
sources are read, once every fold before its own is made (06_isa_control.md R126); the cycle counter's value for S2V of CYC;
none for one that waits for a cycle that has come, for a copy, a bulk transfer, or a BWAIT whose batches have all retired
without a fault. -/
def CompletesWith (s : State) (blk : Block) (x : Warp) (op : Nat) (o : Op) (r : Result) : Prop :=
  let none_ : Prop := r = Result.none
  match o.payload with
  | .result q => r = q
  | .sourcesRead _ e => Fold.waiting op ∉ x.folds ∧ r = { Result.none with flags := e }
  | .atomicResult done q _ => done = true ∧ Fold.waiting op ∉ x.folds ∧ r = q
  | .readCyc q => r = { q with vals := valsOf 2 (lanesOf q.mask 64) (fun _ k =>
      (BitVec.ofNat 64 (s.now - (s.m.die (blk.core / 64)).base)).extractLsb' (32 * k) 32) }
  | .after due => due ≤ s.now ∧ none_
  | .copy .. => none_
  | .bulk .. => none_
  | .bwait _ bs fs => bs = [] ∧ fs = [] ∧ none_
  | _ => False

/-- VAR_COMPLETE (R23): the operation completes with its result; one that waits for a cycle does not before it. -/
def VarComplete (s : State) (b w op : Nat) : Prop :=
  ∀ blk x o, InFlight s b w op blk x o →
    (∀ r, CompletesWith s blk x op o r → Leaves s (.varComplete b w op) (fun m => m.mem = s.m.mem ∧ WarpIn m b w (Fallen s x op o r))) ∧
    ∀ due, o.payload = .after due → s.now < due → exec (.varComplete b w op) s = .fault .notEnabled

/-- OPERATION_FAULT (R24, 07_core_memory.md R170): the flag's fault bit is set, the trap shadow's for an operation issued before
the handler, and its count does not fall; a fault that names no flag is kept with the warp. After the halt of its block the fault is
recorded against its warp too (12_core_scheduling.md R270); during a kill that is all (17_package.md R325). -/
def OperationFault (s : State) (b w op : Nat) : Prop :=
  ∀ blk x o f, s.m.warp b w = some (blk, x) → x.ops.find op = some o → o.fault = some f → o.reported = false →
    let set (bits : BitVec 12) : BitVec 12 := match o.flag with
      | some k => bits ||| (1#12 <<< k)
      | none => bits
    let late := blk.lateFault x op
    (s.m.alive blk = true → isBadData f.cause = true → blk.recorded = false ∨ late = false → (s.m.ctx blk.ctx).v = true →
      Leaves s (.operationFault b w op) (fun m => m.mem = s.m.mem ∧ Killed m blk.ctx f.cause 2)) ∧
    (s.m.alive blk = true → isBadData f.cause = false → Leaves s (.operationFault b w op) (fun m =>
      (blk.recorded = false ∨ late = false → m.mem = s.m.mem) ∧ ∃ blk' y, m.warp b w = some (blk', y) ∧
      blk'.late = (if late then blk.late ++ [(w, f.cause)] else blk.late) ∧
      y.v = (x.settle s.now).v ∧ y.counts = x.counts ∧ y.bits = (if inShadow x op then x.bits else set x.bits) ∧
      y.shadow.map (·.bits) = x.shadow.map (fun sh => if inShadow x op then set sh.bits else sh.bits) ∧
      y.noFlag = (if o.flag = none then x.noFlag.or (some f) else x.noFlag))) ∧
    (s.m.alive blk = false → Leaves s (.operationFault b w op) (fun m => (blk.recorded = false → m.mem = s.m.mem) ∧
      ∃ blk' y, m.warp b w = some (blk', y) ∧ blk'.late = blk.late ++ [(w, f.cause)] ∧ y.v = x.v ∧ y.flags = x.flags ∧
      y.counts = x.counts ∧ y.bits = x.bits))

/-! ### Stores, atomics and the gates of a replay (07_core_memory.md R156, R166, R167, 17_package.md R330) -/

/-- The places of a store's lanes, in ascending lane order, and the bytes that they take. -/
def storeKeys (acc : List LaneAcc) : List Nat := acc.foldr (fun a l => a.keys ++ l) []
def storeData (acc : List LaneAcc) : List Byte := acc.foldr (fun a l => a.data.take a.keys.length ++ l) []

/-- STORE_PERFORM (R156, R152): the oldest store leaves the queue and its lanes' bytes are written, lane by lane: in memory, in
the block's scratchpad, or, here of one whole register lane of a warp for which no result is due or has come in the cycle, through
the aperture (R38, R148). -/
def StorePerform (s : State) (b w : Nat) : Prop :=
  ∀ blk x q acc, s.m.warp b w = some (blk, x) → s.m.alive blk = true → x.queueHead = some q → q.kind = .store acc →
    (q.space = .g → s.m.bad = [] → (∀ k ∈ storeKeys acc, s.m.protectedKey blk.part k = false) →
      Leaves s (.storePerform b w) (fun m =>
        m.mem = put s.m.mem (storeKeys acc) (storeData acc) ∧ WarpIn m b w (fun y => y.queue = x.queue.tail))) ∧
    (q.space = .s → Leaves s (.storePerform b w) (fun m => m.mem = s.m.mem ∧ ∃ blk' y, m.warp b w = some (blk', y) ∧
      blk'.scratch = put blk.scratch (storeKeys acc) (storeData acc) ∧ y.queue = x.queue.tail)) ∧
    ∀ a k n y, q.space = .a → acc = [a] → a.keys = (List.range 4).map (k + ·) → k % 4 = 0 → a.data.length = 4 →
      k / 2 ^ 16 % 64 = n → blk.warp n = some y → (∀ p ∈ y.pend, s.now < p.at_) → (∀ e ∈ y.fresh, e.1 < s.now) →
      Leaves s (.storePerform b w) (fun m => m.mem = s.m.mem ∧ WarpIn m b n (fun z =>
        z.v.get (regKey (k / 2 ^ 8 % 256) (k / 4 % 64)) = BitVec.ofNat 32 (leNat a.data) ∧ z.deadV.getLsbD (k / 2 ^ 8 % 256) = false))

/-- The new value of a read-modify-write (R166). -/
def rmwValue (op : RmwOp) (bits old b c : Nat) : Nat :=
  let s (x : Nat) : Int := (BitVec.ofNat bits x).toInt
  match op with
  | .xchg => b
  | .cas => if old = b then c else old
  | .add => (old + b) % 2 ^ bits
  | .mnmx k => if k = 0 then (if s b < s old then b else old) else if k = 1 then (if s old < s b then b else old)
    else if k = 2 then min old b else max old b
  | .lop k => if k = 0 then Nat.land old b else if k = 1 then Nat.lor old b else Nat.xor old b
  | .gadd k => (old + (Num.ontoGrid (Num.decodeF Num.f32 b) k.toInt).1.toNat) % 2 ^ 64
  | .inc => if old < b then old + 1 else 0

/-- Memory after one group of an atomic: each lane of the group in turn (R167). -/
def groupMem (f : FMap 8) (op : RmwOp) (size : Nat) (as : List LaneAcc) : FMap 8 :=
  as.foldl (fun f a => put f a.keys
    (leBytes (rmwValue op (8 * size) (leNat (a.keys.map f.get)) (leNat a.data) (leNat a.data2)) size)) f

/-- ATOMIC_GROUP (R166, R167): the lanes of one slice perform in ascending order; those of a scratchpad atomic all at their core.
The entry leaves the queue with its last group. -/
def AtomicGroup (s : State) (b w slice : Nat) : Prop :=
  ∀ blk x q n op size mq red acc old, s.m.warp b w = some (blk, x) → s.m.alive blk = true → x.queueHead = some q →
    q.kind = .atomic n op size mq red acc old →
    let here := (pendingLanes acc old).filter (fun a => a.slice q.space = slice)
    let leaves (y : Warp) : Prop := (∀ a ∈ pendingLanes acc old, a.slice q.space = slice) → y.queue = x.queue.tail
    here ≠ [] →
    (q.space = .g → (s.m.launchOf blk).mqm = 0 → s.m.bad = [] →
      (∀ a ∈ pendingLanes acc old, ∀ k ∈ a.keys, s.m.protectedKey blk.part k = false) →
      Leaves s (.atomicGroup b w slice) (fun m => m.mem = groupMem s.m.mem op size here ∧ WarpIn m b w leaves)) ∧
    (q.space = .s → Leaves s (.atomicGroup b w slice) (fun m => m.mem = s.m.mem ∧
      ∃ blk' y, m.warp b w = some (blk', y) ∧ blk'.scratch = groupMem blk.scratch op size here ∧ leaves y))

/-- MQ_GATE_ADMIT (R330): the gate admits the group of the warp that its entry names, and counts it. -/
def MqGateAdmit (s : State) (b w slice : Nat) : Prop :=
  ∀ blk x q n op size mq red acc old left i, s.m.warp b w = some (blk, x) →
    let la := s.m.launchOf blk
    let j := (s.m.part la.part).segOf slice
    s.m.launches.find blk.launch = some la → s.m.waitsAt la blk x slice = some q →
    q.kind = .atomic n op size mq red acc old → s.m.gate la j = some (blk.b, w, left, i) → s.m.bad = [] →
    (∀ a ∈ pendingLanes acc old, ∀ k ∈ a.keys, s.m.protectedKey blk.part k = false) →
    Leaves s (.mqGateAdmit b w slice) (fun m =>
      m.mem = groupMem s.m.mem op size ((pendingLanes acc old).filter (fun a => a.slice .g = slice)) ∧
      ((m.launches.find blk.launch).bind (fun l => l.gates.find j)) = some (if left ≤ 1 then (0, i + 1) else (left - 1, i)))

/-- L2_EVICT (16_die.md R289, R302): the line is no longer dirty, and nothing else changes. A line that holds uncorrectable data
is lost: its bytes are DRAM's older ones again, and every context of the partition that owns its channel is killed with MC_EVICT. -/
def L2Evict (s : State) (line : Nat) : Prop :=
  ∀ d, s.m.dirty.find line = some d →
    (s.m.lineBad line = false → Becomes s (.l2Evict line) { s.m with dirty := s.m.dirty.del line }) ∧
    (s.m.lineBad line = true → Leaves s (.l2Evict line) (fun m =>
      m.mem = s.m.mem.setList (128 * line) d.old ∧ m.dirty = s.m.dirty.del line ∧ m.bad = s.m.bad.filter (fun g => g / 4 ≠ line) ∧
      ∀ ch c, s.m.channels.find (line / 2 ^ 24) = some ch → ch.v = true → (s.m.ctx c).v = true →
        (s.m.ctx c).part = ch.own.toNat → (s.m.ctx c).state ≠ 5 → Killed m c 0x68 2))

/-- PAGE_WALK (16_die.md R289, R295, R296): only the TLBs change and the marks of the dirty lines that the walk looks up, and a walk that
ends in a fault leaves nothing in a TLB. -/
def PageWalk (s : State) (core ctx : Nat) (va : DWord) (acc : Access) : Prop :=
  Leaves s (.pageWalk core ctx va acc) (fun m =>
    m = { s.m with utlb := m.utlb, ctlb := m.ctlb, dirty := m.dirty } ∧
    ((∃ k, s.m.look core ctx va.toNat acc = .error k) → m.utlb = s.m.utlb ∧ m.ctlb = s.m.ctlb))

/-! ### Engines (08_field_unit.md R186, 10_matrix.md R202, R212, 11_async_armature.md R229, R234, R238, R241) -/

/-- A field's space among memory and the block's scratchpad (08_field_unit.md R174): reading it, and writing bytes of it. -/
def inSpace (sp : Space) (f : FMap 8 × FMap 8) : FMap 8 := if sp = .g then f.1 else f.2
def putSpace (sp : Space) (f : FMap 8 × FMap 8) (ks : List Nat) (bs : List Byte) : FMap 8 × FMap 8 :=
  if sp = .g then (put f.1 ks bs, f.2) else (f.1, put f.2 ks bs)

/-- A field element after a splat has added its exact term (R184, R185): on the grid of an FX64 field it wraps, in a field of a
narrow format and in a float field the sum is rounded once to nearest. -/
def splatted (d : FieldDesc) (nf : Num.NFmt) (mode : Word) (gr : Bool) (raw : Nat) (term : List (List Num.Val)) : Nat :=
  if d.fmt = 3 then (raw + (Num.ontoGrid (exactTerms term).1 d.k).1.toNat) % 2 ^ 64
  else if d.fmt = 4 then (Num.encodeNF nf (modeNsat mode) .rn 0 (exactTerms ([Num.decodeNF nf raw] :: term)).1).1
  else (sumTerms d.ffmt (rnK (modeCnan mode) gr) ([Num.decodeF d.ffmt raw] :: term)).1

/-- The term that FST or FSTG adds to channel `c` of an entry: W × v_c, or the sum over the axes whose G is not zero of
SCALE × G × gamma (R184, R185). -/
def splatTermOf (grad : Bool) (d : FieldDesc) (en : FEntry) (v : FMap 32) (l c : Nat) : List (List Num.Val) :=
  let val (k : Nat) : Num.Val := Num.decodeF Num.f32 (v.get (resKey k l)).toNat
  if grad then ((List.range d.dims).filter (fun e => (en.g.getD e (.zero false)).isZero = false)).map (fun e =>
    [d.scale e, en.g.getD e (.zero false), val (c * d.dims + e)])
  else [[en.w, val c]]

/-- The spaces after one pair of FST or FSTG: its channels in turn (R186). -/
def splatSpaces (grad : Bool) (d : FieldDesc) (nf : Num.NFmt) (mode : Word) (gr : Bool) (en : FEntry) (v : FMap 32) (l : Nat)
    (ks : List Nat) (f : FMap 8 × FMap 8) : FMap 8 × FMap 8 :=
  (List.range d.chans).foldl (fun f c =>
    let ck := (ks.drop (c * d.esize)).take d.esize
    putSpace d.space f ck
      (leBytes (splatted d nf mode gr (leNat (ck.map (inSpace d.space f).get)) (splatTermOf grad d en v l c)) d.esize)) f

/-- The spaces after one entry of FDRN (R190, 04_numbers.md R74, R85): each channel's q × 2^k rounded once, to nearest even, into the
destination, where MODE.FTZ flushes a subnormal result; under CLR the source becomes zero. -/
def drainSpaces (d src : FieldDesc) (mode : Word) (clr : Bool) (kd ks : List Nat) (f : FMap 8 × FMap 8) : FMap 8 × FMap 8 :=
  (List.range d.chans).foldl (fun f c =>
    let sk := (ks.drop (c * src.esize)).take src.esize
    let q := leNat (sk.map (inSpace src.space f).get)
    let g := putSpace d.space f ((kd.drop (c * d.esize)).take d.esize)
      (leBytes (Num.drainF d.ffmt { rm := .rn, gr := false, ftz := modeFtz mode, cnan := modeCnan mode, rand := 0, grand := none } (BitVec.ofNat 64 q) src.k).1 d.esize)
    if clr then putSpace src.space g sk (leBytes 0 8) else g) f

/-- FIELD_PAIR (08_field_unit.md R184 to R186, R190, R191): the pair at PIX, which is 0 as the instruction starts, does what its
instruction does to its entry, in memory or in the scratchpad; PIX rises by one; and with the last pair the instruction leaves
the unit. A lane whose coordinate is a NaN, a skipped entry and one of zero weight change no field. -/
def FieldPair (s : State) (b w : Nat) : Prop :=
  ∀ blk x op rest o i f a v d0 s0 started flags d src, s.m.warp b w = some (blk, x) → x.fieldQ = op :: rest →
    x.ops.find op = some o → o.payload = .splat i a v d0 s0 started flags → i.fields = some f → o.fault = none →
    x.stop = none → blk.out = false → s.m.alive blk = true → x.drained o.seq = true → x.held Op.holdsStores o.seq = false →
    (if started then (d, src) = (d0, s0) else splatTake blk o i f = .ok (d, src)) → s.m.bad = [] →
    let p := if started then x.pix.toNat else 0
    let la := s.m.launchOf blk
    let lane := (lanesOf o.mask 64).getD (p / d.perLane) 0
    let into (g : FMap 8 × FMap 8 → FMap 8 × FMap 8) : Prop := Leaves s (.fieldPair b w) (fun m =>
      m.mem = (g (s.m.mem, blk.scratch)).1 ∧ ∃ blk' y, m.warp b w = some (blk', y) ∧
        blk'.scratch = (g (s.m.mem, blk.scratch)).2 ∧ y.pix = BitVec.ofNat 32 (p + 1) ∧ (splatPairs i o d ≤ p + 1 → op ∉ y.fieldQ))
    (∀ u, i = .fst u ∨ i = .fstg u →
      (d.coords a lane = none → into id) ∧
      ∀ xs, d.coords a lane = some xs →
        let en := d.entry xs (p % d.perLane)
        (en.off = none ∨ splatActs i en = false → into id) ∧
        ∀ k m' ks, en.off = some k → splatActs i en = true →
          s.m.checkLanes blk la d.space false .write (d.esize * d.chans) o.ia o.slot [(lane, d.addr k)] = (m', .ok [(lane, ks)]) →
          into (splatSpaces (decide (i = .fstg u)) d (d.nf la) la.mode (u.mod.getLsbD 4) en v lane ks)) ∧
    (∀ u m' ks, i = .fclr u →
      s.m.checkLanes blk la d.space false .write (d.esize * d.chans) o.ia o.slot [(0, d.addr (d.flat p))] = (m', .ok [(0, ks)]) →
      into (fun g => putSpace d.space g ks (leBytes 0 (d.esize * d.chans)))) ∧
    (∀ u m1 m2 kd ks, i = .fdrn u →
      s.m.checkLanes blk la d.space false .write (d.esize * d.chans) o.ia o.slot [(0, d.addr (d.flat p))] = (m1, .ok [(0, kd)]) →
      m1.checkLanes blk la src.space false (if u.mod.getLsbD 16 then .write else .read) (8 * src.chans) o.ia o.slot
        [(0, src.addr (src.flat p))] = (m2, .ok [(0, ks)]) →
      into (drainSpaces d src la.mode (u.mod.getLsbD 16) kd ks))

/-- MMA_ENGINE_ENTRY (10_matrix.md R202): an MMA that finds a fault standing takes it over (R226); one that is not ganged and
passes its checks updates its tiles at once, and is complete for its batch. -/
def MmaEngineEntry (s : State) (b w : Nat) : Prop :=
  ∀ blk x k o v a c e, s.m.warp b w = some (blk, x) → s.m.alive blk = true → x.matHead = some (k, o) →
    o.payload = .matrix (.mma v) a c e [] false → v.fn.toNat < 8 →
    (∀ f, x.matFault = some f → Leaves s (.mmaEngineEntry b w) (fun m => WarpIn m b w (fun y =>
      (y.ops.find k).bind (·.fault) = some (o.info f.2.cause f.2.faddr.toNat) ∧ y.matFault = some f))) ∧
    (∀ m' fb, x.matFault = none →
      mmaEnter s.caps (s.m.setWarp b w x) s.now blk (s.m.launchOf blk) o v.fields c e = (m', .ok (some fb)) →
      m'.warp b w = some (blk, x) →
      Leaves s (.mmaEngineEntry b w) (fun m => m.mem = m'.mem ∧
        ∃ blk', m.block b = some blk' ∧ blk'.tiles = (mmaApply (s.m.launchOf blk) blk o v.fields a c e fb).1.tiles ∧
          ∃ y, blk'.warp w = some y ∧ k ∉ y.matQ ∧ (y.ops.find k).map (·.batchDone) = some true))

/-- GANG_RENDEZVOUS (10_matrix.md R208, R212): each member's MMA updates its tile as the same MMA without .g would, in the order of
their warps, and leaves the engine. -/
def GangRendezvous (s : State) (b : Nat) (mask : Mask) : Prop :=
  ∀ blk x rest, s.m.block b = some blk → s.m.alive blk = true → blk.gangHere mask = (x :: rest, true) →
    (∀ y ∈ rest, x.agrees y = true) →
    Leaves s (.gangRendezvous b mask) (fun m => m.mem = s.m.mem ∧ ∃ blk', m.block b = some blk' ∧
      blk'.tiles = ((x :: rest).foldl (fun k y => (mmaApply (s.m.launchOf blk) k y.o y.f y.a y.s y.c y.fb).1) blk).tiles ∧
      ∀ y ∈ x :: rest, ∀ p, blk'.warp y.w = some p → y.k ∉ p.matQ)

/-- GANG_BROKEN (10_matrix.md R212): members that disagree, or a member that left, give every arrived MMA the fault. -/
def GangBroken (s : State) (b : Nat) (mask : Mask) : Prop :=
  ∀ blk x rest all, s.m.block b = some blk → s.m.alive blk = true → blk.gangHere mask = (x :: rest, all) →
    ((all = true ∧ ∃ y ∈ rest, x.agrees y = false) ∨ ∃ w, mask.getLsbD w = true ∧ blk.leftGang mask w = true) →
    Leaves s (.gangBroken b mask) (fun m => m.mem = s.m.mem ∧ ∃ blk', m.block b = some blk' ∧ blk'.tiles = blk.tiles ∧
      ((∃ w, mask.getLsbD w = true ∧ blk.leftGang mask w = true) → mask ∈ blk'.broken))

/-- COPY_PIECE_LAND (11_async_armature.md R234) of a copy that names no barrier: the piece's bytes land, in the scratchpad or in
global memory. Every source byte is read before the first piece lands, once the warp's earlier stores and atomics have performed
and its earlier loads and copies have read (06_isa_control.md R143). -/
def CopyPieceLand (s : State) (b w op piece : Nat) : Prop :=
  ∀ blk x o dir dst src n data pieces landed k bs, s.m.warp b w = some (blk, x) → x.ops.find op = some o →
    o.payload = .copy dir dst src n none data pieces landed → pieces.find? (fun p => p.1 = piece) = some (piece, k) →
    o.fault = none → s.m.alive blk = true → s.m.bad = [] →
    (data = some bs ∨ (data = none ∧ x.sourceTurn o.seq = true ∧
      if dir = 0 then ∃ ks, s.m.coreKeys blk.core blk.ctx .read src n = .ok ks ∧ bs = ks.map s.m.mem.get
      else bs = (List.range n).map (fun i => blk.scratch.get (src + i)))) →
    (dir ≠ 1 → Leaves s (.copyPieceLand b w op piece) (fun m => m.mem = s.m.mem ∧ ∃ blk', m.block b = some blk' ∧
      blk'.scratch = put blk.scratch ((List.range k).map (fun i => dst + piece + i)) ((bs.drop piece).take k))) ∧
    ∀ kd, dir = 1 → s.m.coreKeys blk.core blk.ctx .write (dst + piece) k = .ok kd →
      Leaves s (.copyPieceLand b w op piece) (fun m => m.mem = put s.m.mem kd ((bs.drop piece).take k))

/-- WAIT_POLL_TIMER (11_async_armature.md R238): a wait on a barrier whose word shows the other phase is met. -/
def WaitPollTimer (s : State) (b w op : Nat) : Prop :=
  ∀ blk x o g key phase met, s.m.warp b w = some (blk, x) → x.ops.find op = some o → s.m.alive blk = true →
    o.payload = .barWait g key phase met → s.m.anyBad (o.waitKeys s.m blk x) = false →
    Leaves s (.waitPollTimer b w op) (fun m => m.mem = s.m.mem ∧ WarpIn m b w (fun y =>
      (y.ops.find op).map (·.payload) =
        some (.barWait g key phase (met || (s.m.barWord blk g key).testBit 63 != phase))))

/-- SLEEP_TIMEOUT (11_async_armature.md R241): once its cycle has come the SLEEP is over. -/
def SleepTimeout (s : State) (b w op : Nat) : Prop :=
  ∀ blk x o sp key addr c due acq scope dest, s.m.warp b w = some (blk, x) → x.ops.find op = some o →
    o.payload = .sleep sp key addr c (some due) acq scope dest false → due ≤ s.now →
    Becomes s (.sleepTimeout b w op) (s.m.setWarp b w { x with
      ops := x.ops.put op { o with payload := .sleep sp key addr c (some due) acq scope dest true } })

/-- SLEEP_COMPLETE (11_async_armature.md R241) of a SLEEP on a scratchpad word: D receives the word, and the warp no longer
sleeps for it. -/
def SleepComplete (s : State) (b w op : Nat) : Prop :=
  ∀ blk x o key addr c due scope dest, s.m.warp b w = some (blk, x) → x.ops.find op = some o →
    o.payload = .sleep .s key addr c due false scope dest true → s.m.alive blk = true → o.fault = none → o.flagDone = false →
    x.queue = [] →
    x.loadWaits o.seq .s false ((List.range 4).map (fun i => key + i)) = false →
    Leaves s (.sleepComplete b w op) (fun m => m.mem = s.m.mem ∧ WarpIn m b w (fun y => y.sleeping = x.sleeping.filter (· ≠ op) ∧
      ∃ r : Result, r.dest = some dest ∧ r.n = 1 ∧ r.mask = o.mask ∧
        r.vals = valsOf 1 (lanesOf o.mask 64) (fun _ _ =>
          BitVec.ofNat 32 (leNat ((List.range 4).map (fun i => blk.scratch.get (key + i))))) ∧
        y.v = ((x.settle s.now).writeResult r).v))

/-- BATCH_RETIRE (11_async_armature.md R229): the oldest outstanding batch of a class retires when each of its operations is
complete or has faulted, and the faults are its marks; an operation that stands at a translation fault, which is to be outstanding
again, keeps its place. What
its operations have raised is in FLAGS by then (04_numbers.md R90). -/
def BatchRetire (s : State) (b w cls : Nat) : Prop :=
  ∀ blk x, s.m.warp b w = some (blk, x) → s.m.alive blk = true →
    let q := x.batch cls
    let n := (q.open_ - BitVec.ofNat 16 q.out).toNat
    let marks := (x.batchOps cls n).foldl (fun l e => match e.2.fault with
      | some f => l.put e.1 (n, f)
      | none => l) q.bad
    q.out ≠ 0 → x.batchOver cls n = true →
    Leaves s (.batchRetire b w cls) (fun m => m.mem = s.m.mem ∧ WarpIn m b w (fun y =>
      y.batch cls = { q with out := q.out - 1, bad := marks } ∧
      (∀ e ∈ x.batchOps cls n, ∀ k, (e.2.payload.raised).getLsbD k = true → y.flags.getLsbD k = true) ∧
      ∀ e ∈ y.ops, e.2.batch = some (cls, n) → e.2.unresolved = true))

/-! ### Bulk transfers (11_async_armature.md R235, R236, 21_fabric.md R363) -/

/-- CPYB_FINISH: a transfer within the package copies its bytes and has finished; one to another package ends as that
package answers; one to the host is handed to the transport. -/
def CpybFinish (s : State) (n : Nat) (far : FarReply) : Prop :=
  ∀ x, s.m.bulks.find n = some x → x.done = false → (s.m.ctx x.ctx).state ≠ 5 → s.m.bulkWaits n = false →
    s.m.sourceTurn x = true →
    (∀ ks kd, x.data = none → s.m.side x.srcT = .here → s.m.side x.dstT = .here → s.m.bad = [] →
      s.m.engineKeys x.ctx .read x.src x.count = .ok ks → ks.length = x.count →
      s.m.engineKeys x.ctx .write x.dst x.count = .ok kd →
      Leaves s (.cpybFinish n far) (fun m => m.mem = put s.m.mem kd (s.m.bytes ks) ∧
        ∃ y, m.bulks.find n = some y ∧ y.done = true ∧ y.status = 0 ∧ y.moved = x.count)) ∧
    (∀ d, x.data = some d → s.m.side x.dstT = .far → far.cause = 0 →
      Leaves s (.cpybFinish n far) (fun m => m.mem = s.m.mem ∧ ∃ y, m.bulks.find n = some y ∧ y.done = true ∧ y.moved = d.length)) ∧
    (∀ d, x.data = some d → s.m.side x.dstT = .far → far.cause ∈ [0xA1, 0xA2, 0xA3, 0xA7] →
      (far.cause = 0xA1 → s.m.noRoute s.now x = true) →
      Leaves s (.cpybFinish n far) (fun m => m.mem = s.m.mem ∧ ∃ y, m.bulks.find n = some y ∧ y.done = true ∧ y.status = 1 ∧
        y.cause = far.cause ∧ y.moved = min far.landed d.length)) ∧
    (∀ d, x.data = some d → s.m.side x.dstT = .host → d ≠ [] → x.dst + d.length ≤ (s.m.ctx x.ctx).pair 8 →
      Leaves s (.cpybFinish n far) (fun m => m.mem = s.m.mem ∧
        m.rma.find s.m.rmaSent = some ((s.m.ctx x.ctx).hostEnd, .bulkWrite n x.dst d)))

/-- CPYB_RECORD (R236): the record of the first transfer of its ring to finish is written, and the transfer is past. -/
def CpybRecord (s : State) (n : Nat) : Prop :=
  ∀ x ks r m', s.m.bulks.find n = some x → x.done = true → (s.m.ctx x.ctx).state ≠ 5 →
    (∀ e ∈ s.m.bulks, e.2.done = true → e.2.ctx = x.ctx → e.2.ring = x.ring → x.fin ≤ e.2.fin) →
    s.m.engineKeys x.ctx .read x.ring 32 = .ok ks → s.m.anyBad ks = false → s.m.readRing x.ctx x.ring = .ok r →
    r.room = true → s.m.putRecord s.now x.ctx x.ring r (x.record (r.seq + 1)) = .ok m' →
    Leaves s (.cpybRecord n) (fun m => m.mem = m'.mem ∧ m.bulks.find n = none)

/-- REMOTE_CPYB_ARRIVE (R361, R363): a transfer that names no context of its FTID is refused with REMOTE_REFUSED and changes
nothing; another one writes its bytes, or sends back the bytes that it reads, and is answered. -/
def RemoteCpybArrive (s : State) (x : BulkMsg) : Prop :=
  let c := s.m.ctx x.ctx
  let p := s.m.part c.part
  let good : Prop := c.v = true ∧ c.state ≠ 5 ∧ p.ftid = x.ftid ∧ p.isSet = true
  Leaves s (.remoteCpybArrive x) (fun m =>
    (¬good → m.mem = s.m.mem ∧ m.answers = (x.src, { cause := 0xA2, landed := 0, data := [] }) :: s.m.answers) ∧
    (∀ ks, good → x.write = true → x.addr.toNat + x.data.length ≤ 2 ^ 57 → s.m.bad = [] →
      s.m.engineKeys x.ctx .write x.addr.toNat x.data.length = .ok ks → m.mem = put s.m.mem ks x.data ∧
        m.answers = (x.src, { cause := 0, landed := x.data.length, data := [] }) :: s.m.answers) ∧
    (∀ ks, good → x.write = false → x.addr.toNat + x.count ≤ 2 ^ 57 → s.m.bad = [] →
      s.m.engineKeys x.ctx .read x.addr.toNat x.count = .ok ks → m.mem = s.m.mem ∧
        m.answers = (x.src, { cause := 0, landed := 0, data := ks.map s.m.mem.get }) :: s.m.answers))

/-- CPYB_NO_ROUTE (R363): after 1 ms without a route to the other package, the transfer stops with LINK_DOWN. Since when none leads
there beyond this package's own links is free, and the 1 ms counts from the transfer's start at the earliest (DESIGN CHOICE, log
entry 79). -/
def CpybNoRoute (s : State) (n : Nat) : Prop :=
  ∀ x c, s.m.bulks.find n = some x → x.done = false → (s.m.ctx x.ctx).state ≠ 5 →
    (s.m.side x.srcT = .far ∨ s.m.side x.dstT = .far) → s.m.routeLost s.now (s.m.farPackage x) = some c → c + cyclesPerMs ≤ s.now →
    x.start + cyclesPerMs ≤ s.now → s.m.sourceTurn x = true →
    Leaves s (.cpybNoRoute n) (fun m => m.mem = s.m.mem ∧
      ∃ y, m.bulks.find n = some y ∧ y.done = true ∧ y.status = 1 ∧ y.cause = 0xA1)

/-! ### Stops, traps and resumption (12_core_scheduling.md R268 to R272, 18_traps.md R337 to R346) -/

/-- WARP_STOP (12_core_scheduling.md R269): a warp that a broadcast reaches at a clause boundary stops there, at the
address of the clause that it would have started. -/
def WarpStop (s : State) (b w : Nat) : Prop :=
  ∀ blk x, s.m.warp b w = some (blk, x) → x.stop = none → x.clause = none → x.ended = false → blk.out = false →
    blk.past = false → s.m.alive blk = true → blk.primary ≠ none → blk.halted = false →
    Leaves s (.warpStop b w) (fun m => m.mem = s.m.mem ∧ WarpIn m b w (fun y => y.v = x.v ∧
      ∃ st, y.stop = some st ∧ st.how = 1 ∧ st.cause = 0 ∧ st.cycle = s.now ∧ st.pos = 0 ∧
        st.rhdr = (x.slot (s.m.nextSlot blk x)).pc.toNat))

/-- HALT_BROADCAST (12_core_scheduling.md R269, R270): two cycles after the first failure the block learns its primary warp. -/
def HaltBroadcast (s : State) (b : Nat) : Prop :=
  ∀ blk w st, s.m.block b = some blk → blk.out = false → blk.past = false → s.m.alive blk = true → blk.halted = false →
    blk.primary = none → blk.primaryStop = some (w, st) → st.cycle + 2 ≤ s.now → s.m.bad = [] →
    Leaves s (.haltBroadcast b) (fun m => m.mem = s.m.mem ∧
      ∃ blk', m.block b = some blk' ∧ blk'.primary = some w ∧ blk'.halted = false)

/-- WARP_SLOT_FREE (06_isa_control.md R138): an ended warp with nothing outstanding gives up its slot. With the last one the block
ends, at once where every operation is over, or has faulted and been reported, and no stop or fault is to come; and later, by a warp
whose slot is freed already, where the last operation outlasts its flag (the block's end is a DESIGN CHOICE, log entry 55). -/
def WarpSlotFree (s : State) (b w : Nat) : Prop :=
  ∀ blk x, s.m.warp b w = some (blk, x) →
    (x.ended = true → x.freed = false → x.issuedTo ≤ s.now → x.queue = [] → x.stop = none → x.noFlag = none → x.bits = 0 →
      (∀ e ∈ x.ops, (e.2.fault.isSome = true ∧ e.2.reported = true) ∨ e.2.flagDone = true ∨ (e.2.flag = none ∧ e.2.fault = none)) →
      Leaves s (.warpSlotFree b w) (fun m => m.mem = s.m.mem ∧ WarpIn m b w (fun y => y.freed = true ∧ y.v = x.v) ∧
        ∃ blk', m.block b = some blk' ∧ ((∀ e ∈ blk'.warps, e.2.gone = true) → blk'.past = true))) ∧
    (x.freed = true → blk.past = false → (∀ e ∈ blk.warps, e.2.gone = true) →
      Leaves s (.warpSlotFree b w) (fun m => m.mem = s.m.mem ∧
        ∃ blk', m.block b = some blk' ∧ blk'.past = true ∧ blk'.warps = blk.warps))

/-- HANDLER_ENTRY (18_traps.md R340, R341): the trap frame is written; the warp starts at HNDL with the stopped slot's lanes,
an empty stack, clear flags and an empty map, and its shadow keeps what it had. -/
def HandlerEntry (s : State) (b w : Nat) : Prop :=
  ∀ blk x st rest ks, s.m.warp b w = some (blk, x) → blk.await = w :: rest → x.stop = some st → blk.halted = true →
    blk.routed = true → blk.running = none → blk.out = false → s.m.alive blk = true → (∀ e ∈ blk.failures, routeOf e.2.cause ≠ .system) →
    s.m.bad = [] →
    let la := s.m.launchOf blk
    frameAt la blk.b w + 256 ≤ 2 ^ 57 → s.m.coreKeys blk.core blk.ctx .write (frameAt la blk.b w) 256 = .ok ks →
    Leaves s (.handlerEntry b w) (fun m => m.mem = put s.m.mem ks (trapFrame blk w x st) ∧
      (∃ blk', m.block b = some blk' ∧ blk'.handler = some w ∧ blk'.await = rest) ∧
      WarpIn m b w (fun y =>
        y.s0 = { pc := BitVec.ofNat 57 la.hndl, mask := if x.ended then widthMask blk.width else (x.slot st.info.slot).mask } ∧
        y.s1 = .empty ∧ y.stack = [] ∧ y.spilled = [] ∧ y.map = [] ∧ y.counts = [] ∧ y.bits = 0 ∧ y.stop = none ∧
        y.clause = none ∧ y.v = x.v ∧ y.preds = x.preds ∧ y.flags = x.flags ∧
        ∃ sh, y.shadow = some sh ∧ sh.s0 = x.s0 ∧ sh.s1 = x.s1 ∧ sh.stack = x.stack ∧ sh.spilled = x.spilled ∧
          sh.map = x.map ∧ sh.counts = x.counts ∧ sh.bits = x.bits))

/-- The fields of a trap frame (18_traps.md R340), which has 256 bytes. -/
def TrapFrame (blk : Block) (w : Nat) (x : Warp) (st : Stop) : Prop :=
  let f := fieldAt (trapFrame blk w x st)
  let mask : Mask := if x.ended then widthMask blk.width else (x.slot st.info.slot).mask
  (trapFrame blk w x st).length = 256 ∧
  f 0x00 1 = st.cause % 2 ^ 8 ∧ f 0x01 1 = st.kind % 2 ^ 8 ∧ f 0x02 1 = 0 ∧ f 0x03 1 = st.pos % 2 ^ 8 ∧ f 0x04 2 = x.bits.toNat ∧
  f 0x06 1 = st.info.lane % 2 ^ 8 ∧ f 0x07 1 = st.info.slot % 2 ^ 8 ∧ f 0x08 8 = st.rhdr % 2 ^ 64 ∧
  f 0x10 8 = st.info.ia % 2 ^ 64 ∧ f 0x18 8 = mask.toNat ∧ f 0x20 8 = st.info.fmask.toNat ∧ f 0x28 8 = st.info.faddr.toNat ∧
  f 0x30 4 = st.info.xcode.toNat ∧ f 0x34 4 = x.flags.toNat ∧ f 0x38 4 = x.pix.toNat ∧ f 0x3C 4 = blk.b % 2 ^ 32 ∧
  f 0x40 1 = w % 2 ^ 8 ∧ f 0x41 1 = blk.core / 64 % 2 ^ 8 ∧ f 0x42 1 = blk.core % 64 ∧
  ∀ k, 0x43 ≤ k → k < 256 → (trapFrame blk w x st).getD k 0 = 0

/-- BLOCK_RESUME (18_traps.md R337, R346, 12_core_scheduling.md R272): with no handler left to run and every cause resolved every
warp goes on; a warp whose cause asks for a kill has its context killed with the primary cause. -/
def BlockResume (s : State) (b : Nat) : Prop :=
  ∀ blk, s.m.block b = some blk → blk.halted = true → blk.routed = true → blk.out = false → s.m.alive blk = true →
    blk.uncovered = [] → blk.running = none → blk.await = [] → blk.primary ≠ none →
    (blk.failures = [] → Leaves s (.blockResume b) (fun m => m.mem = s.m.mem ∧ ∃ blk', m.block b = some blk' ∧ blk'.halted = false ∧
      blk'.primary = none ∧ blk'.handler = none ∧ ∀ e ∈ blk'.warps, e.2.stop = none ∧ e.2.skid = 0)) ∧
    (blk.failures ≠ [] → (∀ e ∈ blk.failures, routeOf e.2.cause ≠ .system) → (s.m.ctx blk.ctx).v = true →
      Leaves s (.blockResume b) (fun m => m.mem = s.m.mem ∧ Killed m blk.ctx blk.primaryCause 2))

/-- FAULT_TIMEOUT (18_traps.md R343): the context is killed with FAULT_TIMEOUT and STATUS 4. -/
def FaultTimeout (s : State) (b : Nat) : Prop :=
  ∀ blk d, s.m.block b = some blk → blk.noticeDue = some d → d ≤ s.now → blk.uncovered ≠ [] → s.m.alive blk = true →
    (s.m.ctx blk.ctx).v = true → Leaves s (.faultTimeout b) (fun m => m.mem = s.m.mem ∧ Killed m blk.ctx 0x88 4)

/-! ### The host, rings and packets (17_package.md R304 to R312, R326) -/

/-- RMA_WRITE (R304): a partition's key reaches its DRAM, and the system key the administrative memory, with the rails up that feed
them (23_physical.md R394); what is refused changes nothing. -/
def RmaWrite (s : State) (key : Word) (off : Nat) (data : List Byte) : Prop :=
  (∀ p ks, s.m.bellOf key off = none → key ≠ Config.sysKey → s.m.keyPart key = some p →
    (s.m.part p).rmaKeys off data.length = some ks → (∀ k ∈ ks, s.m.protectedKey p k = false ∧ s.m.boundKey p k = false) →
    s.m.bad = [] → s.m.reachable ks = true → Leaves s (.rmaWrite key off data) (fun m => m.mem = put s.m.mem ks data)) ∧
  (s.m.bellOf key off = none → key ≠ Config.sysKey →
    (s.m.keyPart key = none ∨ ∃ p, s.m.keyPart key = some p ∧ (s.m.part p).cht.length * 2 ^ 31 < off + data.length) →
    Becomes s (.rmaWrite key off data) (s.m.reread s.now)) ∧
  (s.m.bellOf key off = none → key = Config.sysKey → off + data.length ≤ 2 ^ 24 → 2 ≤ s.m.rails →
    Leaves s (.rmaWrite key off data) (fun m => m.mem = s.m.mem ∧ m.admin = s.m.admin.setList off data))

/-- RMA_READ (R304) changes nothing but a die's record of an error that it meets and the marks of the dirty lines that it looks up
(16_die.md R289). -/
def RmaRead (s : State) (key : Word) (off n : Nat) : Prop := Leaves s (.rmaRead key off n) (fun m =>
  m = { s.m with dies := m.dies, dirty := m.dirty })

/-- UE_ATOMIC (R304) is refused, and changes nothing. -/
def UeAtomic (s : State) (key : Word) (off : Nat) : Prop := Becomes s (.ueAtomic key off) s.m

/-- The last record of a ring: whether it is its running packet's, its STATUS, cause and reason (R312). -/
def LastRec (r : Ring) (own : Bool) (status cause reason : Nat) : Prop :=
  ∃ body rest, r.recs = rest ++ [{ body := body, own := own, stage := 0 }] ∧
    fieldAt body 8 1 = status ∧ fieldAt body 9 1 = cause ∧ fieldAt body 10 1 = reason

/-- A ring's running packet has ended, and its record is the ring's last (R312). -/
def Ended (m : Mach) (r status cause reason : Nat) : Prop :=
  (∃ p, (m.ringOf r).packet = some p ∧ p.ended = true) ∧ LastRec (m.ringOf r) true status cause reason

/-- DOORBELL_WRITE (R305, R306): WC takes the value; one that is lower than WC, or that is more than the ring's size ahead of
RC, stops the ring with QUEUE_OVERRUN. -/
def DoorbellWrite (s : State) (key : Word) (off : Nat) (wc : DWord) : Prop :=
  ∀ r, s.m.bellOf key off = some (r, 0) → (s.m.ringOf r).stopped = false → (s.m.ringOf r).dead = false → 2 ≤ s.m.rails →
    let x := s.m.ringOf r
    let tooFar : Prop := wc < x.wc ∨ 2 ^ s.m.ringLog r < (wc - x.rc).toNat
    Leaves s (.doorbellWrite key off wc) (fun m => m.mem = s.m.mem ∧ (m.ringOf r).wc = wc ∧
      (tooFar → (m.ringOf r).stopped = true ∧ LastRec (m.ringOf r) false 3 0x81 0) ∧
      (¬tooFar → (m.ringOf r).stopped = false ∧ (m.ringOf r).recs = x.recs))

/-- PACKET_FETCH (R305): the packet's 256 bytes are copied, and RC rises; a type that the ring does not accept is rejected
with reason 1 (R307, R311). -/
def PacketFetch (s : State) (r : Nat) : Prop :=
  s.m.mayFetch r = true → s.m.recovery = false → (r = 256 ∨ s.m.anyBad (s.m.slotKeys r (s.m.ringOf r).rc.toNat) = false) →
    (r = 256 ∨ ∀ d ∈ s.m.dies, d.2.off = false) →
    let x := s.m.ringOf r
    let bytes := if r = 256 then s.m.admin.getList (256 * (x.rc.toNat % 256)) 256 else s.m.bytes (s.m.slotKeys r x.rc.toNat)
    let known : Prop := if r = 256 then 0x40 ≤ fieldAt bytes 0 1 ∧ fieldAt bytes 0 1 ≤ 0x49
      else 1 ≤ fieldAt bytes 0 1 ∧ fieldAt bytes 0 1 ≤ 4
    Leaves s (.packetFetch r) (fun m => m.mem = s.m.mem ∧ (m.ringOf r).rc = x.rc + 1 ∧
      (∃ p, (m.ringOf r).packet = some p ∧ p.num = x.rc.toNat ∧ p.bytes = bytes ∧ p.begun = false) ∧
      (¬known → Ended m r 1 0 1))

/-- COMPLETION_RECORD (R312, R314): a record's body is written before its SEQ. -/
def CompletionRecord (s : State) (r : Nat) : Prop :=
  ∀ e rest, (s.m.ringOf r).recs = e :: rest →
    let x := s.m.ringOf r
    (r = 256 → e.stage = 0 → Leaves s (.completionRecord r) (fun m =>
      m.admin = s.m.admin.setList (0x10000 + 64 * (x.seq.toNat % 1024) + 8) e.body ∧ (m.ringOf r).seq = x.seq)) ∧
    (r = 256 → e.stage ≠ 0 → Leaves s (.completionRecord r) (fun m =>
      m.admin = s.m.admin.setList (0x10000 + 64 * (x.seq.toNat % 1024)) (leBytes (x.seq.toNat + 1) 8) ∧
      (m.ringOf r).seq = x.seq + 1 ∧ (m.ringOf r).recs = rest)) ∧
    (r ≠ 256 → e.stage = 0 → (s.m.ctx r).recordAt (x.seq.toNat + 1) + 64 ≤ (s.m.ctx r).pair 8 →
      Leaves s (.completionRecord r) (fun m => m.mem = s.m.mem ∧
        m.rma.find s.m.rmaSent = some ((s.m.ctx r).hostEnd, .record r ((s.m.ctx r).recordAt (x.seq.toNat + 1) + 8) e.body)))

/-- HOST_RMA_COMPLETION (R312): once the transport reports a record's body complete, SEQ is sent after it. -/
def HostRmaCompletion (s : State) (n : Nat) (data : List Byte) : Prop :=
  ∀ h r off bytes, s.m.rma.find n = some (h, .record r off bytes) →
    Leaves s (.hostRmaCompletion n data) (fun m => m.mem = s.m.mem ∧
      m.rma.find s.m.rmaSent = some ((s.m.ctx r).hostEnd, .seqWrite r (off - 8) (leBytes ((s.m.ringOf r).seq.toNat + 1) 8)))

/-- The reasons of R311, in its order 1, 2, 9, 3, 4, 5, 6, 7, 8, `n` being the first that applies and 0 when none does: `r` is what the
reads of CODE, PARAM and DESC gave. Which ranges reason 6 asks of WARPS, ACC, BST and SCR is log entry 64 (DEDUCED), and that every
launch checks the digest log entry 87 (DESIGN CHOICE). -/
def FirstReason (m : Mach) (la : Launch) (b : List Byte) (r : Option (LaunchReads × List Nat)) (n : Nat) : Prop :=
  let cls := ((m.entryOf la.ctx).map (fun e => entClass e.2)).getD 0
  let c1 : Prop := 2 ≤ fieldAt b 1 1 ∨ 3 ≤ la.mqm ∨ zeroIn b 0xF 0x10 = false ∨ zeroIn b 0x98 0x100 = false
  let c2 : Prop := la.part ≠ m.ctxPart la.ctx ∨ cls < la.pcls
  let c4 (h : CodeHeader) : Prop :=
    ¬(la.width = h.width ∧ la.warps = h.warps ∧ la.prod = h.prod ∧ h.win ≤ la.win ∧ h.uni ≤ la.uni ∧ h.acc ≤ la.acc ∧ h.bst ≤ la.bst ∧
      h.scr ≤ la.scr ∧ ∀ k < (h.csz + 0xFFFF) / 0x10000, ∃ pa, m.translateEngine la.ctx (la.code + 0x10000 * (k + 1)) .read = .ok pa ∧
        (m.part la.part).exec.find (pa / 2 ^ 16) = some { win := h.win, uni := h.uni, width := h.width })
  let badNf (x : Word) : Prop :=
    let f := Num.nfOf x
    f.w = 0 ∨ 8 < f.w ∨ f.pol = 3 ∨ x &&& 0xFFFC0080#32 ≠ 0 ∨ (f.pol = 0 ∧ (f.e < 2 ∨ f.m < 1))
  let c5 : Prop := la.mode &&& 0xFFFFE080#32 ≠ 0 ∨ ∃ x ∈ la.nf, badNf x
  let c6 : Prop := la.nx = 0 ∨ la.ny = 0 ∨ la.nz = 0 ∨ 65536 < fieldAt b 0x2C 4 ∨ la.warps = 0 ∨ 64 < la.warps ∨ 1024 < la.acc ∨
    6144 < la.bst ∨ la.scr % 256 ≠ 0 ∨ (la.warps ≤ la.prod ∧ la.prod ≠ 0xFF) ∨ la.win = 0 ∨ 256 < la.win ∨ 64 < la.uni ∨
    la.width ∉ [8, 16, 32, 64]
  let c8 : Prop := la.mqm ≠ 0 ∧ (la.mqlog = 0 ∨ la.mqlog % 64 ≠ 0 ∨ la.mqlen < 0x40 + 2 * la.blocks ∨ (la.mqm ≠ 1 ∧ m.logOk la = false))
  (c1 → n = 1) ∧ (¬c1 → c2 → n = 2) ∧ (¬c1 → ¬c2 → r = none → n = 9) ∧
  ∀ x ks, ¬c1 → ¬c2 → r = some (x, ks) →
    let c3 : Prop := x.hdr.magic ≠ 0x4F42434F ∨ x.hdr.ver ≠ 1 ∨ la.code % 2 ^ 16 ≠ 0 ∨ objectDigest x.obj ≠ x.hdr.dig
    (c3 → n = 3) ∧ (¬c3 → c4 x.hdr → n = 4) ∧ (¬c3 → ¬c4 x.hdr → c5 → n = 5) ∧ (¬c3 → ¬c4 x.hdr → ¬c5 → c6 → n = 6) ∧
    (¬c3 → ¬c4 x.hdr → ¬c5 → ¬c6 → m.fitsSome la = false → n = 7) ∧
    (¬c3 → ¬c4 x.hdr → ¬c5 → ¬c6 → m.fitsSome la = true → c8 → n = 8) ∧
    (¬c3 → ¬c4 x.hdr → ¬c5 → ¬c6 → m.fitsSome la = true → ¬c8 → n = 0)

/-- LAUNCH_PACKET (R311): the first reason that applies rejects the packet; without one the launch begins. -/
def LaunchPacket (s : State) (ctx : Nat) : Prop :=
  ∀ p, s.m.packetOf ctx 1 = some p → p.begun = false → ctx < 256 → s.m.bad = [] →
    let la := launchOfPacket ctx p.num p.bytes
    let r := s.m.launchReads la p.bytes
    let reason := s.m.launchReason la p.bytes r.toOption
    FirstReason s.m la p.bytes r.toOption reason ∧
    (reason ≠ 0 → Leaves s (.launchPacket ctx) (fun m => m.launches = s.m.launches ∧ Ended m ctx 1 0 reason)) ∧
    (∀ x ks, reason = 0 → r = .ok (x, ks) → la.mqm ≠ 1 → Leaves s (.launchPacket ctx) (fun m => m.mem = s.m.mem ∧
      (∃ q, (m.ringOf ctx).packet = some q ∧ q.begun = true ∧ q.ended = false) ∧
      ∃ l, m.launches.find s.m.nextId = some l ∧ l.param = x.param ∧ l.entry = la.code + 0x10000 + x.hdr.entry ∧ l.nextB = 0))

/-- No TLB holds a translation of a context that overlaps a range; a range of 0 bytes stands for every address. -/
def NoTlb (m : Mach) (ctx va n : Nat) : Prop :=
  ∀ l, (∃ k, (k, l) ∈ m.utlb ∨ (k, l) ∈ m.ctlb) → ∀ e ∈ l, e.ctx = ctx → n ≠ 0 ∧ (va + n ≤ e.va ∨ e.va + e.size ≤ va)

/-- TLB_INVALIDATE_PACKET (R326). -/
def TlbPacket (s : State) (ctx : Nat) : Prop :=
  ∀ p, s.m.packetOf ctx 2 = some p → ctx < 256 →
    let va := fieldAt p.bytes 8 8
    let n := fieldAt p.bytes 0x10 8
    let good : Prop := zeroIn p.bytes 1 8 = true ∧ zeroIn p.bytes 0x18 0x100 = true ∧ va % 2 ^ 16 = 0 ∧ n % 2 ^ 16 = 0
    (good → Leaves s (.tlbInvalidatePacket ctx) (fun m => m.mem = s.m.mem ∧ NoTlb m ctx va n ∧ Ended m ctx 0 0 0)) ∧
    (¬good → Leaves s (.tlbInvalidatePacket ctx) (fun m => m.mem = s.m.mem ∧ Ended m ctx 1 0 1))

/-- CODE_MAP (R308): a malformed packet is rejected; otherwise its granules are translated first, and protected. -/
def CodeMap (s : State) (ctx : Nat) : Prop :=
  ∀ p, s.m.packetOf ctx 3 = some p → p.begun = false → ctx < 256 →
    let b := p.bytes
    let good : Prop := codeRangeOk b = true ∧ fieldAt b 1 1 ∈ [8, 16, 32, 64] ∧ 1 ≤ fieldAt b 2 2 ∧ fieldAt b 2 2 ≤ 256 ∧
      fieldAt b 4 1 ≤ 64 ∧ zeroIn b 5 8 = true
    let vas := granules (fieldAt b 8 8) (fieldAt b 0x10 8)
    (¬good → Leaves s (.codeMap ctx) (fun m => m.mem = s.m.mem ∧ m.parts = s.m.parts ∧ Ended m ctx 1 0 1)) ∧
    (∀ c va, good → s.m.mapGranules ctx vas = .error (c, va) → c ≠ 0x66 →
      Leaves s (.codeMap ctx) (fun m => m.mem = s.m.mem ∧ m.parts = s.m.parts ∧ Ended m ctx 5 (c % 2 ^ 8) 0)) ∧
    (∀ gs, good → s.m.mapGranules ctx vas = .ok gs → Leaves s (.codeMap ctx) (fun m => m.mem = s.m.mem ∧
      (∃ q, (m.ringOf ctx).packet = some q ∧ q.begun = true ∧ q.ended = false) ∧
      ∀ g ∈ gs, (m.part (s.m.ctxPart ctx)).protectedPA g.2 = true))

/-- CODE_MAP's second event (R308, steps 3 and 4): its granules are scanned in ascending order against the packet's WIN and UNI. The
first one that is rejected ends the packet with STATUS 5 and the scanner's status, and puts none in the execute table; when every one
passes, each enters it with the packet's WIN, UNI and WIDTH, and no other changes. Either way the packet's protection is over. -/
def CodeScan (s : State) (ctx : Nat) : Prop :=
  ∀ p, s.m.packetOf ctx 3 = some p → p.begun = true → ctx < 256 → s.m.bad = [] →
    let b := p.bytes
    let part := s.m.ctxPart ctx
    let scan (pa : Nat) : Option (Nat × Nat) := s.m.scanPA part pa (fieldAt b 2 2) (fieldAt b 4 1) false
    let pas := ((s.m.part part).guarded.filter (fun g => g.1 = ctx)).map (fun g => 2 ^ 16 * g.2)
    let pairs := (granules (fieldAt b 8 8) (fieldAt b 0x10 8)).zip pas
    let lapsed (m : Mach) : Prop := m.mem = s.m.mem ∧ ∀ g ∈ (m.part part).guarded, g.1 ≠ ctx
    codeRangeOk b = true → fieldAt b 1 1 ∈ [8, 16, 32, 64] → 1 ≤ fieldAt b 2 2 → fieldAt b 2 2 ≤ 256 → fieldAt b 4 1 ≤ 64 →
    zeroIn b 5 8 = true →
    ((∀ q ∈ pairs, scan q.2 = none) → Leaves s (.codeMap ctx) (fun m => lapsed m ∧ Ended m ctx 0 0 0 ∧
      ∀ g, (m.part part).exec.find g = if g ∈ pas.map (· / 2 ^ 16) then
        some { win := fieldAt b 2 2, uni := fieldAt b 4 1, width := fieldAt b 1 1 } else (s.m.part part).exec.find g)) ∧
    ∀ pre q post off st, pairs = pre ++ q :: post → (∀ x ∈ pre, scan x.2 = none) → scan q.2 = some (off, st) →
      Leaves s (.codeMap ctx) (fun m => lapsed m ∧ Ended m ctx 5 0 (st % 2 ^ 8) ∧ (m.part part).exec = (s.m.part part).exec)

/-- CODE_UNMAP (R308): a malformed packet is rejected; one of which no granule is executable ends at once; and where no unfinished
launch uses a granule, every granule of the range leaves the execute table, no other does, and the packet ends. -/
def CodeUnmap (s : State) (ctx : Nat) : Prop :=
  ∀ p, s.m.packetOf ctx 4 = some p → ctx < 256 →
    let b := p.bytes
    let good : Prop := codeRangeOk b = true ∧ zeroIn b 1 8 = true
    (¬good → Leaves s (.codeUnmap ctx) (fun m => m.mem = s.m.mem ∧ Ended m ctx 1 0 1)) ∧
    (good → (∀ va ∈ granules (fieldAt b 8 8) (fieldAt b 0x10 8), ∀ pa, s.m.translateEngine ctx va .read = .ok pa →
        (s.m.part (s.m.ctxPart ctx)).exec.find (pa / 2 ^ 16) = none) →
      Leaves s (.codeUnmap ctx) (fun m => m.mem = s.m.mem ∧ Ended m ctx 0 0 0)) ∧
    let named (g : Nat) : Prop := ∃ va ∈ granules (fieldAt b 8 8) (fieldAt b 0x10 8), ∃ pa,
      s.m.translateEngine ctx va .read = .ok pa ∧ pa / 2 ^ 16 = g
    (good → (∀ g, named g → s.m.granuleInUse (s.m.ctxPart ctx) g = false) →
      Leaves s (.codeUnmap ctx) (fun m => m.mem = s.m.mem ∧
        (∀ g, named g → (m.part (s.m.ctxPart ctx)).exec.find g = none) ∧
        (∀ g, ¬named g → (m.part (s.m.ctxPart ctx)).exec.find g = (s.m.part (s.m.ctxPart ctx)).exec.find g) ∧ Ended m ctx 0 0 0))

/-- BLOCK_PLACE (12_core_scheduling.md R255, 02_warp_state.md R16, R17): the next block stands on the core that receives it,
each warp at the entry with every lane of the width, flags clear and WPRIO 8. -/
def BlockPlace (s : State) (n : Nat) : Prop :=
  ∀ la h core, s.m.launches.find n = some la → la.nextB < la.blocks → (s.m.ctx la.ctx).state = 2 →
    (s.m.ctx la.ctx).preempt = [] → (s.m.ctx la.ctx).half = some h → s.m.pickCore la h = some core → la.mqm ≠ 1 → s.m.bad = [] →
    Leaves s (.blockPlace n) (fun m => m.mem = s.m.mem ∧
      (∃ l, m.launches.find n = some l ∧ l.nextB = la.nextB + 1 ∧ l.lastCore = some core) ∧
      ∃ blk, m.block s.m.nextId = some blk ∧ blk.core = core ∧ blk.b = la.nextB ∧ blk.launch = n ∧
        blk.x = la.nextB % la.nx ∧ blk.y = la.nextB / la.nx % la.ny ∧ blk.z = la.nextB / la.nx / la.ny ∧
        blk.scratch = [] ∧ blk.warps.length = la.warps ∧
        ∀ e ∈ blk.warps, e.2.s0 = { pc := BitVec.ofNat 57 la.entry, mask := widthMask la.width } ∧ e.2.s1 = .empty ∧
          e.2.v = [] ∧ e.2.preds = [] ∧ e.2.counts = [] ∧ e.2.bits = 0 ∧ e.2.wprio = 8)

/-- LAUNCH_COMPLETE (R312): a launch whose blocks have all ended, with nothing outstanding, ends with STATUS 0. -/
def LaunchComplete (s : State) (n : Nat) : Prop :=
  ∀ la p, s.m.launches.find n = some la → la.blocks ≤ la.nextB → (s.m.ctx la.ctx).state ≠ 5 → la.mqm = 0 →
    (∀ e ∈ s.m.blocks, e.2.launch = n → e.2.past = true ∧ ∀ w ∈ e.2.warps, ∀ o ∈ w.2.ops, o.2.past = true) →
    (∀ e ∈ s.m.bulks, e.2.ctx ≠ la.ctx) → (s.m.ringOf la.ctx).packet = some p →
    Leaves s (.launchComplete n) (fun m => m.mem = s.m.mem ∧ m.launches.find n = none ∧ (∀ e ∈ m.blocks, e.2.launch ≠ n) ∧
      Ended m la.ctx 0 0 0)

/-! ### Administrative commands (17_package.md R315, R316, R326, R335, R336, 01_device.md R13) -/

/-- The running command of the administrative ring has a type. -/
def Command (s : State) (ty : Nat) (p : Packet) : Prop := s.m.packetOf 256 ty = some p

/-- A command that its own rule refuses: STATUS 1 and reason 10, and nothing but its record (R315). -/
def Refuses (s : State) (i : Instr) (cause : Nat) : Prop :=
  Leaves s i (fun m => m = { s.m with adminRing := m.adminRing } ∧ Ended m 256 1 cause 10)

/-- PART_SET (R315). -/
def PartSet (s : State) : Prop :=
  ∀ k, Command s 0x40 k →
    let b := k.bytes
    let p := fieldAt b 1 1
    zeroIn b 3 4 = true → zeroIn b 7 8 = true → zeroIn b 0x5C 0x60 = true → zeroIn b 0x68 0x100 = true →
      (s.m.setChannels b = none → Refuses s .partSet 0) ∧
      ∀ cht, s.m.setChannels b = some cht →
        (s.m.partSetOk s.caps p (setCores b) cht (setQuotas b) = false → Refuses s .partSet 0) ∧
        (s.m.partSetOk s.caps p (setCores b) cht (setQuotas b) = true → Leaves s .partSet (fun m => m.mem = s.m.mem ∧
          (m.part p).cores = setCores b ∧ (m.part p).cht = cht ∧ (m.part p).ftid = fieldAt b 4 2 ∧
          (m.part p).split = (b.getD 2 0).getLsbD 0 ∧ (m.part p).exec = [] ∧
          (∀ c ∈ setCores b, m.quota.find (p * 512 + c) = some (setQuotas b)) ∧
          (∀ c ∈ cht, (m.channel c).v = true ∧ (m.channel c).own.toNat = p) ∧ Ended m 256 0 0 0))

/-- PART_CLEAR (R315): first every context of the partition is killed. -/
def PartClear (s : State) : Prop :=
  ∀ k, Command s 0x41 k → zeroIn k.bytes 2 0x100 = true →
    let p := fieldAt k.bytes 1 1
    (16 ≤ p → Refuses s .partClear 0) ∧
    (p < 16 → k.begun = false → Leaves s .partClear (fun m => m.mem = s.m.mem ∧ (m.part p).clearing = true ∧
      (∃ q, m.adminRing.packet = some q ∧ q.begun = true ∧ q.ended = false) ∧
      ∀ n, (s.m.ctx n).v = true → (s.m.ctx n).part = p → (m.ctx n).state = 5))

/-- ZEROISATION (01_device.md R13): no byte of the partition's channels, those of a stack that is off apart, keeps a value, no L1
keeps a line of them, and the partition holds nothing any more. -/
def Zeroisation (s : State) (p : Nat) : Prop :=
  (s.m.part p).zeroing = true → (∀ e ∈ s.m.dirty, s.m.lineBad e.1 = false) → Leaves s (.zeroisation p) (fun m =>
    (∀ ch c, (ch, c) ∈ s.m.channels → c.v = true → c.own.toNat = p →
      (∀ e ∈ m.l1, e.line / 2 ^ 24 ≠ ch) ∧ ((s.m.die (ch / 32)).off = false → ∀ k, k / 2 ^ 31 = ch → m.mem.get k = 0)) ∧
    (∀ ch c, (ch, c) ∈ m.channels → ¬(c.v = true ∧ c.own.toNat = p)) ∧
    (m.part p).cores = [] ∧ (m.part p).cht = [] ∧ (m.part p).exec = [] ∧ (m.part p).zeroing = false)

/-- CTX_SET (R315). -/
def CtxSet (s : State) : Prop :=
  ∀ k, Command s 0x42 k → zeroIn k.bytes 2 8 = true → zeroIn k.bytes 0x48 0x100 = true →
    let n := fieldAt k.bytes 1 1
    let w (j : Nat) : Word := BitVec.ofNat 32 (fieldAt k.bytes (8 + 4 * j) 4) &&& ctxMask j
    ((s.m.ctx n).state ≠ 0 → Refuses s .ctxSet 0) ∧
    ((s.m.ctx n).state = 0 → (s.m.part (bitsAt (w 0) 4 4)).isSet = false → Refuses s .ctxSet 0) ∧
    ((s.m.ctx n).state = 0 → (s.m.part (bitsAt (w 0) 4 4)).isSet = true → (s.m.ctx n).ring.recs = [] → s.m.bad = [] →
      Leaves s .ctxSet (fun m => m.mem = s.m.mem ∧ (∀ j, 1 ≤ j → j < 16 → (m.ctx n).word j = w j) ∧ Ended m 256 0 0 0))

/-- RUNLIST_WRITE (R315, R316). -/
def RunlistWrite (s : State) : Prop :=
  ∀ k, Command s 0x43 k → zeroIn k.bytes 1 2 = true → zeroIn k.bytes 4 8 = true → zeroIn k.bytes 0x10 0x100 = true →
    let e := fieldAt k.bytes 2 2
    (256 < e → Refuses s .runlistWrite 0) ∧
    (∀ bs, e ≤ 256 → s.m.staged (fieldAt k.bytes 8 8) (8 * e) = some bs → Leaves s .runlistWrite (fun m => m.mem = s.m.mem ∧
      m.runlist = (List.range e).map (fun i => BitVec.ofNat 64 (fieldAt bs (8 * i) 8) &&& 0x0000FFFFFFFF83FF#64) ∧
      Ended m 256 0 0 0))

/-- RING_RESTART (R306, R315): the stopped ring goes on with RC := WC. -/
def RingRestart (s : State) : Prop :=
  ∀ k, Command s 0x44 k → zeroIn k.bytes 2 0x100 = true →
    let n := fieldAt k.bytes 1 1
    let c := s.m.ctx n
    (c.v = false ∨ c.ring.stopped = false → Refuses s .ringRestart 0) ∧
    (c.v = true → c.ring.stopped = true → Leaves s .ringRestart (fun m => m.mem = s.m.mem ∧
      (m.ctx n).ring = { c.ring with stopped := false, rc := c.ring.wc } ∧ Ended m 256 0 0 0))

/-- KILL (R315, R324). -/
def KillCommand (s : State) : Prop :=
  ∀ k, Command s 0x45 k → zeroIn k.bytes 2 0x100 = true → k.begun = false →
    let n := fieldAt k.bytes 1 1
    ((s.m.ctx n).v = true → (s.m.ctx n).state ≠ 5 → Leaves s .kill (fun m => m.mem = s.m.mem ∧ Killed m n 0x87 4)) ∧
    ((s.m.ctx n).v = false → Leaves s .kill (fun m => m.mem = s.m.mem ∧ Ended m 256 0 0 0))

/-- TLBINV (R315, R326). -/
def Tlbinv (s : State) : Prop :=
  ∀ k, Command s 0x46 k → zeroIn k.bytes 2 8 = true → zeroIn k.bytes 0x18 0x100 = true →
    let va := fieldAt k.bytes 8 8
    let n := fieldAt k.bytes 0x10 8
    (¬(va % 2 ^ 16 = 0 ∧ n % 2 ^ 16 = 0) → Refuses s .tlbinv 0) ∧
    (va % 2 ^ 16 = 0 → n % 2 ^ 16 = 0 → Leaves s .tlbinv (fun m => m.mem = s.m.mem ∧ NoTlb m (fieldAt k.bytes 1 1) va n ∧
      Ended m 256 0 0 0))

/-- FW_LOAD (R335, 23_physical.md R397): an image that verifies stands in the inactive bank, which the next reset makes active. -/
def FwLoad (s : State) : Prop :=
  ∀ k, Command s 0x47 k → zeroIn k.bytes 1 8 = true → zeroIn k.bytes 0x48 0x100 = true →
    let f := fieldAt k.bytes
    let digest := (k.bytes.drop 0x18).take 32
    ((∃ e ∈ s.m.ctxs, 1 ≤ e.2.state ∧ e.2.state ≤ 5) → Refuses s .fwLoad 0x86) ∧
    (∀ img sg, (∀ e ∈ s.m.ctxs, ¬(1 ≤ e.2.state ∧ e.2.state ≤ 5)) → f 0x10 8 ≤ 2 ^ 23 → f 0x40 8 ≤ 2 ^ 11 →
      s.m.staged (f 8 8) (f 0x10 8) = some img → s.m.staged (f 0x38 8) (f 0x40 8) = some sg →
      (Shake.digest img ≠ digest ∨ Config.falconVerifies digest sg = false → Refuses s .fwLoad 0x86) ∧
      (Shake.digest img = digest → Config.falconVerifies digest sg = true → Leaves s .fwLoad (fun m => m.mem = s.m.mem ∧
        m.active = s.m.active ∧ m.fresh = 1 - s.m.active ∧ m.banks = s.m.banks.set (1 - s.m.active) img ∧ Ended m 256 0 0 0)))

/-- ATTEST (R315, R336): the report begins with the nonce and CAPS, and is signed. -/
def Attest (s : State) : Prop :=
  ∀ k, Command s 0x48 k → zeroIn k.bytes 1 8 = true → zeroIn k.bytes 0x30 0x100 = true →
    let off := fieldAt k.bytes 0x28 8
    let nonce := (k.bytes.drop 8).take 32
    let r := nonce ++ leBytes s.caps.word.toNat 4 ++ s.m.digests.flatten ++ Shake.digest (Config.setupBytes s.m.setupRecords)
    let signed := r ++ Config.falconSign (Shake.digest r)
    (2 ^ 24 - 0x20000 < off + signed.length → Refuses s .attest 0) ∧
    (off + signed.length ≤ 2 ^ 24 - 0x20000 → Leaves s .attest (fun m => m.mem = s.m.mem ∧
      m.admin = s.m.admin.setList (0x20000 + off) signed ∧ Ended m 256 0 0 0))

/-- MC_RESET (R315): a retired channel that no partition owns is zeroed first; when it reads back good, RET is clear. -/
def McReset (s : State) : Prop :=
  ∀ k, Command s 0x49 k → zeroIn k.bytes 3 0x100 = true →
    let die := fieldAt k.bytes 1 1
    let ch := 32 * die + fieldAt k.bytes 2 1
    let bad : Prop := s.caps.nstack.toNat ≤ die ∨ 32 ≤ fieldAt k.bytes 2 1 ∨ (s.m.channel ch).ret = false ∨ (s.m.channel ch).v = true
    (bad → Refuses s .mcReset 0) ∧
    (¬bad → k.begun = false → (s.m.die die).off = false → Leaves s .mcReset (fun m =>
      (∀ a, a / 2 ^ 31 = ch → m.mem.get a = 0) ∧ (∀ a, a / 2 ^ 31 ≠ ch → m.mem.get a = s.m.mem.get a) ∧
      ∃ q, m.adminRing.packet = some q ∧ q.begun = true ∧ q.ended = false)) ∧
    (¬bad → k.begun = true → (s.m.die die).off = false → (∀ g ∈ s.m.bad, g * 32 / 2 ^ 31 ≠ ch) → Leaves s .mcReset (fun m =>
      m.mem = s.m.mem ∧ (m.channel ch).ret = false ∧ Ended m 256 0 0 0))

/-! ### The run list, pre-emption, saving and killing (17_package.md R316 to R325) -/

/-- The soft request (R319): no further block is placed, and a grace timer of LAT µs starts on each die that holds blocks of
the context. -/
def SoftRequest (m : Mach) (t r : Nat) : Prop :=
  ∀ n e, (m.ctx r).state = 2 → (m.ctx r).preempt = [] → m.diesOf r ≠ [] → m.entryOf r = some (n, e) →
    ((m.softRequest t r).ctx r).state = 2 ∧ ((m.softRequest t r).ctx r).preempt = (m.diesOf r).map (fun d =>
      { die := d, step := 1, grace := t + bitsAt e 32 16 * cyclesPerUs, killt := 0 })

/-- SLICE_EXPIRY (R316): the context whose slice is over gets a soft request, and the partition is served. -/
def SliceExpiry (s : State) (ctx : Nat) : Prop :=
  (s.m.ctx ctx).v = true → (s.m.ctx ctx).state = 2 → (s.m.ctx ctx).preempt = [] → (s.m.ctx ctx).sliceEnd ≤ s.now →
    Becomes s (.sliceExpiry ctx) ((s.m.softRequest s.now ctx).serve s.now (s.m.ctx ctx).part)

/-- HIGHER_CLASS_READY (R320): the running context of a lower class gets a soft request, and the partition is served. -/
def HigherClassReady (s : State) (ctx : Nat) : Prop :=
  ∀ r, (s.m.ctx ctx).v = true → s.m.ctxReady (ctx, s.m.ctx ctx) = true → s.m.runningCtx (s.m.ctx ctx).part = some r →
    (s.m.ctx r).preempt = [] → (∃ e ∈ s.m.readyEntries (s.m.ctx ctx).part, e.2.1 = ctx ∧ s.m.classOf r < e.2.2) →
    Becomes s (.higherClassReady ctx) ((s.m.softRequest s.now r).serve s.now (s.m.ctx ctx).part)

/-- GRACE_EXPIRY (R319): every warp of the context on the die halts. -/
def GraceExpiry (s : State) (ctx die : Nat) : Prop :=
  ∀ p, (s.m.ctx ctx).preempt.find? (fun q => q.die = die) = some p → (s.m.ctx ctx).state ≠ 5 → p.step = 1 →
    p.grace ≤ s.now → (∃ e ∈ s.m.blocks, e.2.ctx = ctx ∧ e.2.core / 64 = die ∧ e.2.past = false) →
    Leaves s (.graceExpiry ctx die) (fun m => m.mem = s.m.mem ∧
      ∀ e ∈ m.blocks, e.2.ctx = ctx → e.2.core / 64 = die → e.2.past = false →
        ∀ w ∈ e.2.warps, w.2.stop.isSome = true ∨ w.2.ended = true)

/-- KILLT_EXPIRY (R319): the context is killed with PREEMPT_TIMEOUT and STATUS 4. -/
def KilltExpiry (s : State) (ctx die : Nat) : Prop :=
  ∀ p, (s.m.ctx ctx).preempt.find? (fun q => q.die = die) = some p → p.step = 2 → p.killt ≤ s.now →
    s.m.dieDrained s.now ctx die = false → (s.m.ctx ctx).state ≠ 5 → (s.m.ctx ctx).v = true →
    Leaves s (.killtExpiry ctx die) (fun m => m.mem = s.m.mem ∧ Killed m ctx 0x82 4)

/-- CONTEXT_SAVE (R318, R322): a save begins when no half is free and the context's image ran least recently. -/
def ContextSave (s : State) (ctx : Nat) : Prop :=
  (s.m.ctx ctx).state = 3 → (s.m.ctx ctx).saving = none → s.m.freeHalf (s.m.ctx ctx).part = none →
    s.m.oldestImage (s.m.ctx ctx).part = some ctx → s.m.wantsHalf (s.m.ctx ctx).part = true → s.m.bad = [] →
    Leaves s (.contextSave ctx) (fun m => (m.ctx ctx).state = 3 ∧ (m.ctx ctx).saving = some (s.m.nextId, 0))

/-- Of a block that a restore has put back (R323): it stands in its half on the core that it held, with its scratchpad and tiles,
and each warp has its registers, predicates, flags, PC slots and stack. -/
def Restored (h : Nat) (b : Block) (x : Block) : Prop :=
  x.half = h ∧ x.core = b.core ∧ x.ctx = b.ctx ∧ x.launch = b.launch ∧ x.b = b.b ∧ x.scratch = b.scratch ∧ x.tiles = b.tiles ∧
  ∀ w y, b.warp w = some y → ∃ z, x.warp w = some z ∧ z.v = y.v ∧ z.preds = y.preds ∧ z.flags = y.flags ∧ z.s0 = y.s0 ∧
    z.s1 = y.s1 ∧ z.stack = y.stack ∧ z.counts = y.counts ∧ z.bits = y.bits

/-- CONTEXT_RESTORE (R323, R318): an image whose MAGIC, VALID, PREV, CTX and DIG are right is put back into a free half, its blocks
on their cores and its launch with them, and the context is resident; one that fails a check kills the context with
SAVE_CORRUPT. That a body in the save area stands for the state that a save took is the model's (DESIGN CHOICE, log entry 10). -/
def ContextRestore (s : State) (ctx : Nat) : Prop :=
  let p := s.m.part (s.m.ctx ctx).part
  ∀ h hk, (s.m.ctx ctx).v = true → (s.m.ctx ctx).state = 4 → s.m.runningCtx (s.m.ctx ctx).part = none →
    p.clearing = false → p.zeroing = false →
    s.m.nextCtx (s.m.ctx ctx).part = some ctx → s.m.freeHalf (s.m.ctx ctx).part = some h → s.m.bad = [] →
    p.rmaKeys (s.m.ctx ctx).saveAt 0x40 = some hk → (∀ d ∈ s.m.dies, d.2.off = false) →
    let f := fieldAt (s.m.bytes hk)
    let body := p.rmaKeys ((s.m.ctx ctx).saveAt + 0x40) (f 8 8)
    let good : Prop := f 0 4 = 0x4F424358 ∧ f 4 1 = 1 ∧ f 5 1 = s.caps.prev.toNat ∧ f 6 1 = ctx ∧
      ∃ bk, body = some bk ∧ ((s.m.bytes hk).drop 0x10).take 32 = Shake.digest (s.m.bytes bk)
    (¬good → Leaves s (.contextRestore ctx) (fun m => m.mem = s.m.mem ∧ Killed m ctx 0x83 2)) ∧
    ∀ bk n img, good → body = some bk →
      s.m.images.find? (fun e => e.2.ctx = ctx && e.2.whole && imageBody e.1 e.2.steps = s.m.bytes bk) = some (n, img) →
      Leaves s (.contextRestore ctx) (fun m => m.mem = s.m.mem ∧ (m.ctx ctx).state ∈ [2, 3] ∧ (m.ctx ctx).half = some h ∧
        (∀ k b, (k, b) ∈ img.blocks → (∀ b', (k, b') ∈ img.blocks → b' = b) → ∃ x, m.block k = some x ∧ Restored h b x) ∧
        (∀ k l, (k, l) ∈ img.launches → (∀ l', (k, l') ∈ img.launches → l' = l) → m.launches.find k = some l))

/-- ENGINE_DRAINED (R324): the engine is no longer asked to drain. -/
def EngineDrained (s : State) (ctx engine : Nat) : Prop :=
  (s.m.ctx ctx).state = 5 → engine ∈ (s.m.ctx ctx).engines → (engine ≠ 1 ∨ s.m.rmaBusy ctx = false) →
    Leaves s (.engineDrained ctx engine) (fun m => m.mem = s.m.mem ∧ (m.ctx ctx).state = 5 ∧
      (m.ctx ctx).engines = (s.m.ctx ctx).engines.erase engine ∧ (engine = 1 → ∀ e ∈ m.bulks, e.2.ctx ≠ ctx))

/-- KILL_COMPLETE (R324): with every engine drained no block, launch, cached line or translation of the context is left, and
a notice says so. -/
def KillComplete (s : State) (ctx : Nat) : Prop :=
  (s.m.ctx ctx).state = 5 → (s.m.ctx ctx).engines = [] → ctx < 256 → s.m.packetOf 256 0x45 = none → s.m.bad = [] →
    Leaves s (.killComplete ctx) (fun m => m.mem = s.m.mem ∧ (∀ e ∈ m.blocks, e.2.ctx ≠ ctx) ∧
      (∀ e ∈ m.launches, e.2.ctx ≠ ctx) ∧ (∀ e ∈ m.l1, e.ctx ≠ ctx) ∧ NoTlb m ctx 0 0 ∧
      LastRec m.adminRing false ((s.m.ctx ctx).killStatus % 2 ^ 8) ((s.m.ctx ctx).killCause % 2 ^ 8) 0)

/-! ### Errors, power and temperature (15_cluster.md R284, 16_die.md R300 to R303, 23_physical.md R394 to R400) -/

/-- One more, in a counter that stays at its highest value. -/
def oneMore {n : Nat} (x : BitVec n) : BitVec n := if x = BitVec.allOnes n then x else x + 1

/-- SOFT_ERROR_CORRECTED (16_die.md R300, R303): CECNT rises, and nothing else changes. -/
def SoftError (s : State) (die : Nat) : Prop :=
  s.m.stackOn s.caps die = true → Leaves s (.softErrorCorrected die) (fun m =>
    m = { s.m with dies := m.dies } ∧ (m.die die).cecnt = oneMore (s.m.die die).cecnt)

/-- UNCORRECTABLE_ERROR (16_die.md R300, R303): a consumed error kills the context; in DRAM or in a home slice, one that
nothing consumes marks its granule. -/
def Uncorrectable (s : State) (ctx : Nat) : Prop :=
  (∀ core, s.m.stackOn s.caps (core / 64) = true → (s.m.ctx ctx).v = true → (s.m.ctx ctx).state ≠ 5 →
    Leaves s (.uncorrectableError (.store core) ctx) (fun m => m.mem = s.m.mem ∧ Killed m ctx 0x61 2 ∧
      (m.die (core / 64)).uesrc = 3 ∧ (m.die (core / 64)).uecnt = oneMore (s.m.die (core / 64)).uecnt)) ∧
  (∀ g, s.m.stackOn s.caps (g * 32 / 2 ^ 36) = true → (s.m.ctx ctx).v = false →
    Leaves s (.uncorrectableError (.dram g) ctx) (fun m => m.mem = s.m.mem ∧ g ∈ m.bad ∧ m.ctxs = s.m.ctxs) ∧
    Leaves s (.uncorrectableError (.l2data g) ctx) (fun m => m.mem = s.m.mem ∧ g ∈ m.bad ∧ m.ctxs = s.m.ctxs ∧
      (g ∉ s.m.bad → m.badInL2 g = true)))

/-- L1_TAG_ERROR (15_cluster.md R284): a tag error drops the lines of the core's rows (DEDUCED, log entry 68), a data error its line;
the counter rises. -/
def L1TagError (s : State) (core line : Nat) (tag : Bool) : Prop :=
  s.m.stackOn s.caps (core / 64) = true → Leaves s (.l1TagError core line tag) (fun m => m.mem = s.m.mem ∧ m.ctxs = s.m.ctxs ∧
    (∀ e ∈ m.l1, e ∈ s.m.l1 ∧ (e.core = core → tag = false ∧ e.line ≠ line)) ∧
    (m.cluster (core / 4)).terr = (if tag then oneMore (s.m.cluster (core / 4)).terr else (s.m.cluster (core / 4)).terr) ∧
    (m.cluster (core / 4)).derr = (if tag then (s.m.cluster (core / 4)).derr else oneMore (s.m.cluster (core / 4)).derr))

/-- L2_TAG_OR_EVICT_ERROR (16_die.md R302): the line, or for a tag every dirty line of its set, is lost: DRAM keeps its older bytes,
and no other byte changes; every context of the partition that owns the channel is killed with MC_L2_TAG or MC_EVICT. Which lines
share a set is free (DESIGN CHOICE, log entry 77). -/
def L2Error (s : State) (line : Nat) (tag : Bool) : Prop :=
  let ch := line / 2 ^ 24
  let lost (l : Nat) (d : DirtyLine) : Prop := s.m.dirty.find l = some d ∧
    (l = line ∨ (tag = true ∧ l / 2 ^ 24 = ch ∧ Config.l2Set l = Config.l2Set line))
  let covers (l : Nat) (d : DirtyLine) (a : Nat) : Prop := 128 * l ≤ a ∧ a < 128 * l + d.old.length
  s.m.stackOn s.caps (ch / 32) = true → (tag = true ∨ (s.m.dirty.find line).isSome = true) → (s.m.channel ch).v = true →
    Leaves s (.l2TagOrEvictError line tag) (fun m =>
      (∀ a, (∀ l d, lost l d → ¬covers l d a) → m.mem.get a = s.m.mem.get a) ∧
      (∀ a l d, lost l d → covers l d a → (∀ l' d', lost l' d' → l' ≠ l → ¬covers l' d' a) →
        m.mem.get a = d.old.getD (a - 128 * l) 0) ∧
      (∀ l d, lost l d → m.dirty.find l = none) ∧
      ∀ n, (s.m.ctx n).v = true → (s.m.ctx n).part = (s.m.channel ch).own.toNat →
        (m.ctx n).state = 5 ∧ ((s.m.ctx n).state ≠ 5 → Killed m n (if tag then 0x67 else 0x68) 2))

/-- SCRUB (16_die.md R303): it consumes nothing; an uncorrectable granule of the line is counted. -/
def Scrub (s : State) (line : Nat) : Prop :=
  s.m.stackOn s.caps (line * 128 / 2 ^ 31 / 32) = true → (s.m.channel (line * 128 / 2 ^ 31)).v = true →
    ((∀ g ∈ s.m.bad, g / 4 ≠ line) → Becomes s (.scrub line) s.m) ∧
    ((∃ g ∈ s.m.bad, g / 4 = line) → Leaves s (.scrub line) (fun m => m = { s.m with dies := m.dies } ∧
      (m.die (line * 128 / 2 ^ 31 / 32)).uecnt = oneMore (s.m.die (line * 128 / 2 ^ 31 / 32)).uecnt))

/-- POWER_ON (23_physical.md R394, R397): the next of the five rails reaches regulation within 10 ms of its start, and the next one
starts; with the last one the bank written last becomes active. That the first rail starts with the event is the model's (DESIGN
CHOICE, log entry 82). -/
def PowerOn (s : State) : Prop :=
  s.m.rails < 5 → s.m.railFail = none → (∀ c, s.m.railAt = some c → s.now ≤ c + 10 * cyclesPerMs) →
    Leaves s .powerOn (fun m => m.mem = s.m.mem ∧ m.rails = s.m.rails + 1 ∧
      (s.m.rails < 4 → m.railAt = some s.now ∧ m.active = s.m.active) ∧ (s.m.rails = 4 → m.railAt = none ∧ m.active = s.m.fresh))

/-- RAIL_TIMEOUT (R394, R396): a rail has not reached regulation in 10 ms of its start: the sequence stops at it, in recovery. That the
event tells of a start that was not seen is the model's (DESIGN CHOICE, log entry 82). -/
def RailTimeout (s : State) : Prop :=
  s.m.rails < 5 → s.m.railFail = none → (∀ c, s.m.railAt = some c → c + 10 * cyclesPerMs ≤ s.now) →
    Becomes s (.railTimeout (s.m.rails + 1)) { s.m with railFail := some (s.m.rails + 1), recovery := true }

/-- POWER_OFF (R394): the rail that is up last goes first; the flash keeps its banks. That the state of the part goes with the first
rail to go is the model's (DESIGN CHOICE, log entry 49). -/
def PowerOff (s : State) : Prop :=
  (∀ n, s.m.rails = n + 1 → Leaves s .powerOff (fun m => m.rails = n ∧ m.banks = s.m.banks)) ∧
  (s.m.rails = 5 → Leaves s .powerOff (fun m => m.ctxs = [] ∧ m.parts = [] ∧ m.blocks = []))

/-- BOOT_STAGE (R395, R396, R397): the stage that is verified is the next one of the active flash bank; one that does not verify
leads to recovery; stage 1 sets the package number, zeroes every channel and trains the links; stage 2 follows it, and its own
code passes the scanner with FLG.SYS and becomes executable (03_encoding.md R60). Where the bank holds its stages is free (DESIGN
CHOICE, log entry 80). -/
def BootStage (s : State) (digest sig : List Byte) (pkg : BitVec 12) : Prop :=
  let bank := s.m.banks.getD s.m.active []
  let good : Prop := Config.falconVerifies digest sig = true ∧ (s.m.boot = 1 → scansClean 256 64 true (Config.sysCode bank) = true)
  s.m.rails = 5 → s.m.recovery = false → digest = Shake.digest (Config.stageImage bank (s.m.boot + 1)) →
    sig = Config.stageSignature bank (s.m.boot + 1) →
    (s.m.boot < 2 → ¬good → Becomes s (.bootStage digest sig pkg) { s.m with recovery := true }) ∧
    (s.m.boot = 0 → good → Leaves s (.bootStage digest sig pkg) (fun m =>
      m.boot = 1 ∧ m.pkg = pkg ∧ m.digests = [digest] ∧ m.linksUp = true ∧ m.cutSince = none ∧ (∀ a, m.mem.get a = 0) ∧
      ∀ l < 32, m.isDown l = false ∧ m.linkEnd l = .trained s.now ∧ m.linkEnd (32 + l) = .trained s.now)) ∧
    (s.m.boot = 1 → good → Leaves s (.bootStage digest sig pkg) (fun m =>
      m.mem = s.m.mem ∧ m.boot = 2 ∧ m.pkg = s.m.pkg ∧ m.digests = s.m.digests ++ [digest] ∧
      ∀ k, (m.sysExec.find k).isSome = decide (2 ^ 16 * k < (Config.sysCode bank).length)))

/-- RESET (R397, R400): the bank written last becomes active, the boot starts again, and a stack that is off stays off. -/
def Reset (s : State) : Prop :=
  s.m.rails = 5 → Leaves s .reset (fun m => m.boot = 0 ∧ m.active = s.m.fresh ∧ m.banks = s.m.banks ∧ m.ctxs = [] ∧
    m.parts = [] ∧ m.blocks = [] ∧ ∀ d < 8, (m.die d).off = (s.m.die d).off)

/-- What a stack's going off at 115 °C leaves (R400): OFF is set, every context of a partition that the die serves is killed, and a
notice says so. -/
def StackGone (s : State) (die : Nat) (m : Mach) : Prop :=
  m.mem = s.m.mem ∧ (m.die die).off = true ∧ (m.die die).hot = true ∧ LastRec m.adminRing false 0x92 0 0 ∧
  ∀ n, (s.m.ctx n).v = true → s.m.partOnDie (s.m.ctx n).part die = true →
    (m.ctx n).state = 5 ∧ ((s.m.ctx n).state ≠ 5 → Killed m n 0x89 4)

/-- CURRENT_SAMPLE (R398, R399, R400): the current throttle stands from a sample above ILIM until one below it; HOT follows the
junction's temperature, the withholding of seven starts in eight ends below 100 °C, and at 115 °C the stack goes off. That a sample
carries the junction's temperature is the model's (DESIGN CHOICE, log entry 49). -/
def CurrentSample (s : State) (die amps : Nat) (tj : BitVec 8) : Prop :=
  let d := s.m.die die
  s.m.stackOn s.caps die = true → (d.sample = 0 ∨ d.sample + cyclesPerUs ≤ s.now) →
    (tj.toNat < 115 → Leaves s (.currentSample die amps tj) (fun m => m = { s.m with dies := m.dies } ∧ (m.die die).tj = tj ∧
      (m.die die).hot = decide (105 ≤ tj.toNat) ∧ (m.die die).ilim = d.ilim ∧
      (m.die die).seven = (d.seven && decide (100 ≤ tj.toNat)) ∧
      (m.die die).thr = (decide (d.ilim.toNat < amps) || (d.thr && decide (d.ilim.toNat = amps))))) ∧
    (115 ≤ tj.toNat → Leaves s (.currentSample die amps tj) (fun m => StackGone s die m ∧ (m.die die).tj = tj))

/-- JUNCTION_AT_105 (R399). -/
def JunctionAt105 (s : State) (die : Nat) : Prop :=
  s.m.stackOn s.caps die = true → (s.m.die die).hot = false → Leaves s (.junctionAt105 die) (fun m =>
    m = { s.m with dies := m.dies } ∧ (m.die die).hot = true ∧ (m.die die).thr = (s.m.die die).thr ∧ (m.die die).tj = 105)

/-- THERMAL_SUSTAINED (R399): after more than 1 ms at 105 °C seven starts in eight are withheld. -/
def ThermalSustained (s : State) (die : Nat) : Prop :=
  ∀ c, (s.m.die die).hotSince = some c → c + cyclesPerMs < s.now → (s.m.die die).seven = false →
    Leaves s (.thermalSustained die) (fun m => m = { s.m with dies := m.dies } ∧ (m.die die).seven = true ∧
      (m.die die).thr = (s.m.die die).thr)

/-- JUNCTION_BELOW_100 (R399). -/
def JunctionBelow100 (s : State) (die : Nat) (tj : BitVec 8) : Prop :=
  ((s.m.die die).hot = true ∨ (s.m.die die).seven = true) → tj.toNat < 100 → Leaves s (.junctionBelow100 die tj) (fun m =>
    m = { s.m with dies := m.dies } ∧ (m.die die).hot = false ∧ (m.die die).seven = false ∧
    (m.die die).thr = (s.m.die die).thr ∧ (m.die die).tj = tj)

/-- THERMAL_SHUTDOWN (R400): the junction stands at 115 °C, the stack is off, and every context of a partition that it serves is
killed. -/
def ThermalShutdown (s : State) (die : Nat) : Prop :=
  s.m.stackOn s.caps die = true → Leaves s (.thermalShutdown die) (fun m => StackGone s die m ∧ (m.die die).tj = 115)

/-! ### Links, collectives and gossip (21_fabric.md R360, R362, R366 to R379) -/

/-- FLIT_RECEIVE (R360): the next flit in sequence is taken; one whose CRC fails is discarded, the sender sends again from it, and a
failure of such a retransmission is counted; one out of sequence is discarded. The numbers of the directions are the model's (DESIGN
CHOICE, log entry 79). -/
def FlitReceive (s : State) (way seq : Nat) (crc : Bool) : Prop :=
  let e := s.m.linkEnd way
  let turns (x : LinkEnd) : Prop := Leaves s (.flitReceive way seq crc) (fun m => m = { s.m with flits := m.flits } ∧
    m.linkEnd way = x ∧ ∀ k, k ≠ way → m.linkEnd k = s.m.linkEnd k)
  way < 64 → s.m.linksUp = true → s.m.isDown (way % 32) = false →
    (seq = e.next → crc = true → turns { next := seq + 1, again := false, fails := 0, moved := s.now }) ∧
    (seq = e.next → crc = false → e.again = false → turns { e with again := true }) ∧
    (seq = e.next → crc = false → e.again = true → turns { e with fails := e.fails + 1 }) ∧
    (seq ≠ e.next → turns e)

/-- LINK_DOWN and LINK_UP (R360, R373): a link goes down after 32 failed retransmissions in a row or 100 µs without progress; the
link's state changes, a notice says so, the gossip messages that it carried learn that it went down, and the cycle in which the last
of the links went down is kept. That a link on which no flit moves may go down is the model's (DESIGN CHOICE, log entry 79). -/
def LinkTurns (s : State) (link far : Nat) : Prop :=
  link < 32 → far < 4096 → s.m.linksUp = true →
    (∀ way, s.m.isDown link = false → way = link ∨ way = 32 + link →
      (32 ≤ (s.m.linkEnd way).fails ∨ (s.m.linkEnd way).moved + 100 * cyclesPerUs ≤ s.now) →
      Leaves s (.linkDown link far) (fun m => m.mem = s.m.mem ∧ m.isDown link = true ∧ LastRec m.adminRing false 0x90 0 0 ∧
        (∀ k, k ≠ link → m.isDown k = s.m.isDown k) ∧
        ((∀ k < 32, m.isDown k = true) → m.cutSince = some (s.m.cutSince.getD s.now)) ∧
        ((∃ k < 32, m.isDown k = false) → m.cutSince = none) ∧ ∀ g ∈ m.gmsgs, g.2.link = link → g.2.cut = true)) ∧
    (s.m.isDown link = true → Leaves s (.linkUp link far) (fun m => m.mem = s.m.mem ∧ m.isDown link = false ∧
      LastRec m.adminRing false 0x91 0 0 ∧ m.linkEnd link = .trained s.now ∧ m.linkEnd (32 + link) = .trained s.now ∧
      m.cutSince = none))

/-- CONGESTION_MARK (R362): the rate is multiplied by 7/8, to no less than 1/1024, and at most once every 5 µs. -/
def CongestionMark (s : State) (ctl : Nat) : Prop :=
  let r := s.m.rate ctl
  ((∃ c, r.mark = some c ∧ s.now < c + 5 * cyclesPerUs) → Becomes s (.congestionMark ctl) s.m) ∧
  ((∀ c, r.mark = some c → c + 5 * cyclesPerUs ≤ s.now) → Leaves s (.congestionMark ctl) (fun m =>
    m = { s.m with rates := m.rates } ∧ (m.rate ctl).mark = some s.now ∧
    (r.num ≤ r.den → 8 * r.den ≤ 1024 * (7 * r.num) → (m.rate ctl).num * (8 * r.den) = (m.rate ctl).den * (7 * r.num)) ∧
    (r.num ≤ r.den → 1024 * (7 * r.num) < 8 * r.den → 1024 * (m.rate ctl).num = (m.rate ctl).den)))

/-- RATE_RECOVERY (R362): after 5 µs the rate rises by 1/128 of the link rate, to no more than the link rate. -/
def RateRecovery (s : State) (ctl : Nat) : Prop :=
  let r := s.m.rate ctl
  r.rise + 5 * cyclesPerUs ≤ s.now → Leaves s (.rateRecovery ctl) (fun m =>
    m = { s.m with rates := m.rates } ∧ (m.rate ctl).rise = s.now ∧
    (r.den ≤ 1024 * r.num → 128 * r.num + r.den ≤ 128 * r.den →
      (m.rate ctl).num * (128 * r.den) = (m.rate ctl).den * (128 * r.num + r.den)) ∧
    (128 * r.den < 128 * r.num + r.den → (m.rate ctl).num = (m.rate ctl).den))

/-- The length of a COLL's destination and one of its elements (R367): the sum over the ranks of what OntoGrid gives of their elements,
modulo 2^64, drained under RND and FTZ into binary32 or left as it is; or an element's bits copied. -/
def collLength (d : CollDesc) (fn : Nat) : Nat := if fn = 2 then d.g * d.n else d.n
def collElement (mode : Word) (d : CollDesc) (fn : Nat) (src : Nat → Nat → DWord) (i : Nat) : Nat :=
  let term (x : DWord) : DWord := if d.it = 1 then x else (Num.ontoGrid (Num.decodeF Num.f32 (x.toNat % 2 ^ 32)) d.k).1
  let total (i : Nat) : DWord := (List.range d.g).foldl (fun q r => q + term (src r i)) 0
  let out (q : DWord) : Nat := if d.ot = 1 then q.toNat else (Num.drainF Num.f32
    { rm := Num.rmOf d.rnd (modeRnd mode), gr := false, ftz := modeFtz mode, cnan := modeCnan mode, rand := 0, grand := none } q d.k).1
  if fn = 2 then (src (i / d.n) (i % d.n)).toNat
  else if fn = 3 then (src d.root i).toNat
  else out (total (if fn = 1 then d.rank * d.n + i else i))

/-- COLL_INSTANCE_RUN (R361, R366, R367, R368) with the members that arrive under the context ID and FTID for the same instance:
those that disagree fault with COLL_DESC; an instance that is whole computes the destination from every rank's source, in its register
form in the accepted lanes, and in its memory form at the destination's places. -/
def CollInstanceRun (s : State) (b w op : Nat) (others : List CollMember) : Prop :=
  ∀ blk x o f a y c, s.m.collOp b w op = some (blk, x, o, f, a, y, c) →
    (∀ z ∈ others, z.ctx = blk.ctx ∧ z.ftid = (s.m.part blk.part).ftid ∧ z.inst = o.instance_) →
    let d := collFields (c.getList 0 16)
    let reg := f.mod.getLsbD 16
    let agrees (z : CollMember) : Prop := z.fn = f.fn ∧ z.reg = reg ∧ agreeWords z.desc = agreeWords (c.getList 0 16) ∧
      z.membs = (c.getList 16 d.g).map (·.toNat)
    ((∃ z ∈ others, ¬agrees z) → Leaves s (.collInstanceRun b w op others) (fun m => m.mem = s.m.mem ∧
      WarpIn m b w (fun y => (y.ops.find op).bind (·.fault) = some (o.info 0xA4 0)))) ∧
    ((∀ z ∈ others, agrees z) → membersPresent d f.fn.toNat others = true →
      let mode := (s.m.launchOf blk).mode
      let src (own : Nat → DWord) (r i : Nat) : DWord := if d.g ≤ r then 0 else if r = d.rank then own i
        else (((others.find? (fun z => z.rank = r)).map (fun z => z.src)).getD []).getD i 0
      let lane (i : Nat) : DWord := if i < blk.width ∧ o.mask.getLsbD i then (a.get (resKey 0 i)).zeroExtend 64 else 0
      (reg = true → Leaves s (.collInstanceRun b w op others) (fun m => m.mem = s.m.mem ∧
        WarpIn m b w (fun y => ∃ r, (y.ops.find op).map (·.payload) = some (.result r) ∧ r.dest = some f.d ∧ r.mask = o.mask ∧
          r.vals = valsOf 1 (lanesOf o.mask 64) (fun l _ => if l < collLength d f.fn.toNat then
            BitVec.ofNat 32 (collElement mode d f.fn.toNat (src lane) l) else 0)))) ∧
      ∀ ks kd, reg = false → s.m.bad = [] → s.m.collKeys blk d f.fn.toNat (o.once64 a) (o.once64 y) = .ok (ks, kd) →
        let size (ty : Nat) : Nat := if ty = 0 then 4 else 8
        let own (i : Nat) : DWord := BitVec.ofNat 64 (leNat (((ks.map s.m.mem.get).drop (size d.it * i)).take (size d.it)))
        Leaves s (.collInstanceRun b w op others) (fun m =>
          m.mem = put s.m.mem kd ((List.range (collLength d f.fn.toNat)).foldr
            (fun i l => leBytes (collElement mode d f.fn.toNat (src own) i) (size d.ot) ++ l) []) ∧
          WarpIn m b w (fun y => (y.ops.find op).map (·.batchDone) = some true)))

/-- COLL_ABORT (R369). -/
def CollAbort (s : State) (b w op : Nat) : Prop :=
  ∀ blk x o f a y c, s.m.collOp b w op = some (blk, x, o, f, a, y, c) →
    Leaves s (.collAbort b w op) (fun m => m.mem = s.m.mem ∧
      WarpIn m b w (fun y => (y.ops.find op).bind (·.fault) = some (o.info 0xA5 0)))

/-- Memory with a chunk's values and weight at its places (R370). -/
def chunkPut (f : FMap 8) (p : Part) (g : Gossip) (c : Nat) (vs : List DWord) (w : DWord) : FMap 8 :=
  put (put f (g.keys p (g.valueAt c 0) (8 * vs.length)) (vs.foldr (fun v l => leBytes v.toNat 8 ++ l) []))
    (g.keys p (g.weightAt c) 8) (leBytes w.toNat 8)

/-- A chunk's values and weight with a message's halves added, each modulo 2^64 (R373). -/
def chunkPlus (m : Mach) (f : FMap 8) (p : Part) (g : Gossip) (x : GossipMsg) : FMap 8 :=
  chunkPut f p g x.c (((m.chunkValues p g x.c).zip x.h).map (fun y => y.1 + y.2)) (m.regionWord p g (g.weightAt x.c) + x.hw)

/-- A snapshot of a chunk for a neighbour (R373, R379): the halves leave the chunk for a message; TOTV + HELDV and
TOTW + HELDW stay, and one more message is held. -/
def Snapped (s : State) (ctx rgn c j : Nat) (g : Gossip) (m : Mach) : Prop :=
  let p := s.m.part (s.m.ctxPart ctx)
  let vs := s.m.chunkValues p g c
  let hs := vs.map (fun v => v.sshiftRight 1)
  let w := s.m.regionWord p g (g.weightAt c)
  let hw := w.sshiftRight 1
  m.mem = chunkPut s.m.mem p g c ((vs.zip hs).map (fun y => y.1 - y.2)) (w - hw) ∧
  (∃ x, m.gmsgs.find s.m.nextId = some x ∧ x.ctx = ctx ∧ x.rgn = rgn ∧ x.nbr = j ∧ x.msg.c = c ∧ x.msg.h = hs ∧ x.msg.hw = hw) ∧
  ∃ g', m.gossipOf ctx rgn = some g' ∧ g'.counter 0 + g'.counter 2 = g.counter 0 + g.counter 2 ∧
    g'.counter 1 + g'.counter 3 = g.counter 1 + g.counter 3 ∧ g'.counter 4 = g.counter 4 + 1

/-- FREE_RUN_TICK (R374): the slot's chunk is sent, and the next one is due RATE cycles later. -/
def FreeRunTick (s : State) (ctx rgn : Nat) : Prop :=
  ∀ g c j, s.m.freeRunNext s.now ctx rgn = some (g, c, j) → s.m.bad = [] →
    Leaves s (.freeRunTick ctx rgn) (fun m => Snapped s ctx rgn c j g m ∧
      ∃ g', m.gossipOf ctx rgn = some g' ∧ g'.due = s.now + g.rate.toNat ∧ g'.chunk = (if c + 1 < g.nch then c + 1 else 0))

/-- GOSSIP_SNAPSHOT (R373, R374, R385): a step's snapshot, and where no step waits for it a free-running one. -/
def GossipSnapshot (s : State) (ctx rgn c j : Nat) : Prop :=
  (∀ e rest g, s.m.steppers ctx rgn c j = e :: rest → stepTarget (s.m.gossipOf ctx rgn) j c = .ok (g, c, j) →
    s.m.undecided ctx rgn c = false → s.m.bad = [] →
    Leaves s (.gossipSnapshot ctx rgn c j) (fun m => Snapped s ctx rgn c j g m)) ∧
  (∀ g, s.m.steppers ctx rgn c j = [] → s.m.freeRunNext s.now ctx rgn = some (g, c, j) → s.m.bad = [] →
    Leaves s (.gossipSnapshot ctx rgn c j) (fun m => Snapped s ctx rgn c j g m))

/-- GOSSIP_MESSAGE_ARRIVE (R373, R379): each message is decided once; one that is refused changes nothing but that; one that
is applied writes its spread record (R377) and adds its halves to the chunk. -/
def GossipArrive (s : State) (x : GossipMsg) : Prop :=
  let id := (x.src, x.ctx, x.slot, x.seq)
  ((∃ v ∈ s.m.verdicts, v.1 = id) → Becomes s (.gossipMessageArrive x) (s.m.reread s.now)) ∧
  ((∀ v ∈ s.m.verdicts, v.1 ≠ id) → s.m.accepts x = none → s.m.bad = [] → Leaves s (.gossipMessageArrive x) (fun m =>
    m.mem = s.m.mem ∧ m.ctxs = s.m.ctxs ∧ m.verdicts = (id, false) :: s.m.verdicts)) ∧
  (∀ g j, (∀ v ∈ s.m.verdicts, v.1 ≠ id) → s.m.accepts x = some (g, j) → s.m.bad = [] →
    Leaves s (.gossipMessageArrive x) (fun m => m.verdicts = (id, true) :: s.m.verdicts ∧
      (let p := s.m.part (s.m.ctxPart x.ctx)
       m.mem = chunkPlus s.m (put s.m.mem (g.keys p (g.spreadAt x.c j) 4)
         (leBytes (spreadWord g (s.m.chunkValues p g x.c) x.h (s.m.regionWord p g (g.weightAt x.c)) x.hw) 4)) p g x) ∧
      ∃ g', m.gossipOf x.ctx x.slot = some g' ∧ g'.counter 0 = g.counter 0 + sumWords x.h ∧ g'.counter 1 = g.counter 1 + x.hw ∧
        ∀ k, 2 ≤ k → k < 7 → g'.counter k = g.counter k))

/-- GOSSIP_ENQUIRY (R373): no answer within 1 ms, or the link that carried the message went down. -/
def GossipEnquiry (s : State) (n : Nat) : Prop :=
  ∀ x, s.m.gmsgs.find n = some x → (x.sent + cyclesPerMs ≤ s.now ∨ x.cut = true) →
    Becomes s (.gossipEnquiry n) { s.m with gmsgs := s.m.gmsgs.put n { x with sent := s.now, cut := false } }

/-- GOSSIP_DECISION_LEARNED (R373, R379): the message is no longer held; what was refused is added back. -/
def GossipLearned (s : State) (n : Nat) : Prop :=
  ∀ x g, s.m.gmsgs.find n = some x → s.m.gossipOf x.ctx x.rgn = some g → s.m.bad = [] → x.step = none →
    (Leaves s (.gossipDecisionLearned n true) (fun m => m.mem = s.m.mem ∧ m.gmsgs.find n = none ∧
      ∃ g', m.gossipOf x.ctx x.rgn = some g' ∧ g'.counter 0 = g.counter 0 ∧ g'.counter 2 = g.counter 2 - sumWords x.msg.h ∧
        g'.counter 3 = g.counter 3 - x.msg.hw ∧ g'.counter 4 = g.counter 4 - 1)) ∧
    (Leaves s (.gossipDecisionLearned n false) (fun m => m.gmsgs.find n = none ∧
      m.mem = chunkPlus s.m s.m.mem (s.m.part (s.m.ctxPart x.ctx)) g x.msg ∧
      ∃ g', m.gossipOf x.ctx x.rgn = some g' ∧ g'.counter 0 = g.counter 0 + sumWords x.msg.h ∧
        g'.counter 2 = g.counter 2 - sumWords x.msg.h ∧ g'.counter 4 = g.counter 4 - 1 ∧ g'.counter 6 = g.counter 6 + 1))

/-- The opcodes that R59 reserves. -/
def Reserved (n : Nat) : Prop :=
  (0x1D ≤ n ∧ n ≤ 0x1F) ∨ (0x32 ≤ n ∧ n ≤ 0x3F) ∨ (0x4A ≤ n ∧ n ≤ 0x4F) ∨ n = 0x5C ∨ n = 0x5E ∨ n = 0x5F ∨
  (0x68 ≤ n ∧ n ≤ 0x6F) ∨ (0x76 ≤ n ∧ n ≤ 0x7F) ∨ (0x87 ≤ n ∧ n ≤ 0x8F) ∨ (0x98 ≤ n ∧ n ≤ 0x9F) ∨ (0xAB ≤ n ∧ n ≤ 0xAF) ∨
  (0xB9 ≤ n ∧ n ≤ 0xBF) ∨ (0xCB ≤ n ∧ n ≤ 0xCF) ∨ (0xD7 ≤ n ∧ n ≤ 0xDF) ∨ n = 0xE5 ∨ (0xE9 ≤ n ∧ n ≤ 0xF7) ∨
  (0xF9 ≤ n ∧ n ≤ 0xFF)

/-! ### Floating point and conversions (05_isa_arithmetic.md R104 to R114) -/

/-- FDOT2 (R105): the two products and the binary32 addend, summed exactly and rounded once into binary32. -/
def fdot2 (w : CForm) (c : Cx) : Result :=
  let h := fpFmt w.fn.toNat
  c.resultOf 32 (c.lanes.map (fun l =>
    let k := c.rounding (c.rd32 w.d l)
    let elem (o : Operand) (i : Nat) : Num.Val := Num.flush h (k.ftz && !k.gr) (Num.decodeF h (elemOf 16 i (c.rdF h o l)))
    let x := Num.flush Num.f32 (k.ftz && !k.gr) (Num.decodeF Num.f32 (c.rdF Num.f32 w.c l))
    (l, sumProducts Num.f32 k [elem w.a 0, elem w.a 1, elem w.b 0, elem w.b 1, x]
      [(elem w.a 0, elem w.b 0), (elem w.a 1, elem w.b 1)] [x])))

/-- FSCL's exponent: SI(b), or the signed half of its element in a packed type (R105). -/
def fsclBy (w : CForm) (c : Cx) (l i : Nat) : Int :=
  if w.fn = 1 ∨ w.fn = 2 then ((c.rd w.b 0 l).extractLsb' (16 * i) 16).toInt else (c.rd w.b 0 l).toInt

/-- FXTR (R108): .exp gives an integer of 16 bits per packed element or of 32 bits, .man a value of a's type. -/
def fxtrResult (w : CForm) (c : Cx) : Result :=
  let f := fpFmt w.fn.toNat
  let man := w.mod.getLsbD 4
  let n := if fpElems w.fn.toNat = 2 then 16 else 32
  c.resultOf (if man then fpBits w.fn else 32) (c.elementwise w.fn.toNat (if man then f.bits else n) [w.a] (.special 0)
    (fun f k l i vs => fxtr man n f { k with gr := false } l i vs))

/-- FCLS (R108): the one-hot class of each element, 16 bits apart in a packed type; every other bit of a D of the type's width is zero
(R104). -/
def fclsResult (w : CForm) (c : Cx) : Result :=
  c.resultOf (fpBits w.fn) (c.elementwise w.fn.toNat (if fpElems w.fn.toNat = 2 then 16 else 32) [w.a] (.special 0) fcls)

/-- A conversion's result of `bits` bits, each lane's pattern and exceptions by `g` (R109). -/
def converted (c : Cx) (bits : Nat) (g : Nat → Nat × Num.Exc) : Result := c.resultOf bits (c.lanes.map (fun l => (l, g l)))

/-- The destination and source types of a conversion, its rounding in a lane and its narrow format (R109). -/
def dtOf (w : CForm) : Nat := (w.mod.extractLsb' 4 4).toNat
def stOf (w : CForm) : Nat := (w.mod.extractLsb' 8 4).toNat
def rndOf (w : CForm) (c : Cx) (l : Nat) : Num.Rnd := c.rounding (c.rd32 w.c l)
def nfReg (w : CForm) (c : Cx) : Num.NFmt := Num.nfOf (c.la.nf.getD (w.mod.extractLsb' 13 3).toNat 0)

/-- A floating-point source; under FTZ, outside the gradient class, a subnormal one reads as zero (04_numbers.md R74). -/
def srcFloat (w : CForm) (c : Cx) (gr : Bool) (l : Nat) : Num.Val :=
  Num.flush (floatFmt (stOf w)) (modeFtz c.mode && !gr) (c.rdFloat (stOf w) w.a l)

/-- CVTI (R110): a representable value stays; otherwise DT's nearest bound under SAT, and the low bits without it. -/
def cvti (w : CForm) (c : Cx) : Cx :=
  c.fixed 4 true 0 (c.resultBits (typeBits (dtOf w)) (fun l =>
    let n := c.rdInt (stOf w) w.a l
    intOut (dtOf w) (if w.mod.getLsbD 12 then max (intMin (dtOf w)) (min (intMax (dtOf w)) n) else n)))

/-- CVTFI (R110): the pseudocode of the rule. -/
def cvtfiVal (dt : Nat) (k : Num.Rnd) (a : Num.Val) : Nat × Num.Exc :=
  match a with
  | .nan .. => (0, Num.nv)
  | .inf neg => (intOut dt (if neg then intMin dt else intMax dt), Num.nv)
  | .fin neg m e =>
    let n := Num.toInteger k.rm k.rand 32 (.fin neg m e)
    if n < intMin dt then (intOut dt (intMin dt), Num.nv)
    else if intMax dt < n then (intOut dt (intMax dt), Num.nv)
    else (intOut dt n, if Num.isInteger (.fin neg m e) then 0#5 else Num.nx)

/-- PACK (R114): each half rounded on its own. -/
def packVal (w : CForm) (c : Cx) (l : Nat) : Nat × Num.Exc :=
  let f := if w.fn = 0 then Num.f16 else Num.bf16
  let half (o : Operand) (i : Nat) : Nat × Num.Exc :=
    let k := c.rounding (c.rd32 w.c l / 2 ^ (16 * i))
    let v := Num.flush Num.f32 (k.ftz && !k.gr) (Num.decodeF Num.f32 (c.rdF Num.f32 o l))
    Num.resultF f k [v] v
  ((half w.a 0).1 + (half w.b 1).1 * 2 ^ 16, (half w.a 0).2 ||| (half w.b 1).2)

/-- UNPK (R114): the exact binary32 value of one half. -/
def unpkVal (w : CForm) (c : Cx) (l : Nat) : Nat × Num.Exc :=
  let f := if w.fn = 0 then Num.f16 else Num.bf16
  let k := roundingOf c.mode 1 (w.mod.getLsbD 3) 0
  let v := Num.flush f (k.ftz && !w.mod.getLsbD 3)
    (Num.decodeF f (elemOf 16 (if w.mod.getLsbD 4 then 1 else 0) (c.rdF f w.a l)))
  Num.resultF Num.f32 k [v] v

/-- RAND (R113). -/
def randWord (a b key : Word) : Word :=
  let h := (a ^^^ key) + b * 0x9E3779B9#32
  let h := (h ^^^ (h >>> 16)) * 0x85EBCA6B#32
  let h := (h ^^^ (h >>> 13)) * 0xC2B2AE35#32
  h ^^^ (h >>> 16)

/-! ### The inline constants (03_encoding.md R53) -/

/-- Entries 0 to 31. -/
def intConsts : List Int :=
  [0, 1, 2, 3, 4, 5, 6, 7, 8, 9, 10, 12, 15, 16, 24, 31, 32, 48, 63, 64,
   127, 128, 255, 256, -1, -2, -4, -8, -16, -32, -128, -256]
/-- The binary32 patterns of entries 32 to 63. -/
def floatConsts : List Nat :=
  [0x80000000, 0x3F000000, 0xBF000000, 0x3E800000, 0xBE800000, 0x3E000000, 0xBE000000, 0x3D800000, 0x3D000000,
   0x3F400000, 0xBF400000, 0x3FC00000, 0xBFC00000, 0x3FA00000, 0x3FE00000, 0x40200000, 0x40600000, 0x3EC00000,
   0x3F200000, 0x44800000, 0xC4800000, 0x45000000, 0x45800000, 0x47000000, 0x3B800000, 0x3A800000, 0x38800000,
   0x37800000, 0x33800000, 0x7F800000, 0xFF800000, 0x7FC00000]

/-! ### Rounding (04_numbers.md R70 to R73, R83, R84) -/

/-- A magnitude m × 2^e in units of 2^q. -/
def units (m : Nat) (e q : Int) : ℚ := (m : ℚ) * (2 : ℚ) ^ (e - q)

/-- The number that a finite value stands for. -/
def valueOf : Num.Val → ℚ
  | .fin neg m e => (if neg then -1 else 1) * ((m : ℚ) * (2 : ℚ) ^ e)
  | _ => 0

/-- A value that is neither a NaN nor an infinity. -/
def Finite (v : Num.Val) : Prop := ∃ neg m e, v = .fin neg m e

/-- The multiple `t` of a unit to which a magnitude of `u` units rounds (R72, R73): `r` is the random word, of `n` bits. -/
def RoundsTo (rm : Num.Rm) (neg : Bool) (u : ℝ) (r n t : ℕ) : Prop :=
  match rm with
  | .rn => |(t : ℝ) - u| ≤ 1 / 2 ∧ (|(t : ℝ) - u| = 1 / 2 → t % 2 = 0)
  | .rz => (t : ℤ) = ⌊u⌋
  | .ru => (t : ℤ) = if neg then ⌊u⌋ else ⌈u⌉
  | .rd => (t : ℤ) = if neg then ⌈u⌉ else ⌊u⌋
  | .sr => (t : ℤ) = if 2 ^ n ≤ ⌊(u - ⌊u⌋) * 2 ^ n⌋ + (r % 2 ^ n : ℕ) then ⌊u⌋ + 1 else ⌊u⌋

/-- The random word of the gradient class (R75): the one that the entry names, or the top `n` bits of RAND of D, T and the key,
where `u` counts the last places of the subnormal grid. -/
def gradWord (k : Num.Rnd) (u : ℝ) (n r : ℕ) : Prop :=
  match k.grand with
  | some g => r = g
  | none => r = (randWord (BitVec.ofInt 32 ⌊(u - ⌊u⌋) * 2 ^ 32⌋) (BitVec.ofInt 32 ⌊u⌋) 0x6A09E667#32).toNat / 2 ^ (32 - n)

/-- `res` is the value ±a, with a > 0, rounded once by `k` onto the grid of `g` and encoded in `f`, with its exceptions (R70, R73 to
R75, R87). Below the smallest normal, FTZ gives zero and the gradient class takes RoundSR on the subnormal grid whatever the
direction. A magnitude above the largest finite one gives an infinity, or the largest finite value where the direction turns
back. Underflow is judged after rounding as though the exponent had no lower bound. -/
def RoundsOnto (g f : Num.Fmt) (k : Num.Rnd) (neg : Bool) (a : ℝ) (res : ℕ × Num.Exc) : Prop :=
  ∀ E : ℤ, (2 : ℝ) ^ E ≤ a → a < (2 : ℝ) ^ (E + 1) →
    let q : ℤ := max E g.emin - g.fb
    let u : ℝ := a / (2 : ℝ) ^ q
    if E < g.emin ∧ k.ftz = true ∧ k.gr = false then res = (f.zero neg, Num.unf ||| Num.nx)
    else ∃ (rm : Num.Rm) (r t t' : ℕ),
      (if E < g.emin ∧ k.gr = true then rm = .sr ∧ (if k.rm = .sr then r = k.rand else gradWord k u f.rbits r)
       else rm = k.rm ∧ r = k.rand) ∧
      RoundsTo rm neg u r f.rbits t ∧ RoundsTo rm neg (a / (2 : ℝ) ^ (E - g.fb)) r f.rbits t' ∧
      if (2 : ℝ) ^ (g.emax + 1) ≤ t * (2 : ℝ) ^ q then
        res = (if rm = .rz ∨ (rm = .ru ∧ neg = true) ∨ (rm = .rd ∧ neg = false) then f.max neg else f.inf neg, Num.ovf ||| Num.nx)
      else
        res.1 < 2 ^ f.bits ∧ Finite (Num.decodeF f res.1) ∧ (Num.decodeF f res.1).neg? = neg ∧
        (valueOf (Num.decodeF f res.1) : ℝ) = (if neg then -1 else 1) * (t * (2 : ℝ) ^ q) ∧
        res.2 = if (t : ℝ) = u then 0 else
          if E < g.emin ∧ t' * (2 : ℝ) ^ (E - g.fb) < (2 : ℝ) ^ g.emin then Num.unf ||| Num.nx else Num.nx

/-- The rounding of R70 into a format. -/
def RoundsInto (f : Num.Fmt) (k : Num.Rnd) (neg : Bool) (a : ℝ) (res : ℕ × Num.Exc) : Prop := RoundsOnto f f k neg a res

/-- The four IEEE formats (R69). -/
def ieee : List Num.Fmt := [Num.f64, Num.f32, Num.f16, Num.bf16]

/-- What an operation reads (R74): under FTZ, outside the gradient class, a subnormal operand is a zero of its sign. -/
def Reads (f : Num.Fmt) (k : Num.Rnd) (a b : Num.Val) : Prop :=
  let small := Finite a ∧ valueOf a ≠ 0 ∧ |valueOf a| < (2 : ℚ) ^ f.emin ∧ k.ftz = true ∧ k.gr = false
  (small → b = .zero a.neg?) ∧ (¬small → b = a)

/-- A finite nonzero operand that is read as it is. -/
def Plain (f : Num.Fmt) (k : Num.Rnd) (a : Num.Val) : Prop := Finite a ∧ valueOf a ≠ 0 ∧ Reads f k a a

/-- The quotient, root and reciprocals of finite nonzero operands (R70, R105): the exact value, rounded once. -/
def Quotients (f : Num.Fmt) (k : Num.Rnd) : Prop :=
  ∀ a b l i, Plain f k a → Plain f k b →
    let x : ℝ := |(valueOf a : ℝ)|
    RoundsInto f k (a.neg? != b.neg?) (x / |(valueOf b : ℝ)|) (fdiv f k l i [a, b]) ∧
    RoundsInto f k a.neg? (1 / x) (ffunc 0x27 f k l i [a]) ∧
    (a.neg? = false → RoundsInto f k false (Real.sqrt x) (ffunc 0x26 f k l i [a]) ∧
      RoundsInto f k false (1 / Real.sqrt x) (ffunc 0x28 f k l i [a]))

/-- FRND of a value of the format, FSCL and FXTR.man (R105, R108). -/
def Scalings (f : Num.Fmt) (k : Num.Rnd) : Prop :=
  ∀ (x l i : ℕ), let a := Num.decodeF f x
    let v : ℝ := |(valueOf a : ℝ)|
    (Finite a → Reads f k a a → ∃ t, RoundsTo k.rm a.neg? v k.rand f.rbits t ∧
      let r := frnd f k l i [a]
      r.2 = 0 ∧ Finite (Num.decodeF f r.1) ∧ (Num.decodeF f r.1).neg? = a.neg? ∧ |(valueOf (Num.decodeF f r.1) : ℝ)| = t) ∧
    (Plain f k a → (∀ n : ℤ, RoundsInto f k a.neg? (v * (2 : ℝ) ^ n) (fscl f k n [a])) ∧
      ∀ E : ℤ, (2 : ℝ) ^ E ≤ v → v < (2 : ℝ) ^ (E + 1) →
        let r := fxtr true f.bits f k l i [a]
        r.2 = 0 ∧ Finite (Num.decodeF f r.1) ∧ (valueOf (Num.decodeF f r.1) : ℝ) = valueOf a / (2 : ℝ) ^ E ∧
        ∀ w, fxtr false w f k l i [a] = ((E % (2 ^ w : ℕ)).toNat, 0))

/-- The class of a value, as the number of its bit (R108). -/
def classOf (f : Num.Fmt) (v : Num.Val) : ℕ :=
  match v with
  | .nan .. => if v.isSnan then 0 else 1
  | .inf neg => if neg then 2 else 9
  | .fin neg .. =>
    let p := if valueOf v = 0 then 6 else if |valueOf v| < (2 : ℚ) ^ f.emin then 7 else 8
    if neg then 11 - p else p

/-- FXTR of the other inputs, and FCLS (R108): a zero, a NaN or an infinity has no exponent; .man returns zeros and infinities as they
are; FCLS is one-hot, ignores FTZ and raises nothing. -/
def Classes (f : Num.Fmt) (k : Num.Rnd) : Prop :=
  ∀ v l i, fcls f k l i [v] = (2 ^ classOf f v, 0) ∧
    (∀ w, (v.isNan = true ∨ (Finite v ∧ (valueOf v = 0 ∨ Reads f k v (.zero v.neg?))) →
        fxtr false w f k l i [v] = (2 ^ (w - 1), Num.nv)) ∧
      (v.isInf = true → fxtr false w f k l i [v] = (2 ^ (w - 1) - 1, Num.nv) ∧ fxtr true w f k l i [v] = (f.inf v.neg?, 0))) ∧
    (Finite v → valueOf v = 0 → ∀ w, fxtr true w f k l i [v] = (f.zero v.neg?, 0))

/-- What a result of the two-operand form or the one-operand forms is. -/
def Gives (f : Num.Fmt) (r : ℕ × Num.Exc) (v : Num.Val) (x : Num.Exc) : Prop :=
  r.2 = x ∧ match v with
    | .inf neg => r.1 = f.inf neg
    | .fin neg m e => if m = 0 then r.1 = f.zero neg else
        Finite (Num.decodeF f r.1) ∧ valueOf (Num.decodeF f r.1) = valueOf (.fin neg m e)
    | .nan .. => r.1 = f.qnan

/-- The special and the exact inputs of R106, and the NaN of R71: each form's row of the table. -/
def SpecialInputs (f : Num.Fmt) (k : Num.Rnd) : Prop :=
  ∀ l i a b (op : ℕ), let d (u v : Num.Val) := fdiv f k l i [u, v]
    let g (op : ℕ) (u : Num.Val) := ffunc op f k l i [u]
    let zero : Num.Val → Prop := fun v => Finite v ∧ valueOf v = 0
    (Reads f k a b → ∀ v, d a v = d b v ∧ d v a = d v b ∧ g op a = g op b) ∧
    (a.isNan = true → k.cnan = true → op ∈ List.range' 0x26 7 →
      (d a b).1 = f.qnan ∧ (d b a).1 = f.qnan ∧ (g op a).1 = f.qnan ∧ (g op a).2 = if a.isSnan then Num.nv else 0) ∧
    ((zero a ∧ zero b) ∨ (a.isInf = true ∧ b.isInf = true) → Gives f (d a b) .cnan Num.nv) ∧
    (Plain f k a → zero b → Gives f (d a b) (.inf (a.neg? != b.neg?)) Num.dz) ∧
    (a.isInf = true → Finite b → Gives f (d a b) (.inf (a.neg? != b.neg?)) 0 ∧ Gives f (d b a) (.zero (a.neg? != b.neg?)) 0) ∧
    (zero a → Plain f k b → Gives f (d a b) (.zero (a.neg? != b.neg?)) 0) ∧
    (zero a → Gives f (g 0x26 a) (.zero a.neg?) 0 ∧ Gives f (g 0x27 a) (.inf a.neg?) Num.dz ∧
      Gives f (g 0x28 a) (.inf a.neg?) Num.dz ∧ Gives f (g 0x29 a) .one 0 ∧ Gives f (g 0x2A a) (.inf true) Num.dz ∧
      Gives f (g 0x2B a) (.zero a.neg?) 0 ∧ Gives f (g 0x2C a) .one 0) ∧
    ((Plain f k a ∨ a.isInf = true) → a.neg? = true →
      Gives f (g 0x26 a) .cnan Num.nv ∧ Gives f (g 0x28 a) .cnan Num.nv ∧ Gives f (g 0x2A a) .cnan Num.nv) ∧
    (∀ neg, Gives f (g 0x27 (.inf neg)) (.zero neg) 0 ∧ Gives f (g 0x2B (.inf neg)) .cnan Num.nv ∧
      Gives f (g 0x2C (.inf neg)) .cnan Num.nv) ∧
    Gives f (g 0x26 (.inf false)) (.inf false) 0 ∧ Gives f (g 0x28 (.inf false)) (.zero false) 0 ∧
    Gives f (g 0x29 (.inf false)) (.inf false) 0 ∧ Gives f (g 0x29 (.inf true)) (.zero false) 0 ∧
    Gives f (g 0x2A (.inf false)) (.inf false) 0 ∧
    ∀ n : ℤ,
      (Plain f k a → valueOf a = n → RoundsInto f k false ((2 : ℝ) ^ n) (g 0x29 a)) ∧
      ((∃ x, a = Num.decodeF f x) → Plain f k a → valueOf a = (2 : ℚ) ^ n → Gives f (g 0x2A a) (Num.ofInt n 0) 0) ∧
      (Plain f k a → valueOf a = (n : ℚ) / 2 →
        Gives f (g 0x2B a) (if n % 2 = 0 then .zero a.neg? else .fin (n % 4 = 3) 1 0) 0 ∧
        Gives f (g 0x2C a) (if n % 2 = 1 then .zero false else .fin (n % 4 = 2) 1 0) 0)

/-! ### The sums of the matrix engine (10_matrix.md R198 to R207) -/

/-- The container bits of an operand by its entry word of the format-block (R198, R202). -/
def mmaBits (la : Launch) (w : Word) : ℕ :=
  match (w.extractLsb' 0 4).toNat with
  | 0 => 64
  | 1 => 32
  | 4 => if (Num.nfOf (la.nf.getD (w.extractLsb' 4 3).toNat 0)).w ≤ 4 then 4 else 8
  | _ => 16

/-- Element `e` of a stream of 32-bit words (R199, R200). -/
def mmaRaw (word : ℕ → ℕ) (bits e : ℕ) : ℕ :=
  if bits = 64 then word (2 * e) + 2 ^ 32 * word (2 * e + 1) else word (e * bits / 32) / 2 ^ (e * bits % 32) % 2 ^ bits

/-- What an element decodes to: outside the gradient class FTZ makes a subnormal one zero (R205). -/
def mmaElement (la : Launch) (w : Word) (raw : ℕ) : Num.Val :=
  let flushed (f : Num.Fmt) : Num.Val := Num.flush f (modeFtz la.mode && !w.getLsbD 7) (Num.decodeF f raw)
  match (w.extractLsb' 0 4).toNat with
  | 0 => flushed Num.f64
  | 1 => flushed Num.f32
  | 2 => flushed Num.f16
  | 3 => flushed Num.bf16
  | _ => Num.decodeNF (Num.nfOf (la.nf.getD (w.extractLsb' 4 3).toNat 0)) raw

/-- Its value under the block scale of its flat index, with the block length 8, 16, 32 or 64 of the entry, or none (R203). -/
def mmaValue (la : Launch) (w : Word) (scales : List Word) (e raw : ℕ) : Num.Val :=
  let bl := (w.extractLsb' 8 3).toNat
  if bl = 0 then mmaElement la w raw
  else (Num.scaleBy (mmaElement la w raw) (Num.scaleVal (scales.getD (e / (4 * 2 ^ bl)) 0).toNat)).1

/-- An MMA (R205 to R207): each element that the masks select becomes the exact sum of the accumulator and the products of the
selected depths, rounded once, and the exceptions of that rounding are raised; a sum that is exactly zero has the sign of R205;
a NaN among the terms, or an invalid product, gives a NaN. Every other word of every tile is left, and the rest of the block. `fb` holds
the words of the format-block, then A's scales, then B's. An accumulator element that FTZ reads as zero is log entry 72. -/
def MmaSum (la : Launch) (blk : Block) (o : Op) (f : Fields) (a b c : FMap 32) (fb : List Word) : Prop :=
  let sel := o.once32 b
  let masks := BitVec.ofNat 32 (o.onceWord c 0)
  let wa := fb.getD 0 0
  let wb := fb.getD 1 0
  let f64 := (fb.getD 2 0).extractLsb' 0 4 = 0
  let tile := sel / 2 ^ 16 % 2 ^ 10
  let bits := mmaBits la wa
  let depth := 256 / bits
  let granule := max 1 (depth / 16)
  let form := f.fn.toNat % 4
  let bl := (wa.extractLsb' 8 3).toNat
  let na := if bl = 0 then 0 else 16 * depth / (4 * 2 ^ bl)
  let ia (m d : ℕ) : ℕ := if form = 2 then d * 16 + m else m * depth + d
  let ib (d n : ℕ) : ℕ := if form = 1 then n * depth + d else 16 * d + n
  let rawA (e : ℕ) : ℕ := mmaRaw (fun j => (a.get (resKey (j / blk.width) (j % blk.width))).toNat) bits e
  let rawB (e : ℕ) : ℕ := mmaRaw (fun j => leNat (blk.bstage.getList (sel % 2 ^ 13 * 512 + 4 * j) 4)) bits e
  let A (m d : ℕ) : Num.Val := mmaValue la wa ((fb.drop 8).take na) (ia m d) (rawA (ia m d))
  let B (d n : ℕ) : Num.Val := mmaValue la wb (fb.drop (8 + na)) (ib d n) (rawB (ib d n))
  let r := mmaApply la blk o f a b c fb
  let fmt := if f64 then Num.f64 else Num.f32
  let k : Num.Rnd := { rm := Num.rmOf 0 (modeRnd la.mode), gr := (fb.getD 2 0).getLsbD 7, ftz := modeFtz la.mode,
                       cnan := modeCnan la.mode, rand := 0, grand := none }
  let on (m n : ℕ) : Prop := m < 16 ∧ n < 16 ∧ masks.getLsbD m = true ∧ masks.getLsbD (16 + n) = true
  let words (m n : ℕ) : List ℕ := let e := 16 * m + n
    if f64 then [tile * 256 + 2 * e, tile * 256 + 2 * e + 1] else [tile * 256 + e]
  r.1 = { blk with tiles := r.1.tiles } ∧
  (∀ j, (∀ m n, on m n → j ∉ words m n) → r.1.tiles.get j = blk.tiles.get j) ∧
  ∀ m n, on m n →
    let T := (List.range depth).filter (fun d => d / granule < 16 && f.mod.getLsbD (d / granule) &&
      !(modeZskip la.mode && ((mmaElement la wa (rawA (ia m d))).isZero || (A m d).isZero)))
    let old := Num.flush fmt (k.ftz && !k.gr) (Num.decodeF fmt (blk.acc? tile f64 (16 * m + n)))
    let new := r.1.acc? tile f64 (16 * m + n)
    let sum : ℚ := valueOf old + (T.map (fun d => valueOf (A m d) * valueOf (B d n))).sum
    let zeros (s : Bool) : Prop := valueOf old = 0 ∧ old.neg? = s ∧
      ∀ d ∈ T, valueOf (A m d) * valueOf (B d n) = 0 ∧ ((A m d).neg? != (B d n).neg?) = s
    (Finite old → (∀ d ∈ T, Finite (A m d) ∧ Finite (B d n)) →
      (sum ≠ 0 → ∃ x, RoundsInto fmt k (decide (sum < 0)) |(sum : ℝ)| (new, x) ∧ x &&& r.2 = x) ∧
      (sum = 0 → (zeros true ∨ (k.rm = .rd ∧ ¬zeros false) → new = fmt.zero true) ∧
        (¬zeros true ∧ (k.rm ≠ .rd ∨ zeros false) → new = fmt.zero false))) ∧
    (k.cnan = true → old.isNan = true ∨ (∃ d ∈ T, (A m d).isNan = true ∨ (B d n).isNan = true ∨
      Num.mulInvalid (A m d) (B d n) = true) → new = fmt.qnan)

/-! ### Operations that act at their turn (07_core_memory.md R161, 11_async_armature.md R237 to R248, 08_field_unit.md R182 to R189,
21_fabric.md R381 to R385, 18_traps.md R349) -/

/-- The warp has issued nothing before it that is still to perform. -/
def Oldest (x : Warp) (o : Op) : Prop := (∀ q ∈ x.queue, o.seq ≤ q.seq) ∧ ∀ e ∈ x.ops, o.seq ≤ e.2.seq

/-- The block as its warp's results have come. -/
def settled (s : State) (blk : Block) (w : Nat) (x : Warp) : Block := blk.setWarp w (x.settle s.now)

/-- The operation completes with a result, and memory is left. -/
def Ends (s : State) (b w op : Nat) (x : Warp) (o : Op) (r : Result) : Prop :=
  Leaves s (.varComplete b w op) (fun m => m.mem = s.m.mem ∧ WarpIn m b w (Fallen s x op o r))

/-- The operation faults, which is reported later (R24); memory is left. -/
def Faults (s : State) (b w op : Nat) (f : FaultInfo) : Prop :=
  Leaves s (.varComplete b w op) (fun m => m.mem = s.m.mem ∧ WarpIn m b w (fun y => (y.ops.find op).bind (·.fault) = some f))

/-- The L1 lines after an acquire of a scope (15_cluster.md R281): below .c none goes; else the context's lines in the core's L1, which a
fused cluster shares from .p on. -/
def acquired (m : Mach) (blk : Block) (scope : Nat) : List L1Line :=
  m.l1.filter (fun e => !(decide (2 ≤ scope) && e.ctx = blk.ctx &&
    (if m.fused blk.part blk.core then decide (3 ≤ scope) && e.core / 4 = blk.core / 4 else e.core = blk.core)))

/-- FENCE (R161): with nothing earlier left it completes, and an acquire invalidates; but for an acquire alone it does not complete while an
earlier store or atomic of its warp is still to perform. -/
def FenceTurn (s : State) (b w op : Nat) : Prop :=
  ∀ blk x o kind scope, InFlight s b w op blk x o → o.payload = .fence kind scope →
    (Oldest x o → s.m.bad = [] → Leaves s (.varComplete b w op) (fun m => m.mem = s.m.mem ∧
      m.l1 = (if kind = 0 ∨ kind = 2 then acquired s.m blk scope else s.m.l1) ∧ WarpIn m b w (Fallen s x op o Result.none))) ∧
    (kind ≠ 2 → (∃ q ∈ x.queue, q.seq < o.seq) → exec (.varComplete b w op) s = .fault .notEnabled)

/-- A barrier word of its fields (R237). -/
def barWordOf (ph : Bool) (z : BitVec 3) (ex arr : BitVec 12) (pend : BitVec 36) : DWord := BitVec.ofBool ph ++ z ++ ex ++ arr ++ pend

/-- The word after an update that announces bytes and may arrive, settled; none where it faults (R237, R239). -/
def barNext (w : DWord) (arrives : Bool) (bytes : Nat) : Option DWord :=
  let pend := w.extractLsb' 0 36 + BitVec.ofNat 36 bytes
  let old := w.extractLsb' 36 12
  let arr := if arrives then old + 1 else old
  let ex := w.extractLsb' 48 12
  let z := w.extractLsb' 60 3
  if ex = 0 ∨ z ≠ 0 ∨ (arrives = true ∧ old = ex) then none
  else if arr = ex ∧ pend = 0 then some (barWordOf (!w.msb) z ex 0 0)
  else some (barWordOf w.msb z ex arr pend)

/-- The barrier operations: whether the word lies in global memory, and 0 for arrive, 1 for wait, 2 for sync, 3 for BARX (R238, R239). -/
def BarIs (i : Instr) (v : CForm) (glob : Bool) (kind : Nat) : Prop :=
  (i, glob, kind) ∈ [(.barArrive v, false, 0), (.barWait v, false, 1), (.barSync v, false, 2), (.barx v, false, 3),
    (.cbarArrive v, true, 0), (.cbarWait v, true, 1), (.cbarSync v, true, 2)]

/-- The operation waits for the phase of the word at `k` to differ from `ph`, and has met it or not. -/
def Awaits (y : Warp) (op : Nat) (glob : Bool) (k : Nat) (ph met : Bool) : Prop :=
  (y.ops.find op).map (·.payload) = some (.barWait glob k ph met)

/-- BAR, BARX and CBAR at their turn (R237 to R239, 15_cluster.md R285): the update of the word, with the phase found as arrive's result;
the start of the wait of wait and sync; or BARRIER_STATE, where the word is left. -/
def BarTurn (s : State) (b w op : Nat) : Prop :=
  ∀ blk x o i v glob kind a y k m', InFlight s b w op blk x o → o.payload = .retry i a y [] → BarIs i v glob kind →
    Oldest x o → s.m.bad = [] →
    let addr := if glob then o.once64 a else o.once32 a
    let keys := (List.range 8).map (k + ·)
    (s.m.setWarp b w (x.settle s.now)).checkLanes (settled s blk w x) (s.m.launchOf blk) (if glob then .g else .s) true
      (if kind = 1 then .read else .write) 8 o.ia o.slot [(0, addr)] = (m', .ok [(0, keys)]) →
    let word : DWord := BitVec.ofNat 64 (leNat (keys.map (fun k => if glob then s.m.mem.get k else blk.scratch.get k)))
    let token := (BitVec.ofNat 32 (o.once32 y)).getLsbD 0
    let next := if glob ∧ word.extractLsb' 0 36 ≠ 0 then none
      else barNext word (kind ≠ 3 || v.mod.getLsbD 0) (if kind = 3 then o.once32 y else 0)
    Leaves s (.varComplete b w op) (fun m => ∃ blk' z, m.warp b w = some (blk', z) ∧
      (kind = 1 → m.mem = s.m.mem ∧ blk'.scratch = blk.scratch ∧ Awaits z op glob k token (word.msb != token)) ∧
      (kind ≠ 1 → next = none → m.mem = s.m.mem ∧ blk'.scratch = blk.scratch ∧
        (z.ops.find op).bind (·.fault) = some (o.info 0x4D addr)) ∧
      ∀ word', kind ≠ 1 → next = some word' →
        m.mem = (if glob then put s.m.mem keys (leBytes word'.toNat 8) else s.m.mem) ∧
        blk'.scratch = (if glob then blk.scratch else put blk.scratch keys (leBytes word'.toNat 8)) ∧
        (kind = 0 → Fallen s x op o (o.result v.fields 1 (fun _ _ => if word.msb then 1 else 0) 0) z) ∧
        (kind = 2 → Awaits z op glob k word.msb (word'.msb != word.msb)) ∧
        (kind = 3 → Fallen s x op o Result.none z))

/-- BAR.wait and BAR.sync, and CBAR's, once the phase has differed (R238): the completion is an acquire; until then none comes. -/
def BarMet (s : State) (b w op : Nat) : Prop :=
  ∀ blk x o glob k ph met, InFlight s b w op blk x o → o.payload = .barWait glob k ph met →
    (met = true → s.m.bad = [] → Leaves s (.varComplete b w op) (fun m => m.mem = s.m.mem ∧
      m.l1 = (if glob then acquired s.m blk 2 else s.m.l1) ∧ WarpIn m b w (Fallen s x op o Result.none))) ∧
    (met = false → exec (.varComplete b w op) s = .fault .notEnabled)

/-- WAKE (R242): each named warp that has not ended ends its SLEEPs, or, sleeping in none, is given a pending wake. -/
def WakeTurn (s : State) (b w op : Nat) : Prop :=
  ∀ blk x o mask, InFlight s b w op blk x o → o.payload = .wake mask → Oldest x o → s.m.bad = [] →
    Leaves s (.varComplete b w op) (fun m => m.mem = s.m.mem ∧ WarpIn m b w (Fallen s x op o Result.none) ∧
      ∀ n z, n ≠ w → blk.warp n = some z → WarpIn m b n (fun z' =>
        (mask.getLsbD n = false ∨ z.ended = true → z'.wake = z.wake) ∧
        (mask.getLsbD n = true → z.ended = false → z.sleeping = [] → z'.wake = true) ∧
        (mask.getLsbD n = true → z.ended = false → ∀ p ∈ z.sleeping, ∀ q sp key addr cmp due acq scope dest past,
          z.ops.find p = some q → q.payload = .sleep sp key addr cmp due acq scope dest past →
          (z'.ops.find p).map (·.payload) = some (.sleep sp key addr cmp due acq scope dest true))))

/-- SLD at its turn (R245, R248): what it loads is to be written to its s registers in this cycle, and its flag falls 2 cycles
later. -/
def SldTurn (s : State) (b w op : Nat) : Prop :=
  ∀ blk x o v a y z ks m1 m2 l bs, InFlight s b w op blk x o → o.payload = .retry (.sld v) a y z → s.m.bad = [] →
    let lane := (lowestBit o.mask).getD 0
    let base : Int := if armSp v = .g then cap64 a lane else cap32 a lane
    let addr := ((base + (v.mod.extractLsb' 0 9).toInt * (armSz v : Int)) % (2 ^ (if armSp v = .g then 64 else 32) : Nat)).toNat
    let x' := x.settle s.now
    (s.m.setWarp b w x').checkLanes (settled s blk w x) (s.m.launchOf blk) (armSp v) false .read (armSz v) o.ia o.slot [(lane, addr)]
      = (m1, .ok ks) →
    x'.loadWaits o.seq (armSp v) false (ks.foldr (fun e l => e.2 ++ l) []) = false →
    m1.loadLanes (settled s blk w x) (s.m.launchOf blk) (x'.before o.seq) s.now (armSp v) ks = (m2, [(l, bs)]) →
    Leaves s (.varComplete b w op) (fun m => m.mem = s.m.mem ∧ ∃ blk' z', m.warp b w = some (blk', z') ∧
      blk'.armPend = blk.armPend ++ (List.range (armSz v / 4)).map (fun k =>
        { at_ := s.now, warp := w, wr := .sreg (sNo v.d + k) (BitVec.ofNat 32 (leNat ((bs.drop (4 * k)).take 4))) }) ∧
      (z'.ops.find op).map (·.payload) = some (.after (s.now + 2)))

/-- FBIND (08_field_unit.md R176, R177, R188): FIELD_DESC at an address that is no multiple of 16 or for a descriptor that R176 rejects;
else the slot holds the 24 words. -/
def FbindTurn (s : State) (b w op : Nat) : Prop :=
  ∀ blk x o v a y, InFlight s b w op blk x o → o.payload = .field (.fbind v) a y → Oldest x o → s.m.bad = [] →
    let lane := (lowestBit o.mask).getD 0
    let sp : Space := if v.mod.getLsbD 5 then .c else .g
    let addr := if sp = .c then cap32 a lane else cap64 a lane
    let blk1 := settled s blk w x
    let la := s.m.launchOf blk
    (addr % 16 ≠ 0 → Faults s b w op (o.info 0x41 addr)) ∧
    ∀ m1 m2 ks l bs, addr % 16 = 0 →
      (s.m.setWarp b w (x.settle s.now)).checkLanes blk1 la sp false .read 96 o.ia o.slot [(lane, addr)] = (m1, .ok ks) →
      m1.loadLanes blk1 la [] s.now sp ks = (m2, [(l, bs)]) →
      let d : FieldDesc := (List.range 24).map (fun k => BitVec.ofNat 32 (leNat ((bs.drop (4 * k)).take 4)))
      (d.ok la.scr = false → Faults s b w op (o.info 0x41 addr)) ∧
      (d.ok la.scr = true → Leaves s (.varComplete b w op) (fun m => m.mem = s.m.mem ∧ ∃ blk' z, m.warp b w = some (blk', z) ∧
        blk'.fslots.find (v.mod.extractLsb' 0 4).toNat = some d ∧ Fallen s x op o Result.none z))

/-- A sum of products as a field load gives it (R182): of finite factors the exact sum rounded once to nearest, its exceptions among
those raised; a zero sum is +0 unless every term is −0. -/
def FieldSum (cnan : Bool) (terms : List (List Num.Val)) (bits : Nat) (raised : Num.Exc) : Prop :=
  (∀ t ∈ terms, ∀ v ∈ t, Finite v) →
    let sum : ℚ := (terms.map (fun t => (t.map valueOf).prod)).sum
    (sum ≠ 0 → ∃ e, RoundsInto Num.f32 { rm := .rn, gr := false, ftz := false, cnan := cnan, rand := 0, grand := none }
      (decide (sum < 0)) |(sum : ℝ)| (bits, e) ∧ e &&& raised = e) ∧
    (sum = 0 → bits = if terms ≠ [] ∧ ∀ t ∈ terms, (t.map valueOf).prod = 0 ∧ (t.foldl Num.mul .one).neg? = true then 2 ^ 31 else 0)

/-- FLD, FLDG and FWT at their turn (R178, R182, R183, R187 to R189): FIELD_UNBOUND or FIELD_SHAPE; else each admitted lane's sums over the
entries that it reads, or the entry that FWT's number names. A lane with a NaN coordinate gives zeros and raises invalid. -/
def FieldLoadTurn (s : State) (b w op : Nat) : Prop :=
  ∀ blk x o i v a y, InFlight s b w op blk x o → o.payload = .field i a y → i ∈ [.fld v, .fldg v, .fwt v] → Oldest x o →
    s.m.bad = [] →
    let slot := blk.fslots.find (v.mod.extractLsb' 0 4).toNat
    let shaped (d : FieldDesc) : Prop := d.dims = (v.mod.extractLsb' 8 2).toNat + 1 ∧
      (i = .fwt v ∨ d.chans = (v.mod.extractLsb' 10 2).toNat + 1)
    let lanes := lanesOf o.mask 64
    let ends (P : Result → Prop) : Prop := Leaves s (.varComplete b w op) (fun m => m.mem = s.m.mem ∧
      WarpIn m b w (fun z => ∃ r, r.dest = some v.d ∧ r.mask = o.mask ∧ r.preds = [] ∧ P r ∧ Fallen s x op o r z))
    (slot = none → Faults s b w op (o.info 0x42 0)) ∧
    (∀ d, slot = some d → ¬shaped d → Faults s b w op (o.info 0x43 0)) ∧
    (∀ d, slot = some d → shaped d → i = .fwt v → ends (fun r => r.n = 4 ∧ ∀ l ∈ lanes,
      let reg (k : Nat) : Word := r.vals.get (resKey k l)
      let e := (y.get (resKey 0 l)).toNat
      let past := (d.order + 1) ^ d.dims ≤ e
      match d.coords a l with
      | none => reg 0 = 0 ∧ reg 1 = 0 ∧ reg 2 = 0 ∧ reg 3 = (if past then 6 else 2) ∧ r.flags.getLsbD 0 = true
      | some xs => match (if past then none else (d.entry xs e).off) with
        | none => reg 0 = 0 ∧ reg 1 = 0 ∧ reg 2 = 0 ∧ reg 3 = if past then 4 else 1
        | some off => reg 1 ++ reg 0 = BitVec.ofInt 64 off ∧ reg 3 = 0 ∧ Finite (Num.decodeF Num.f32 (reg 2).toNat) ∧
            valueOf (Num.decodeF Num.f32 (reg 2).toNat) = valueOf (d.entry xs e).w)) ∧
    ∀ d m1 m2 ks bs, slot = some d → shaped d → i ≠ .fwt v →
      let grad := i = .fldg v
      let read (xs : List (Int × Nat)) : List FEntry := ((List.range ((d.order + 1) ^ d.dims)).map (d.entry xs)).filter (fun e =>
        e.off.isSome && (!e.w.isZero || (decide grad && e.g.any (fun g => !g.isZero))))
      let entries (l : Nat) : List FEntry := ((d.coords a l).map read).getD []
      let blk1 := settled s blk w x
      let la := s.m.launchOf blk
      (s.m.setWarp b w (x.settle s.now)).checkLanes blk1 la d.space false .read (d.esize * d.chans) o.ia o.slot
        (lanes.foldr (fun l r => (entries l).map (fun e => (l, d.addr (e.off.getD 0))) ++ r) []) = (m1, .ok ks) →
      m1.loadLanes blk1 la [] s.now d.space ks = (m2, bs) →
      ends (fun r => r.n = (if grad then d.chans * (d.dims + 1) else d.chans) ∧ ∀ l ∈ lanes, ∀ c, c < d.chans →
        let reg (k : Nat) : Nat := (r.vals.get (resKey k l)).toNat
        let mine := (entries l).zip ((bs.filter (fun e => e.1 = l)).map (·.2))
        let elem (p : FEntry × List Byte) : Num.Val := d.elem (d.nf la) (leNat ((p.2.drop (c * d.esize)).take d.esize))
        (d.coords a l = none → reg c = 0 ∧ r.flags.getLsbD 0 = true) ∧
        (d.coords a l ≠ none → FieldSum (modeCnan la.mode) ((mine.filter (fun p => !p.1.w.isZero)).map (fun p => [p.1.w, elem p])) (reg c) r.flags) ∧
        ∀ q, grad → q < d.dims →
          let g (p : FEntry × List Byte) : Num.Val := p.1.g.getD q (.zero false)
          (d.coords a l = none → reg (d.chans + c * d.dims + q) = 0) ∧
          (d.coords a l ≠ none → FieldSum (modeCnan la.mode) ((mine.filter (fun p => !(g p).isZero)).map (fun p => [d.scale q, g p, elem p]))
            (reg (d.chans + c * d.dims + q)) r.flags))

/-- The lanes of an operation that name a chunk or a value outside a region (21_fabric.md R380). -/
def outside (g : Gossip) (o : Op) (y z : FMap 32) : Mask := maskOf 64 (fun l => o.mask.getLsbD l && (g.nch ≤ cap32 y l || g.values ≤ cap32 z l))

/-- GADD (R381, R384): at its turn its flag falls, with the exceptions of putting its terms on the grid, and it keeps the terms; then they
are added in one event to the values, to TOTV and to GADDV. -/
def GaddTurn (s : State) (b w op : Nat) : Prop :=
  ∀ blk x o, s.m.bad = [] →
    (∀ v a y z g, InFlight s b w op blk x o → o.payload = .gossip (.gadd v) a y z → Oldest x o →
      s.m.gossipOf blk.ctx (v.mod.extractLsb' 4 3).toNat = some g →
      (outside g o y z ≠ 0 → Faults s b w op { o.info 0xA7 0 with fmask := outside g o y z }) ∧
      (outside g o y z = 0 →
        let put (l : Nat) : DWord × Num.Exc := Num.ontoGrid (Num.decodeF Num.f32 (cap32 a l)) g.k
        let lanes := lanesOf o.mask 64
        Leaves s (.varComplete b w op) (fun m => m.mem = s.m.mem ∧ WarpIn m b w (fun q =>
          Fallen s x op o { Result.none with flags := orExc (lanes.map (fun l => (put l).2)) } q ∧
          (q.ops.find op).map (·.payload) =
            some (.terms (v.mod.extractLsb' 4 3).toNat (lanes.map (fun l => (g.valueAt (cap32 y l) (cap32 z l), (put l).1)))))))) ∧
    ∀ rgn xs g, s.m.warp b w = some (blk, x) → s.m.alive blk = true → x.ops.find op = some o → o.fault = none →
      o.payload = .terms rgn xs → s.m.gossipOf blk.ctx rgn = some g →
      let keys (a : Nat) : List Nat := g.keys (s.m.part blk.part) a 8
      Leaves s (.varComplete b w op) (fun m =>
        m.mem = xs.foldl (fun f e => put f (keys e.1) (leBytes (BitVec.ofNat 64 (leNat ((keys e.1).map f.get)) + e.2).toNat 8)) s.m.mem ∧
        ∃ g', m.gossipOf blk.ctx rgn = some g' ∧ ∀ k, k < 7 → g'.counter k =
          (if k = 0 ∨ k = 5 then g.counter k + (xs.map (·.2)).sum else g.counter k))

/-- GRD, GSPRD and GMASS (R382, R383, R386): each admitted lane's value over its chunk's weight, rounded once; the largest spread record
of a range of chunks; a counter. -/
def GossipReads (s : State) (b w op : Nat) : Prop :=
  ∀ blk x o i v a y z g, InFlight s b w op blk x o → o.payload = .gossip i a y z → Oldest x o → s.m.bad = [] →
    s.m.gossipOf blk.ctx (v.mod.extractLsb' 4 3).toNat = some g →
    let p := s.m.part blk.part
    let mode := (s.m.launchOf blk).mode
    (i = .grd v → outside g o y z = 0 → modeTraps mode = 0 → Leaves s (.varComplete b w op) (fun m => m.mem = s.m.mem ∧
      WarpIn m b w (fun q => ∃ r, r.dest = some v.d ∧ r.n = 1 ∧ r.mask = o.mask ∧ Fallen s x op o r q ∧ ∀ l ∈ lanesOf o.mask 64,
        let bits := (r.vals.get (resKey 0 l)).toNat
        let val := s.m.regionWord p g (g.valueAt (cap32 y l) (cap32 z l))
        let wt := s.m.regionWord p g (g.weightAt (cap32 y l))
        if wt = 0 then bits = Num.f32.qnan ∧ r.flags.getLsbD 0 = true
        else if val = 0 then bits = 0
        else ∃ e, RoundsInto Num.f32 (roundingOf mode (v.mod.extractLsb' 0 3).toNat (v.mod.getLsbD 3) (cap32 a l)) (val.msb != wt.msb)
          (|(val.toInt : ℝ)| * (2 : ℝ) ^ g.k / (|(wt.toInt : ℝ)| * (2 : ℝ) ^ (-62 : ℤ))) (bits, e) ∧ e &&& r.flags = e))) ∧
    (i = .grd v → outside g o y z ≠ 0 → Faults s b w op { o.info 0xA7 0 with fmask := outside g o y z }) ∧
    (i = .gsprd v →
      let first := o.once32 y
      let n := o.once32 z
      let rec_ (c j : Nat) : Nat := leNat ((g.keys p (g.spreadAt c j) 4).map s.m.mem.get)
      (n ≠ 0 → g.nch < first + n → Faults s b w op (o.info 0xA7 0)) ∧
      ((n = 0 ∨ first + n ≤ g.nch) → ∃ top, Ends s b w op x o (o.result v.fields 1 (fun _ _ => BitVec.ofNat 32 top) 0) ∧
        (∀ c j, first ≤ c → c < first + n → j < g.nn → rec_ c j ≤ top) ∧
        (top = 0 ∨ ∃ c j, first ≤ c ∧ c < first + n ∧ j < g.nn ∧ rec_ c j = top))) ∧
    (i = .gmass v → Ends s b w op x o (o.result v.fields 2 (fun _ k =>
      (g.counter (v.mod.extractLsb' 8 4).toNat).extractLsb' (32 * k) 32) 0))

/-- GSYNC, GCTL.rate and GCTL.stop (R384, R385): GSYNC completes with no earlier GADD's terms left; the rate moves the next exchange; a
stopped slot refuses a rate. -/
def GossipControls (s : State) (b w op : Nat) : Prop :=
  ∀ blk x o i v a y z, InFlight s b w op blk x o → o.payload = .gossip i a y z → Oldest x o → s.m.bad = [] →
    let rgn := (v.mod.extractLsb' 4 3).toNat
    let leaves (g' : Gossip) : Prop := Leaves s (.varComplete b w op) (fun m => m.mem = s.m.mem ∧ m.gossipOf blk.ctx rgn = some g' ∧
      WarpIn m b w (Fallen s x op o Result.none))
    (i = .gsync v → Ends s b w op x o Result.none) ∧
    ∀ g, s.m.gossipOf blk.ctx rgn = some g →
      (i = .gctlRate v → g.stopped = false →
        let rate := BitVec.ofNat 32 (o.once32 a)
        leaves { g with rate := rate, due := g.due - g.rate.toNat + rate.toNat }) ∧
      (i = .gctlRate v → g.stopped = true → Faults s b w op (o.info 0xA6 0)) ∧
      (i = .gctlStop v → v.mod.getLsbD 7 = false → leaves { g with stopped := true })

/-- CTXSV (R349): its status word. A save needs a context that is switched out, and has ended once its image is whole; a restore
needs a saved one. -/
def CtxsvTurn (s : State) (b w op : Nat) : Prop :=
  ∀ blk x o i v ctx save, InFlight s b w op blk x o → o.payload = .sys i ctx save → s.m.bad = [] →
    let status (n : Nat) : Prop := Ends s b w op x o (o.result v.fields 1 (fun _ _ => BitVec.ofNat 32 n) 0)
    (i = .ctxsvSave v → save = 0 → (s.m.ctx ctx).state ≠ 3 → status 1) ∧
    (i = .ctxsvSave v → ∀ n img, save = n + 1 → s.m.images.find n = some img → img.whole = true → status 0) ∧
    (i = .ctxsvRest v → (s.m.ctx ctx).state ≠ 4 → status 1)

/-! ### What an issue leaves unchanged -/

/-- The instruction `i` issues in `s` and leaves `d`. -/
def Issued (s : State) (i : Instr) (c d : Cx) : Prop := Issues s i c → exec i s = .next (After s c d)

/-- The main-file registers that a source or a killed destination names: the field's own, and the one that a buffer entry
maps. -/
def named (c : Cx) (o : Operand) (n r : Nat) : Prop := r ∈ opRegs o n ∨ ∃ k, o = .b k ∧ c.w.mapOf k.toNat = some r

/-- The main-file registers that the hint's KA, KB and KC kill (02_warp_state.md R41). -/
def kills (c : Cx) (r : Nat) : Prop :=
  (c.f.hint.ka = true ∧ named c c.f.a c.sh.a.count r) ∨ (c.f.hint.kb = true ∧ named c c.f.b c.sh.b.count r) ∨
    (c.f.hint.kc = true ∧ named c c.f.c c.sh.c.count r)

/-- The main-file registers that a result in D writes: D's own, or under WT the one that its buffer entry maps (R34). -/
def writes (c : Cx) (r : Nat) : Prop :=
  r ∈ opRegs c.f.d c.sh.d.count ∨ (c.f.hint.wt = true ∧ ∃ k, c.f.d = .b k ∧ c.w.mapOf k.toNat = some r)

/-- The instructions whose only effect is a result in D or in predicates, a fixed number of cycles after issue. -/
def RegisterOnly : Instr → Prop
  | .iadd _ | .isub _ | .imul _ | .imad _ | .imadw _ | .imnmx _ | .iabs _ | .lop _ | .lop3 _ | .shl _ | .shr _ | .rot _
  | .shf _ | .bfx _ | .bfi _ | .popc _ | .clz _ | .brev _ | .prmb _ | .iadd64 _ | .lea _ | .lea64 _ | .mov _ | .movi _
  | .sel _ | .idp4 _ | .mix _ | .fadd _ | .fmul _ | .ffma _ | .fdot2 _ | .fmin _ | .fmax _ | .frnd _ | .fscl _ | .fxtr _
  | .fcls _ | .cvti _ | .cvtf _ | .cvtif _ | .cvtfi _ | .cvtnEnc _ | .cvtnDec _ | .cvtwFx _ | .cvtwFp _ | .srnd _
  | .rand _ | .pack _ | .unpk _ | .isetp _ | .fsetp _ | .plop _ | .pmovP2v _ | .pmovV2p _ | .vote _ | .shfl _
  | .flagsRd _ => True
  | _ => False

/-- The predicates that such an instruction writes. -/
def predsOf : Instr → List Nat
  | .iadd w | .isub w => if w.mod.getLsbD 7 then [(w.mod.extractLsb' 4 3).toNat] else []
  | .isetp w | .vote w => [(w.mod.extractLsb' 4 3).toNat]
  | .fsetp w => [(w.mod.extractLsb' 4 3).toNat, (w.mod.extractLsb' 4 3).toNat + 1]
  | .plop w => [(w.mod.extractLsb' 14 3).toNat]
  | .pmovV2p w => (List.range 7).filter (fun j => w.mod.getLsbD j)
  | .shfl w => if w.mod.getLsbD 11 then [(w.mod.extractLsb' 8 3).toNat] else []
  | _ => []

/-- Two views of a warp that agree but in its registers, buffer, predicates, FLAGS, latches and pending results, and in
where it stands. -/
def SameRest (x y : Warp) : Prop :=
  y.map = x.map ∧ y.stack = x.stack ∧ y.spilled = x.spilled ∧ y.counts = x.counts ∧ y.bits = x.bits ∧
  y.batches = x.batches ∧ y.pix = x.pix ∧ y.wprio = x.wprio ∧ y.shash = x.shash ∧ y.exm = x.exm ∧ y.gang = x.gang ∧
  y.wake = x.wake ∧ y.shadow = x.shadow ∧ y.queue = x.queue ∧ y.ops = x.ops ∧ y.nextOp = x.nextOp ∧ y.folds = x.folds ∧
  y.matQ = x.matQ ∧ y.fieldQ = x.fieldQ ∧ y.sleeping = x.sleeping ∧ y.ended = x.ended ∧ y.gangs = x.gangs ∧
  y.s0.mask = x.s0.mask ∧ y.s1.mask = x.s1.mask

/-- The frame of a register-only instruction: nothing changes but its warp and the armature's pending exceptions; of the
warp, at every later cycle, only the registers that it writes or kills and its predicates read otherwise, no exception bit
of FLAGS falls and no other bit changes. -/
def RegisterFrame (s : State) (c : Cx) (t : State) : Prop :=
  ∃ y ap, t = s.lift c.t (s.m.setBlock c.bid ({ c.blk with armPend := ap }.setWarp c.wid y)) ∧ SameRest c.w y ∧
    (∀ k r l, ¬writes c r → ¬kills c r → (y.settle k).reg r l = (c.w.settle k).reg r l) ∧
    (∀ k p, p ∉ predsOf c.i → (y.settle k).pred p = (c.w.settle k).pred p) ∧
    (∀ k, (y.settle k).flags &&& (c.w.settle k).flags = (c.w.settle k).flags ∧
      (y.settle k).flags >>> 5 = (c.w.settle k).flags >>> 5)

/-- NOP, and the instructions that start an operation of the warp or of an engine and leave everything else to its
completion. -/
def Starts : Instr → Prop
  | .nop _ | .idiv _ | .fdiv _ | .fsqrt _ | .frcp _ | .frsq _ | .fex2 _ | .flg2 _ | .fsinp _ | .fcosp _ | .wred _ | .wscan _
  | .wfred _ | .match _ | .fence _ | .fbind _ | .fld _ | .fldg _ | .fst _ | .fstg _ | .fwt _ | .fdrn _ | .fclr _ | .gang _
  | .mma _ | .mldb _ | .mldc _ | .mclr _ | .mdrn _ | .mstp _ | .mperm _ | .mred _ | .mtrn _ | .mhist _ | .cpy _
  | .barArrive _ | .barWait _ | .barSync _ | .barx _ | .cbarArrive _ | .cbarWait _ | .cbarSync _ | .wake _ | .bwait _
  | .gadd _ | .grd _ | .gsprd _ | .gsync _ | .gctlStart _ | .gctlRate _ | .gctlStep _ | .gmass _ | .coll _
  | .ctxsvSave _ | .ctxsvRest _ => True
  | _ => False

/-- The frame of an issue that starts an operation: of the machine, `m` at its issue, only its warp changes; the warp's
registers, predicates, FLAGS, latches and pending results stay, but that killed registers are dead. -/
def StartFrame (s : State) (m : Mach) (c : Cx) (t : State) : Prop :=
  ∃ y, t = s.lift c.t (m.setBlock c.bid (c.blk.setWarp c.wid y)) ∧
    y.v = c.w.v ∧ y.preds = c.w.preds ∧ y.flags = c.w.flags ∧ y.pend = c.w.pend ∧ y.h0 = c.w.h0 ∧ y.h1 = c.w.h1 ∧
    y.buf = c.w.buf ∧ y.map = c.w.map ∧ y.pix = c.w.pix ∧ y.shash = c.w.shash ∧ y.wprio = c.w.wprio ∧ y.exm = c.w.exm ∧
    y.stack = c.w.stack ∧ y.spilled = c.w.spilled ∧ y.queue = c.w.queue ∧ y.gang = c.w.gang ∧ y.bits = c.w.bits ∧
    y.s0.mask = c.w.s0.mask ∧ y.s1.mask = c.w.s1.mask ∧
    ∀ r, ¬kills c r → y.deadV.getLsbD r = c.w.deadV.getLsbD r

/-- The places of the entry that a push onto a full stack writes (02_warp_state.md R22). -/
def spillPlaces (c : Cx) : Except (Nat × Nat) (List Nat) :=
  c.m.coreKeys c.blk.core c.blk.ctx .write (spillBase c.la c.blk c.wid + 16 * c.w.spilled.length) 16

/-- The entry of the other slot as it is parked (R132, R135). -/
def parked (c : Cx) : StackEntry := entry (c.w.slot (1 - c.cl.slot)).pc (c.w.slot (1 - c.cl.slot)).mask

/-- What of a machine no instruction word changes as it issues: every byte of memory, the administrative window and ring,
partitions, launches, transfers to the host, links, images, the boot state and the flash. -/
def SameOutside (m m' : Mach) : Prop :=
  m'.mem = m.mem ∧ m'.bad = m.bad ∧ m'.parts = m.parts ∧ m'.launches = m.launches ∧ m'.admin = m.admin ∧
  m'.adminRing = m.adminRing ∧ m'.rma = m.rma ∧ m'.gmsgs = m.gmsgs ∧ m'.verdicts = m.verdicts ∧ m'.links = m.links ∧
  m'.rates = m.rates ∧ m'.flits = m.flits ∧ m'.pkg = m.pkg ∧ m'.rails = m.rails ∧ m'.boot = m.boot ∧
  m'.recovery = m.recovery ∧ m'.banks = m.banks ∧ m'.active = m.active ∧ m'.fresh = m.fresh ∧ m'.digests = m.digests ∧ m'.sysExec = m.sysExec ∧
  m'.images = m.images ∧ m'.inbox = m.inbox ∧ m'.focus = m.focus

end Sys2Proof.Spec

open Sys2Proof Sys2Proof.Machine

/-! ### Encodings -/

/-- Every well-formed instruction has a word, and decoding that word gives the instruction back, with every operand at every
value that its encoding admits (03_encoding.md R45 to R59). -/
def Obligations.EncodeThenDecode : Prop := ∀ i : Instr, i.wf = true → (encode i).bind decode = some i

/-- A word that decodes is the word of the instruction that it decodes to, and that instruction is well formed: no two words
stand for one instruction, and no bit of a word is ignored (03_encoding.md R45, R48, R50). -/
def Obligations.DecodeThenEncode : Prop := ∀ w i, decode w = some i → encode i = some w ∧ i.wf = true

/-- A clause header reads back from its word, and the word of a header that holds no bit where R56 wants zero is that of what
it reads as. A word is rejected with OP_RESERVED exactly when its opcode is one that R59 reserves, and a clause header is no
instruction (03_encoding.md R56, R59, R61). -/
def Obligations.HeadersAndReservedOpcodes : Prop :=
  (∀ h : Header, decodeHeader (encodeHeader h) = some h) ∧
  (∀ w h, w.extractLsb' 0 60 = 0 → decodeHeader w = some h → encodeHeader h = w) ∧
  ∀ w : IWord,
    (decodeWord w = .error .opReserved ↔ Spec.Reserved (w.extractLsb' 88 8).toNat) ∧
    (w.extractLsb' 88 8 = 0xF8#8 → decodeWord w = .error .frame)

/-- Words worked in the manual, and what they stand for (03_encoding.md, "Words worked field by field", and
05_isa_arithmetic.md, "A conversion worked field by field"). -/
def Obligations.WorkedWords : Prop :=
  decode 0x220700800000430000C00000#96 = some (.ffma
    { g := ⟨false, 7⟩, hint := ⟨false, 3, false, false, false, false⟩, fn := 0, d := .v 8, a := .v 0, b := .v 4, c := .v 12,
      mod := 0 }) ∧
  decode 0x010A00300580180000000000#96 = some (.iadd
    { g := ⟨true, 2⟩, hint := ⟨true, 0, false, false, false, false⟩, fn := 0, d := .v 3, a := .v 5, b := .const 1, c := .v 0,
      mod := 0 }) ∧
  decode 0x040740400260309070200000#96 = some (.imad
    { g := ⟨false, 7⟩, hint := ⟨false, 0, true, false, false, true⟩, fn := 0, d := .b 4, a := .v 2, b := .s 3,
      c := .special 2, mod := 0 }) ∧
  decode 0x060700300500600000040000#96 = some (.idiv
    { g := ⟨false, 7⟩, hint := ⟨false, 0, false, false, false, false⟩, fn := 0, d := .v 3, a := .v 5, b := .v 6, c := .v 0,
      mod := 0x40000 }) ∧
  decode 0x19070010000000003F800000#96 = some (.movi
    { g := ⟨false, 7⟩, hint := ⟨false, 0, false, false, false, false⟩, fn := 0, d := .v 1, a := .v 0, b := .v 0,
      imm := 0x3F800000 }) ∧
  decode 0x430700300800000000000A62#96 = some (.cvtfi
    { g := ⟨false, 7⟩, hint := ⟨false, 0, false, false, false, false⟩, fn := 0, d := .v 3, a := .v 8, b := .v 0, c := .v 0,
      mod := 0xA62 }) ∧
  decode 0x470700400170200060500000#96 = some (.rand
    { g := ⟨false, 7⟩, hint := ⟨false, 0, false, false, false, false⟩, fn := 0, d := .v 4, a := .v 1, b := .special 2,
      c := .s 5, mod := 0 }) ∧
  decodeHeader 0xF830098CB000000000000000#96 = some
    { len := 3, wait := 9, e1 := true, f1 := 1, e2 := true, f2 := 2, yp := true, rh := true }

/-! ### The step -/

/-- A step with nothing from outside runs the word at which the warp in focus stands: fetched, decoded and carried out; and
after it no warp is in focus. That the word in focus goes first, and that no warp is in focus after it, is the model's choice (log
entry 5). -/
def Obligations.StepRunsTheWord : Prop :=
  ∀ (s : State) b w blk x c word i, s.m.inbox = [] → s.m.focus = some (b, w) → s.m.warp b w = some (blk, x) →
    x.clause = some c → x.stop = none →
    s.m.fetchWord blk.core blk.ctx (c.head + 12 * (c.pos + 1)) = .ok word → decode word = some i →
    step s = unfocused (exec i s)

/-- What comes from outside happens first; with nothing from outside and no warp in focus the machine takes what is due next:
an event of its own, the word of a due warp, or the next cycle. That a word in focus goes before everything else, and the
order of the rest, are the model's own choice (DESIGN CHOICE, log entry 5); no rule of the spec gives them. -/
def Obligations.StepOrder : Prop :=
  (∀ (s : State) i rest, s.m.inbox = i :: rest → step s = exec i { s with m := { s.m with inbox := rest } }) ∧
  (∀ s : State, s.m.inbox = [] → s.m.focus = none →
    (∀ i, s.pick = .event i → step s = exec i s) ∧
    (∀ b w, s.pick = .issue b w → step s = step { s with m := { s.m with focus := some (b, w) } }) ∧
    (s.pick = .tick → step s = .next { s with now := s.now + 1, m := s.m.countReady s.now }))

/-- An instruction that is placed is the one that the next step fetches, decodes and carries out: its word reads back from the
memory in which it lies (03_encoding.md R45). -/
def Obligations.PlacedWordRuns : Prop :=
  ∀ (s : State) nbits w i, decodeTableWord nbits w = some i → s.m.bad = [] →
    step (s.withFetchWord nbits w) = unfocused (exec i (s.withFetchWord nbits w))

/-- Every step keeps CAPS and never turns the clock back (00_scope.md R2, 06_isa_control.md R127). -/
def Obligations.StepKeepsCapsAndClock : Prop :=
  ∀ s t, step s = .next t → t.caps = s.caps ∧ s.now ≤ t.now

/-- Every step keeps memory in its canonical form: addresses strictly rising, and no byte listed that reads as an unlisted
one does. -/
def Obligations.StepKeepsMemoryForm : Prop :=
  ∀ s t, s.m.mem.wf = true → step s = .next t → t.m.mem.wf = true

/-- Memory after reset is in canonical form, and every write of bytes, at scattered or at consecutive places, keeps it so and
reads back: a byte that is written reads as written, and every other byte as before (00_scope.md R5). -/
def Obligations.MemoryWrites : Prop :=
  State.reset.m.mem.wf = true ∧
  (∀ (f : FMap 8) k v, f.wf = true → (f.set k v).wf = true) ∧
  (∀ (f : FMap 8) ks bs, f.wf = true → (Spec.put f ks bs).wf = true) ∧
  (∀ (f : FMap 8) ks bs a, a ∉ ks → (Spec.put f ks bs).get a = f.get a) ∧
  (∀ (f : FMap 8) ks bs n, ks.Nodup → bs.length = ks.length → n < ks.length →
    (Spec.put f ks bs).get (ks.getD n 0) = bs.getD n 0) ∧
  (∀ (f : FMap 8) k bs a, (f.setList k bs).get a = if k ≤ a ∧ a < k + bs.length then bs.getD (a - k) 0 else f.get a)

/-- After reset: CAPS of the OBL-T980 but for PREV, the clock at 0, no partition, context, block or launch, every die with
clear error counters and its CYC counting from 0 (00_scope.md R2, 16_die.md R303), no link down, and CAPS of the OBL-T940 where the
part is one (01_device.md R9). The model's own are the rails, the boot stage, the flash and the package number (DESIGN CHOICE, log
entry 3), memory that lists no byte (log entry 4), and the clock's 0, the empty inbox and no warp in focus (log entry 5). -/
def Obligations.ResetState : Prop :=
  let s := State.reset
  s.now = 0 ∧ s.caps.nstack = 8 ∧ s.caps.goss = true ∧ s.caps.mx64 = true ∧ s.caps.fldu = true ∧ s.caps.ueport = 16 ∧
  s.caps.klink = 32 ∧ s.m.mem = [] ∧ s.m.parts = [] ∧ s.m.ctxs = [] ∧ s.m.blocks = [] ∧ s.m.launches = [] ∧
  s.m.runlist = [] ∧ s.m.inbox = [] ∧ s.m.focus = none ∧
  (∀ d, (s.m.die d).cecnt = 0 ∧ (s.m.die d).uecnt = 0 ∧ (s.m.die d).thr = false ∧ (s.m.die d).base = 0) ∧
  (∀ k, (s.m.cluster k).terr = 0 ∧ (s.m.cluster k).derr = 0) ∧ (∀ c, s.m.svc c = 1) ∧
  s.m.rails = 5 ∧ s.m.railFail = none ∧ s.m.railAt = none ∧ s.m.boot = 0 ∧ s.m.recovery = false ∧ s.m.banks = [[], []] ∧
  s.m.active = 0 ∧ s.m.digests = [] ∧ s.m.sysExec = [] ∧ s.m.pkg = 0 ∧ s.m.links = [] ∧ s.m.cutSince = none ∧ s.m.flits = [] ∧
  let k := State.resetT940
  k.caps.nstack = 4 ∧ k.caps.goss = false ∧ k.caps.mx64 = false ∧ k.caps.fldu = true ∧ k.caps.ueport = 8 ∧ k.caps.klink = 32 ∧
  k.now = 0 ∧ k.m = s.m

/-! ### Operands, results and exceptions -/

/-- The inline constants (03_encoding.md R53), entry by entry: a 32-bit integer operand reads the entry's pattern; a 64-bit one
sign-extends entries 0 to 31 and zero-extends the others; a floating-point operand of each format reads the entry's value
exactly, in both elements of a packed type; the NaN entry is the quiet NaN. -/
def Obligations.InlineConstants : Prop :=
  ∀ (c : Cx) (k : BitVec 6) (l : Nat),
    let n := k.toNat
    let pat : Word := if n < 32 then BitVec.ofInt 32 (Spec.intConsts.getD n 0) else BitVec.ofNat 32 (Spec.floatConsts.getD (n - 32) 0)
    c.rd (.const k) 0 l = pat ∧ c.rd64 (.const k) l = (if n < 32 then pat.signExtend 64 else pat.zeroExtend 64) ∧
    ∀ f ∈ [Num.f64, Num.f32, Num.f16, Num.bf16], ∀ i, i = 0 ∨ (i = 1 ∧ f.bits = 16) →
      let x := elemOf f.bits i (c.rdF f (.const k) l)
      (n < 61 → Spec.Finite (Num.decodeF f x) ∧ (Num.decodeF f x).neg? = pat.msb ∧ Spec.valueOf (Num.decodeF f x) =
        if n < 32 then (Spec.intConsts.getD n 0 : ℚ) else Spec.valueOf (Num.decodeF Num.f32 (Spec.floatConsts.getD (n - 32) 0))) ∧
      (n = 61 → x = f.inf false) ∧ (n = 62 → x = f.inf true) ∧ (n = 63 → x = f.qnan)

/-- Which lanes and registers a result reaches (02_warp_state.md R19, R20, R34, 03_encoding.md R47): it writes each of its words
into its register in its lanes, and into every buffer entry that maps that register. A result of a buffer entry writes that entry, and
under WT the register that it maps and no other. A predicate p0 to p6 takes its lanes. Every other lane keeps its value, of a
register as of a predicate. A write to p7 is discarded, and p7 reads true in every lane. What an instruction admits is what is
active in its slot and passes its guard, unless an SBR skips it. -/
def Obligations.Results : Prop :=
  (∀ (w : Warp) (r : Result) d o l, r.dest = some (.v d) → o < r.n → d.toNat + r.n ≤ 256 → l < 64 → r.mask.getLsbD l = true →
    (w.writeResult r).reg (d.toNat + o) l = r.vals.get (resKey o l) ∧
    ∀ k < 16, w.mapOf k = some (d.toNat + o) → (w.writeResult r).bufVal k l = r.vals.get (resKey o l)) ∧
  (∀ (w : Warp) (r : Result) n l, l < 64 → r.mask.getLsbD l = false →
    (w.writeResult r).v.get (regKey n l) = w.v.get (regKey n l)) ∧
  (∀ (w : Warp) (r : Result) p l, l < 64 → r.mask.getLsbD l = false →
    ((w.writeResult r).pred p).getLsbD l = (w.pred p).getLsbD l) ∧
  (∀ (w : Warp) (r : Result) k l, r.dest = some (.b k) → r.n = 1 → l < 64 →
    (r.mask.getLsbD l = true → (w.writeResult r).bufVal k.toNat l = r.vals.get (resKey 0 l)) ∧
    (r.wt = false → ∀ n, (w.writeResult r).reg n l = w.reg n l) ∧
    (r.wt = true → ∀ n, (w.mapOf k.toNat = some n → r.mask.getLsbD l = true → (w.writeResult r).reg n l = r.vals.get (resKey 0 l)) ∧
      (w.mapOf k.toNat ≠ some n → (w.writeResult r).reg n l = w.reg n l))) ∧
  (∀ (w : Warp) (r : Result) p v l, (p, v) ∈ r.preds → (∀ e ∈ r.preds, e.1 = p → e.2 = v) → p < 7 → l < 64 →
    r.mask.getLsbD l = true → ((w.writeResult r).pred p).getLsbD l = v.getLsbD l) ∧
  (∀ (w : Warp) m v, w.setPred 7 m v = w ∧ w.pred 7 = BitVec.allOnes 64) ∧
  (∀ s i c, Issues s i c → c.skipped = false → ∀ l < 64, c.adm.getLsbD l =
    ((c.w.slot c.cl.slot).mask.getLsbD l && (c.w.pred c.f.g.p.toNat).getLsbD l != c.f.g.neg))

/-- A fixed-latency result enters the latches as it is written: h0 takes it, zero in the lanes that it does not write, and h1
takes what h0 held (02_warp_state.md R31, R32); the exceptions enter FLAGS in that cycle (R26). That a latch takes the low two words of a
128-bit result is log entry 12 (DEDUCED). -/
def Obligations.LatchesTakeResults : Prop :=
  ∀ (w : Warp) (p : Pend), p.latch = true →
    (w.land p).h1 = w.h0 ∧ (∃ h, (w.land p).h0 = some h ∧ ∀ l < 64, h.get l =
      if p.r.mask.getLsbD l then p.r.vals.get (resKey 1 l) ++ p.r.vals.get (resKey 0 l) else 0) ∧
    (w.land p).flags = (w.flags &&& ~~~(p.clr.zeroExtend 32)) ||| p.r.flags.zeroExtend 32

/-- An instruction whose unit CAPS marks absent traps precisely with UNIT_ABSENT and takes no other effect, whatever it is
(00_scope.md R3). -/
def Obligations.AbsentUnitTraps : Prop :=
  ∀ s i c, openCx i s = some c → c.unitAbsent = true → exec i s = .next (AfterTrap s c (Trap.of 0x0C))

/-- Under MODE.DCHK an instruction that admits a lane and reads a dead register or buffer entry traps precisely with DEAD_READ
(02_warp_state.md R41); OPF copies a dead register as dead (07_core_memory.md R159). -/
def Obligations.DeadReadTraps : Prop :=
  ∀ s i c, openCx i s = some c → c.unitAbsent = false → modeDchk c.mode = true → c.adm ≠ 0 → c.sh.cls ≠ .opf →
    c.w.readsDead c.sh c.f = true → exec i s = .next (AfterTrap s c (Trap.of 0x06))

/-- A precise trap (04_numbers.md R88, 12_core_scheduling.md R268): the warp stops with the cause, the word's address and lanes, in the
cycle in which it would have issued its next instruction, behind the word's STALL and the next word's conflicts (02_warp_state.md
R42, R43); it writes no register, predicate or latch; of the machine nothing else changes. With another word of
the clause to come the frame names that word's position; at the clause's end it names the next clause. -/
def Obligations.PreciseTrap : Prop :=
  ∀ s i c k, openCx i s = some c → ∃ y st,
    AfterTrap s c (Trap.of k) = s.lift c.t (s.m.setBlock c.bid (c.blk.setWarp c.wid y)) ∧
    y.v = c.w.v ∧ y.preds = c.w.preds ∧ y.buf = c.w.buf ∧ y.h0 = c.w.h0 ∧ y.h1 = c.w.h1 ∧ y.pend = c.w.pend ∧
    y.flags = c.w.flags ∧ y.deadV = c.w.deadV ∧ y.ops = c.w.ops ∧ y.queue = c.w.queue ∧ y.counts = c.w.counts ∧
    y.stop = some st ∧ st.how = 0 ∧ st.kind = 0 ∧ st.cause = k ∧
    st.cycle = c.t + 1 + c.f.hint.stall.toNat +
      (if c.cl.pos < c.cl.hdr.len.toNat then s.m.wordCost c.blk.core c.blk.ctx (c.cl.head + 12 * (c.cl.pos + 2)) else 0) ∧
    st.info.ia = c.cl.head + 12 * (c.cl.pos + 1) ∧ st.info.fmask = c.adm ∧ st.info.slot = c.cl.slot ∧
    (c.cl.pos ≠ c.cl.hdr.len.toNat → st.pos = c.cl.pos + 1 ∧ st.rhdr = c.cl.head) ∧
    (c.cl.pos = c.cl.hdr.len.toNat → st.pos = 0 ∧ st.rhdr = c.next)

/-- A trap frame's fields (18_traps.md R340). That LMASK of a warp that has ended is every lane is the model's choice (log entry
55). -/
def Obligations.TrapFrameFields : Prop := ∀ blk w x st, Spec.TrapFrame blk w x st

/-! ### Rounding and number formats -/

/-- Rounding onto the multiples of a unit (04_numbers.md R72, R73): to nearest leaves a multiple within half a unit, the even one
of two that are equally near; .rz cuts; .ru and .rd cut or go up by the sign; .sr, with T the value cut and D the first n bits
below the unit, gives T + 1 exactly when D + r is 2^n or more; and the rounding is reported as changing the value exactly when
the value is no multiple. One rounding into a format (R70, R74, R75, R87): every nonzero value gives the neighbour that the
direction names, or the overflow, the underflow, the flushed zero or the gradient class's RoundSR that the rules give, and the
exceptions of that rounding. -/
def Obligations.Rounding : Prop :=
  ∀ (neg : Bool) (m : Nat) (e q : Int) (r n : Nat),
    let x := Spec.units m e q
    let t (rm : Num.Rm) : Nat := (Num.roundAt rm neg m e q r n).1
    |((t .rn : ℕ) : ℚ) - x| ≤ 1 / 2 ∧ (|((t .rn : ℕ) : ℚ) - x| = 1 / 2 → t .rn % 2 = 0) ∧
    (t .rz : ℤ) = ⌊x⌋ ∧ (t .ru : ℤ) = (if neg then ⌊x⌋ else ⌈x⌉) ∧ (t .rd : ℤ) = (if neg then ⌈x⌉ else ⌊x⌋) ∧
    (t .sr : ℤ) = (if 2 ^ n ≤ ⌊(x - ⌊x⌋) * 2 ^ n⌋ + (r % 2 ^ n : ℕ) then ⌊x⌋ + 1 else ⌊x⌋) ∧
    (∀ rm, (Num.roundAt rm neg m e q r n).2 = true ↔ (⌊x⌋ : ℚ) ≠ x) ∧
    ∀ f ∈ Spec.ieee, ∀ k, m ≠ 0 → Spec.RoundsInto f k neg ((m : ℝ) * (2 : ℝ) ^ e) (Num.roundF f k neg m e)

/-- FADD, FMUL and FFMA of finite operands, outside FTZ, round the exact sum, product or fused sum once (04_numbers.md R70,
05_isa_arithmetic.md R105): the value that is rounded is the exact sum of finite terms, or the exact product of two. FDIV, FSQRT,
FRCP and FRSQ round the exact quotient, root and reciprocals once, and FSCL the exact product with a power of two; FRND gives the
integer that the direction names; FXTR the exponent and the mantissa, FCLS the class (R108); SRND rounds by RoundSR onto the
grid of precision p (R112). -/
def Obligations.OneRounding : Prop :=
  (∀ (rm : Num.Rm) (ts : List Num.Val), (∀ t ∈ ts, Spec.Finite t) →
    Spec.Finite (Num.sum rm ts) ∧ Spec.valueOf (Num.sum rm ts) = (ts.map Spec.valueOf).sum) ∧
  (∀ a b, Spec.Finite a → Spec.Finite b →
    Spec.Finite (Sys2Proof.Num.mul a b) ∧ Spec.valueOf (Sys2Proof.Num.mul a b) = Spec.valueOf a * Spec.valueOf b) ∧
  (∀ f ∈ Spec.ieee, ∀ k, Spec.Quotients f k ∧ Spec.Scalings f k ∧ Spec.Classes f k) ∧
  (∀ (p : ℕ) (cnan : Bool) (r x : ℕ), 1 ≤ p → p ≤ 24 →
    let a := Num.decodeF Num.f32 x
    (Spec.Finite a → Spec.valueOf a ≠ 0 → Spec.RoundsOnto { Num.f32 with p := p } Num.f32
      { rm := .sr, gr := false, ftz := false, cnan := cnan, rand := r, grand := none } a.neg? |(Spec.valueOf a : ℝ)|
      (srnd p cnan r a)) ∧
    (Spec.Finite a → Spec.valueOf a = 0 → srnd p cnan r a = (Num.f32.zero a.neg?, 0)) ∧
    (a.isInf = true → srnd p cnan r a = (Num.f32.inf a.neg?, 0))) ∧
  ∀ (f : Num.Fmt) (k : Num.Rnd) (l i : Nat) (a b c : Num.Val), k.ftz = false →
    Spec.Finite a → Spec.Finite b → Spec.Finite c →
    let once (x : Num.Val) : Nat × Num.Exc := match x with
      | .fin neg m e => Num.roundF f k neg m e
      | _ => (0, 0)
    fadd f k l i [a, b] = once (Num.sum k.rm [a, b]) ∧ fmul f k l i [a, b] = once (Sys2Proof.Num.mul a b) ∧
    ffma f k l i [a, b, c] = once (Num.sum k.rm [Sys2Proof.Num.mul a b, c])

/-- A finite value of a format is its own encoding: rounded into its own format in any direction, outside FTZ, it keeps its
pattern and raises nothing; so do the finite codes of every narrow format that the part accepts (04_numbers.md R69, R70, R76 to
R79). -/
def Obligations.FormatValuesAreExact : Prop :=
  (∀ f ∈ [Num.f64, Num.f32, Num.f16, Num.bf16], ∀ (k : Num.Rnd) (x : Nat) neg m e, x < 2 ^ f.bits →
    Num.decodeF f x = .fin neg m e → m ≠ 0 → (k.ftz = false ∨ k.gr = true) → Num.roundF f k neg m e = (x, 0)) ∧
  ∀ (nf : Word) (code : Nat) (nsat : Bool) (rm : Num.Rm) (rand : Nat) neg m e, Num.nfOk nf = true →
    code < 2 ^ (Num.nfOf nf).w → Num.decodeNF (Num.nfOf nf) code = .fin neg m e →
    Num.encodeNF (Num.nfOf nf) nsat rm rand (.fin neg m e) = (code, 0)

/-- FMIN and FMAX (05_isa_arithmetic.md R107) of two operands that are no NaN: the lesser or greater of the two, −0 below +0; of one NaN
operand the other one; a signalling NaN raises invalid in every case. -/
def Obligations.MinMax : Prop :=
  ∀ f ∈ [Num.f64, Num.f32, Num.f16, Num.bf16], ∀ (k : Num.Rnd) (l i x y : Nat), x < 2 ^ f.bits → y < 2 ^ f.bits →
    k.ftz = false →
    let a := Num.decodeF f x
    let b := Num.decodeF f y
    let below (u v : Num.Val) : Prop := Sys2Proof.Num.cmp u v = .lt ∨ (u.isZero = true ∧ v.isZero = true ∧ u.neg? = true ∧ v.neg? = false)
    let mn := fminmax false f k l i [a, b]
    let mx := fminmax true f k l i [a, b]
    (a.isNan = false → b.isNan = false → (below a b → mn = (x, 0) ∧ mx = (y, 0)) ∧ (below b a → mn = (y, 0) ∧ mx = (x, 0))) ∧
    (a.isNan = true → b.isNan = false → mn.1 = y ∧ mx.1 = y) ∧ (a.isNan = false → b.isNan = true → mn.1 = x ∧ mx.1 = x) ∧
    (mn.2 = (if a.isSnan ∨ b.isSnan then Num.nv else 0) ∧ mx.2 = mn.2)

/-- A block scale (04_numbers.md R80). -/
def Obligations.BlockScales : Prop :=
  ∀ x : Nat, x < 2 ^ 16 →
    let e := x / 256
    let m := x % 256
    (1 ≤ e → e ≤ 254 → Spec.Finite (Num.scaleVal x) ∧
      Spec.valueOf (Num.scaleVal x) = (2 : ℚ) ^ ((e : Int) - 127) * (1 + (m : ℚ) / 256)) ∧
    (e = 0 → Spec.Finite (Num.scaleVal x) ∧ Spec.valueOf (Num.scaleVal x) = (m : ℚ) / 256 * (2 : ℚ) ^ (-126 : Int)) ∧
    (e = 255 → (Num.scaleVal x).isNan = true) ∧ (Num.scaleVal x).neg? = false

/-- OntoGrid (04_numbers.md R83): the nearest integer to x × 2^(−k), ties to even, held to the 64-bit range with overflow and inexact;
inexact alone where it is not x × 2^(−k); a NaN or an infinity gives 0 and invalid. -/
def Obligations.OntoGrid : Prop :=
  (∀ (v : Num.Val) (k : Int), ¬Spec.Finite v → Num.ontoGrid v k = (0, Num.nv)) ∧
  ∀ (neg : Bool) (m : Nat) (e k : Int),
    let x := Spec.valueOf (.fin neg m e) * (2 : ℚ) ^ (-k)
    ∃ n : ℤ, |(n : ℚ) - x| ≤ 1 / 2 ∧ (|(n : ℚ) - x| = 1 / 2 → n % 2 = 0) ∧
      Num.ontoGrid (.fin neg m e) k =
        (if 2 ^ 63 - 1 < n then (0x7FFFFFFFFFFFFFFF#64, Num.ovf ||| Num.nx)
         else if n < -2 ^ 63 then (0x8000000000000000#64, Num.ovf ||| Num.nx)
         else (BitVec.ofInt 64 n, if (n : ℚ) = x then 0 else Num.nx))

/-- An FX64 sum is the same in every order of its terms, however it wraps on the way: as an atomic adds them at a location and as
a gossip region counts them (04_numbers.md R84, 07_core_memory.md R166). -/
def Obligations.GridSumsHaveNoOrder : Prop :=
  (∀ (k : BitVec 8) (q : Nat) (xs ys : List Nat), xs.Perm ys → q < 2 ^ 64 →
    xs.foldl (fun a x => rmwNew (.gadd k) 64 a x 0) q = ys.foldl (fun a x => rmwNew (.gadd k) 64 a x 0) q) ∧
  ∀ xs ys : List DWord, xs.Perm ys → sumWords xs = sumWords ys

/-- Draining an FX64 value (04_numbers.md R85): the exact value q × 2^k rounded once; differing top bits add overflow, and nothing else. -/
def Obligations.Drain : Prop :=
  ∀ (f : Num.Fmt) (r : Num.Rnd) (q : BitVec 64) (k : Int),
    let x := if q = 0 then (f.zero false, 0) else Num.roundF f r q.msb q.toInt.natAbs k
    (Num.drainF f r q k).1 = x.1 ∧
    (Num.drainF f r q k).2 = (if q.getLsbD 63 = q.getLsbD 62 then x.2 else x.2 ||| Num.ovf)

/-! ### Instructions: what each leaves -/

/-- The integer and address instructions (05_isa_arithmetic.md R99 to R103): each result, one cycle after issue (02_warp_state.md R44). -/
def Obligations.IntegerInstructions : Prop :=
  ∀ s c (z : ZForm) (w : CForm) (v : IForm),
    Spec.Issued s (.nop z) c c ∧ Spec.Issued s (.iadd w) c (Spec.iadd w c) ∧ Spec.Issued s (.isub w) c (Spec.isub w c) ∧
    Spec.Issued s (.imul w) c (Spec.imul w c) ∧ Spec.Issued s (.imad w) c (Spec.imad w c) ∧
    Spec.Issued s (.imadw w) c (Spec.imadw w c) ∧ Spec.Issued s (.imnmx w) c (Spec.imnmx w c) ∧
    Spec.Issued s (.iabs w) c (Spec.iabs w c) ∧ Spec.Issued s (.iadd64 w) c (Spec.iadd64 w c) ∧
    Spec.Issued s (.lea w) c (Spec.lea w c) ∧ Spec.Issued s (.lea64 w) c (Spec.lea64 w c) ∧
    Spec.Issued s (.mov w) c (Spec.mov w c) ∧ Spec.Issued s (.movi v) c (Spec.movi v c) ∧
    Spec.Issued s (.sel w) c (Spec.sel w c) ∧ Spec.Issued s (.idp4 w) c (Spec.idp4 w c) ∧
    Spec.Issued s (.mix w) c (Spec.mix w c)

/-- The logical, shift and bit-field instructions (05_isa_arithmetic.md R100, R101), and IDIV (R102), which starts an operation. -/
def Obligations.BitInstructions : Prop :=
  ∀ s c (w : CForm),
    Spec.Issued s (.lop w) c (Spec.lop w c) ∧ Spec.Issued s (.lop3 w) c (Spec.lop3 w c) ∧
    Spec.Issued s (.shl w) c (Spec.shl w c) ∧ Spec.Issued s (.shr w) c (Spec.shr w c) ∧
    Spec.Issued s (.rot w) c (Spec.rot w c) ∧ Spec.Issued s (.shf w) c (Spec.shf w c) ∧
    Spec.Issued s (.bfx w) c (Spec.bfx w c) ∧ Spec.Issued s (.bfi w) c (Spec.bfi w c) ∧
    Spec.Issued s (.popc w) c (Spec.popc w c) ∧ Spec.Issued s (.clz w) c (Spec.clz w c) ∧
    Spec.Issued s (.brev w) c (Spec.brev w c) ∧ Spec.Issued s (.prmb w) c (Spec.prmb w c) ∧
    Spec.Issued s (.idiv w) c (Spec.idiv w c)

/-- The fixed-latency floating-point instructions (05_isa_arithmetic.md R104 to R108): each element by its operation, the result
four or eight cycles after issue, or a precise trap on an enabled exception (04_numbers.md R88). What FRND, FSCL, FXTR and FCLS
give is stated by OneRounding. -/
def Obligations.FloatInstructions : Prop :=
  ∀ s c (w : CForm),
    let fp (i : Instr) (srcs : List Operand) (rand : Operand)
        (g : Num.Fmt → Num.Rnd → Nat → Nat → List Num.Val → Nat × Num.Exc) : Prop :=
      Spec.FixedExc s i c (fpLat w.fn) true (Spec.floatResult c w.fn srcs rand g)
    fp (.fadd w) [w.a, w.b] w.c fadd ∧ fp (.fmul w) [w.a, w.b] w.c fmul ∧ fp (.ffma w) [w.a, w.b, w.c] w.d ffma ∧
    fp (.fmin w) [w.a, w.b] w.c (fminmax false) ∧ fp (.fmax w) [w.a, w.b] w.c (fminmax true) ∧ fp (.frnd w) [w.a] w.c frnd ∧
    fp (.fscl w) [w.a] w.c (fun f k l i vs => fscl f k (Spec.fsclBy w c l i) vs) ∧
    Spec.FixedExc s (.fdot2 w) c 4 true (Spec.fdot2 w c) ∧
    Spec.FixedExc s (.fxtr w) c (fpLat w.fn) true (Spec.fxtrResult w c) ∧
    Spec.FixedExc s (.fcls w) c (fpLat w.fn) true (Spec.fclsResult w c)

/-- The variable-latency floating-point instructions (05_isa_arithmetic.md R106): an operation that will write each element's result, or
one that faults with an enabled exception and names its first lane (04_numbers.md R89). What a result is: for FDIV, FSQRT, FRCP
and FRSQ of finite nonzero operands the exact value rounded once, which OneRounding states; for the special inputs and the
inputs with exact results, the table of R106. Of FEX2, FLG2, FSINP and FCOSP elsewhere nothing is stated here: that their results
are correctly rounded rests on log entry 16 (UNVERIFIED). -/
def Obligations.FloatFunctions : Prop :=
  (∀ f ∈ Spec.ieee, ∀ k, Spec.SpecialInputs f k) ∧
  ∀ s c (w : CForm),
    let fv (i : Instr) (srcs : List Operand)
        (g : Num.Fmt → Num.Rnd → Nat → Nat → List Num.Val → Nat × Num.Exc) : Prop :=
      Spec.VarExc s i c (Spec.floatResult c w.fn srcs w.c g)
        ((Spec.floatLanes c w.fn srcs w.c g).map (fun e => (e.1, e.2.2)))
    fv (.fdiv w) [w.a, w.b] fdiv ∧ fv (.fsqrt w) [w.a] (ffunc 0x26) ∧ fv (.frcp w) [w.a] (ffunc 0x27) ∧
    fv (.frsq w) [w.a] (ffunc 0x28) ∧ fv (.fex2 w) [w.a] (ffunc 0x29) ∧ fv (.flg2 w) [w.a] (ffunc 0x2A) ∧
    fv (.fsinp w) [w.a] (ffunc 0x2B) ∧ fv (.fcosp w) [w.a] (ffunc 0x2C)

/-- The conversions, SRND, RAND, PACK and UNPK (05_isa_arithmetic.md R109 to R114). -/
def Obligations.Conversions : Prop :=
  ∀ s c (w : CForm),
    let dt := floatFmt (Spec.dtOf w)
    let cv (i : Instr) (bits : Nat) (g : Nat → Nat × Num.Exc) : Prop := Spec.FixedExc s i c 4 true (Spec.converted c bits g)
    Spec.Issued s (.cvti w) c (Spec.cvti w c) ∧
    cv (.cvtf w) (typeBits (Spec.dtOf w)) (fun l =>
      let v := Spec.srcFloat w c (w.mod.getLsbD 3) l
      Num.resultF dt (Spec.rndOf w c l) [v] v) ∧
    cv (.cvtif w) (typeBits (Spec.dtOf w)) (fun l =>
      Num.resultF dt (Spec.rndOf w c l) [] (Num.ofInt (c.rdInt (Spec.stOf w) w.a l) 0)) ∧
    cv (.cvtfi w) (typeBits (Spec.dtOf w)) (fun l =>
      Spec.cvtfiVal (Spec.dtOf w) (Spec.rndOf w c l) (Spec.srcFloat w c false l)) ∧
    cv (.cvtnEnc w) 32 (fun l => Num.encodeNF (Spec.nfReg w c) (modeNsat c.mode) (Spec.rndOf w c l).rm (Spec.rndOf w c l).rand
      (Spec.srcFloat w c false l)) ∧
    cv (.cvtnDec w) (typeBits (Spec.dtOf w)) (fun l =>
      let v := Num.decodeNF (Spec.nfReg w c) (c.rd32 w.a l)
      let e := if w.mod.getLsbD 16 then Num.scaleBy v (Num.scaleVal (c.rd32 w.b l % 2 ^ 16)) else (v, 0)
      ((Num.resultF dt (Spec.rndOf w c l) [e.1] e.1).1, e.2 ||| (Num.resultF dt (Spec.rndOf w c l) [e.1] e.1).2)) ∧
    cv (.cvtwFx w) 64 (fun l =>
      let q := Num.ontoGrid (c.rdFloat (Spec.dtOf w) w.a l) (w.mod.extractLsb' 8 8).toInt
      (q.1.toNat, q.2)) ∧
    cv (.cvtwFp w) (typeBits (Spec.dtOf w)) (fun l =>
      Num.drainF dt (Spec.rndOf w c l) (c.rd64 w.a l) (w.mod.extractLsb' 8 8).toInt) ∧
    cv (.srnd w) 32 (fun l => srnd (w.mod.extractLsb' 4 5).toNat (modeCnan c.mode) (c.rd32 w.b l)
      (Num.decodeF Num.f32 (c.rdF Num.f32 w.a l))) ∧
    Spec.Issued s (.rand w) c (c.fixed 4 true 0 (c.resultN 1 (fun l _ =>
      Spec.randWord (c.rd w.a 0 l) (c.rd w.b 0 l) (c.rd w.c 0 l)))) ∧
    cv (.pack w) 32 (Spec.packVal w c) ∧ cv (.unpk w) 32 (Spec.unpkVal w c)

/-- The comparisons and the instructions on predicates (06_isa_control.md R115 to R119), and S2V, FLAGS and PRIO (R126 to
R129). -/
def Obligations.PredicateAndStateInstructions : Prop :=
  ∀ s c (w : CForm),
    Spec.Issued s (.isetp w) c (Spec.isetp w c) ∧ Spec.FixedExc s (.fsetp w) c (fpLat w.fn) false (Spec.fsetp w c) ∧
    Spec.Issued s (.plop w) c (Spec.plop w c) ∧ Spec.Issued s (.pmovP2v w) c (Spec.pmovP2v w c) ∧
    Spec.Issued s (.pmovV2p w) c (Spec.pmovV2p w c) ∧
    Spec.Issued s (.s2v w) c (Spec.s2v w c) ∧ Spec.Issued s (.flagsRd w) c (Spec.flagsRd w c) ∧
    Spec.Issued s (.flagsClr w) c (Spec.flagsClr w c) ∧ Spec.Issued s (.prio w) c (Spec.prio w c)

/-- Exchange and reduction across lanes (06_isa_control.md R120 to R125). That WFRED.sr takes each lane's own random word is log
entry 17 (DEDUCED). -/
def Obligations.LaneInstructions : Prop :=
  ∀ s c (w : CForm),
    Spec.Issued s (.vote w) c (Spec.vote w c) ∧ Spec.Issued s (.shfl w) c (Spec.shfl w c) ∧
    Spec.Issued s (.wred w) c (Spec.wred w c) ∧ Spec.Issued s (.wscan w) c (Spec.wscan w c) ∧
    Spec.Issued s (.match w) c (Spec.matchR w c) ∧
    Spec.VarExc s (.wfred w) c (c.resultOf (fpBits w.fn) (Spec.wfred w c)) (Spec.wfredRaised w c)

/-- BRA, BRX, LOOP, CALL, RET, RCV and EXIT (06_isa_control.md R130 to R138): where each PC slot goes, and what the
reconvergence stack then holds. BKPT, TRAP and HALT (R139, 18_traps.md R345, R347): a precise stop when a lane is admitted, with
BKPT's or TRAP's X in the frame; and nothing when none is. Two clauses rest on the model's reading: a target that is not taken and a
reconvergence point that is not pushed go unchecked (log entry 18), and RHDR of an overflowing CALL is its target while that of
the others is Next (log entry 14). -/
def Obligations.ControlInstructions : Prop :=
  ∀ s c (z : ZForm) (w : CForm) (v : IForm) (t : TForm),
    (∀ e, Spec.Push c e) ∧ Spec.Fill c ∧ Spec.Bra s t c ∧ Spec.Brx s w c ∧ Spec.Loop s v c ∧ Spec.Call s t c ∧ Spec.Ret s z c ∧ Spec.Rcv s z c ∧ Spec.Exit s z c ∧
    (Issues s (.ret z) c → Spec.RetPops s z c) ∧ (Issues s (.rcv z) c → Spec.RcvPops s z c) ∧
    Spec.TrapCode s (.bkpt v) 0x0A v.imm c ∧ Spec.TrapCode s (.trap v) 0x0B v.imm c ∧ Spec.Halt s z c

/-- Loads, stores, prefetches, CMNT and FENCE as they issue (07_core_memory.md R149 to R163); an access that fails its checks
is in flight with its fault (R170). Three clauses rest on the model's reading: OPF's map is recorded even where an SBR skips it, and a
FENCE without lanes does nothing (log entry 20); an acquiring load invalidates before its own read (log entry 53); and CMNT acts as it
issues, before the warp's earlier queued stores have performed (log entry 89). -/
def Obligations.MemoryInstructions : Prop :=
  ∀ s c (w : CForm),
    Spec.Ld s w c ∧ Spec.LdOwn s w c ∧ Spec.LdGlobal s w c ∧ Spec.St s w c ∧ Spec.MemFault s (.ld w) w c .read ∧ Spec.MemFault s (.st w) w c .write ∧
    Spec.Prf s w c ∧ Spec.Opf s w c ∧ Spec.Cmnt s w c ∧ Spec.Acts s (.fence w) c (Spec.fence w c)

/-- The atomics as they issue (07_core_memory.md R164 to R168). -/
def Obligations.Atomics : Prop :=
  ∀ s c (w : CForm), ∀ i ∈ [Instr.axch w, .acas w, .aadd w, .amnmx w, .alop w, .agadd w, .ainc w], Spec.Atomic s i w c

/-- The field unit's instructions as they issue (08_field_unit.md R188 to R191). That the source registers are read at issue is the
model's choice (log entry 25); R191 lets the unit read them as it works. -/
def Obligations.FieldInstructions : Prop :=
  ∀ s c (w : CForm),
    let x := Spec.floatRun c w.a (Spec.axes w)
    Spec.Acts s (.fbind w) c (Spec.fieldOp (.fbind w) (c.capture w.a 2) [] c) ∧
    Spec.Acts s (.fld w) c (Spec.fieldOp (.fld w) x [] c) ∧ Spec.Acts s (.fldg w) c (Spec.fieldOp (.fldg w) x [] c) ∧
    Spec.Acts s (.fwt w) c (Spec.fieldOp (.fwt w) x (c.capture w.b 1) c) ∧
    Spec.Acts s (.fst w) c (Spec.splatOp (.fst w) w (Spec.chans w) c) ∧
    Spec.Acts s (.fstg w) c (Spec.splatOp (.fstg w) w (Spec.chans w * Spec.axes w) c) ∧
    Spec.Acts s (.fdrn w) c (Spec.fieldBulk (.fdrn w) c) ∧ Spec.Acts s (.fclr w) c (Spec.fieldBulk (.fclr w) c)

/-- The matrix engine's instructions as they issue (10_matrix.md R201, R209, R222): each joins the open .mx batch and enters
the engine's queue with its operands as they stood. That the A tile and GANG's mask are taken as they stand at issue is the model's
choice (log entry 25); R209 lets the engine read A until the flag completes. -/
def Obligations.MatrixInstructions : Prop :=
  ∀ s c (w : CForm),
    let op (i : Instr) (a b x : FMap 32) : Prop := Spec.Acts s i c (Spec.matrixOp i a b x c)
    op (.gang w) (c.capture w.a 2) [] [] ∧ op (.mma w) c.tileA (c.capture w.b 1) (c.capture w.c 2) ∧
    op (.mldb w) (c.capture w.a 2) (c.capture w.b 1) (c.capture w.c 1) ∧
    op (.mldc w) (c.capture w.a 2) (c.capture w.b 1) (c.capture w.c 1) ∧ op (.mclr w) (c.capture w.a 1) (c.capture w.b 1) [] ∧
    op (.mdrn w) [] [] (c.capture w.c 4) ∧ op (.mstp w) (c.capture w.a 2) (c.capture w.b 1) (c.capture w.c 4) ∧
    op (.mperm w) (c.capture w.a 1) (c.capture w.b 2) [] ∧ op (.mred w) (c.capture w.a 1) (c.capture w.b 1) [] ∧
    op (.mtrn w) (c.capture w.a 1) [] [] ∧ op (.mhist w) [] [] []

/-- CPY, CPYB, BCLOSE and BWAIT (11_async_armature.md R228 to R235). -/
def Obligations.CopiesAndBatches : Prop :=
  ∀ s c (w : CForm),
    Spec.Cpy s w c ∧ Spec.Cpyb s w c ∧ Spec.Acts s (.bclose w) c (Spec.bclose w c) ∧ Spec.Bwait s w c

/-- Barriers, SLEEP and WAKE as they issue (11_async_armature.md R237 to R242). -/
def Obligations.BarrierInstructions : Prop :=
  ∀ s c (w : CForm),
    Spec.Acts s (.barArrive w) c (Spec.barOp (.barArrive w) w 1 0 c) ∧ Spec.Acts s (.barWait w) c (Spec.barOp (.barWait w) w 1 1 c) ∧
    Spec.Acts s (.barSync w) c (Spec.barOp (.barSync w) w 1 0 c) ∧ Spec.Acts s (.barx w) c (Spec.barOp (.barx w) w 1 1 c) ∧
    Spec.Acts s (.cbarArrive w) c (Spec.barOp (.cbarArrive w) w 2 0 c) ∧
    Spec.Acts s (.cbarWait w) c (Spec.barOp (.cbarWait w) w 2 1 c) ∧
    Spec.Acts s (.cbarSync w) c (Spec.barOp (.cbarSync w) w 2 0 c) ∧ Spec.Sleep s w c ∧
    Spec.Acts s (.wake w) c (Spec.wake w c)

/-- The armature's instructions (11_async_armature.md R244 to R251): what each writes, of result cycle issue + 1, and where it
traps. -/
def Obligations.ArmatureInstructions : Prop :=
  ∀ s c (w : CForm),
    let d := Spec.sNo w.d
    let one (i : Instr) (x : Word) : Prop := Spec.ArmOwned s i c d 1 [.sreg d x]
    let base := (w.mod.extractLsb' 0 6).toNat
    let n := (w.mod.extractLsb' 6 7).toNat
    let a := c.rd w.a 0 c.lane
    let b := c.rd w.b 0 c.lane
    one (.smov w) (Spec.smov w c) ∧ one (.salu w) (Spec.salu w c) ∧ one (.ssetp w) (Spec.ssetp w c) ∧ one (.v2s w) a ∧
    one (.lsclRd w) c.cl.arm.ls ∧ one (.ovftRd w) (c.cl.arm.ovf.zeroExtend 32) ∧
    Spec.ArmOwned s (.shpwMk w) c d 2 [.sreg d (Spec.shpwMk w c).1, .sreg (d + 1) (Spec.shpwMk w c).2] ∧
    Spec.ArmOwned s (.lsclUpd w) c d 1 [.scale (Spec.lsclUpd w c).1 (Spec.lsclUpd w c).2, .sreg d (Spec.lsclUpd w c).1] ∧
    Spec.ArmOwned s (.sclaimRel w) c base n [.own base n none] ∧ Spec.Claim s w c ∧
    Spec.ArmValue s (.shpwWr w) c (5 ≤ (b.extractLsb' 16 3).toNat) [.shape (w.mod.extractLsb' 0 4).toNat a b] ∧
    Spec.ArmValue s (.lsclSet w) c (Spec.notNormal a) [.scale a 0] ∧
    Spec.Acts s (.ovftClr w) c (Spec.armWrites c [.ovfClr (w.mod.extractLsb' 0 5)]) ∧ Spec.Acts s (.sbr w) c (Spec.sbr w c) ∧
    Spec.Sld s w c ∧ Spec.Sst s w c

/-- The gossip instructions and COLL as they issue (21_fabric.md R365, R368, R380 to R386); a GSYNC that names no flag waits for
nothing. -/
def Obligations.FabricInstructions : Prop :=
  ∀ s c (w : CForm),
    let op (i : Instr) : Prop := Spec.Acts s i c (Spec.gossipOp i (c.capture w.a 2) w c)
    Spec.Acts s (.gadd w) c (Spec.gossipOp (.gadd w) (Spec.floatLanesOf c w.a) w c) ∧ op (.grd w) ∧ op (.gsprd w) ∧
    Spec.Acts s (.gsync w) c (if c.flagNo = none then c else Spec.gossipOp (.gsync w) (c.capture w.a 2) w c) ∧
    op (.gctlStart w) ∧
    Spec.Acts s (.gctlStop w) c (Spec.gossipOp (.gctlStop w) (c.capture w.a 2) w { c with m := Spec.unbindSlot w c }) ∧ op (.gctlRate w) ∧ op (.gctlStep w) ∧ op (.gmass w) ∧
    Spec.Acts s (.coll w) c (Spec.collOp w c)

/-- MQCHK, SHASH, SYSR, SYSW, CTXSV and ERET (17_package.md R332, R333, 18_traps.md R346 to R349). That an ERET which an SBR skips
falls through is log entry 39 (DEDUCED). -/
def Obligations.SystemInstructions : Prop :=
  ∀ s c (w : CForm) (z : ZForm),
    Spec.Mqchk s w c ∧ Spec.Shash s (.shashSet w) c (c.rd w.a 0 c.lane) ∧ Spec.Shash s (.shashClr w) c 0 ∧ Spec.Sysr s w c ∧
    Spec.Sysw s w c ∧ Spec.Acts s (.ctxsvSave w) c (Spec.ctxsv (.ctxsvSave w) w c) ∧
    Spec.Acts s (.ctxsvRest w) c (Spec.ctxsv (.ctxsvRest w) w c) ∧ Spec.Eret s z c

/-! ### Instructions: what each leaves alone -/

/-- An instruction whose only effect is a result in D or in predicates changes nothing else: no other register of its warp, no
other predicate, no other bit of FLAGS, no other warp, and not a byte of memory. -/
def Obligations.RegisterFrames : Prop :=
  ∀ s i c t, Spec.RegisterOnly i → openCx i s = some c → exec i s = .next t → Spec.RegisterFrame s c t

/-- An instruction that starts an operation leaves the registers, predicates, FLAGS and latches of its warp and everything
outside it to the operation's completion. GCTL.stop does so too, but that under .unb its slot is unbinding from its issue on
(21_fabric.md R385). -/
def Obligations.StartFrames : Prop :=
  (∀ s i c t, Spec.Starts i → openCx i s = some c → exec i s = .next t → Spec.StartFrame s s.m c t) ∧
  ∀ s w c t, openCx (.gctlStop w) s = some c → exec (.gctlStop w) s = .next t →
    ∃ m, (m = s.m ∨ m = Spec.unbindSlot w c) ∧ (w.mod.getLsbD 7 = false → m = s.m) ∧ Spec.StartFrame s m c t

/-- No instruction word changes a byte of memory as it issues, nor a partition, a link or the boot state: a store's bytes come to
memory when its queue entry performs (07_core_memory.md R155). Of CMNT and SYSW, which may write dirty lines back, this holds
where no data is uncorrectable (16_die.md R302). Of BRA and CALL it holds while their pushes fit the on-chip stack; a push onto a
full one writes the 16 bytes of the entry that it spills, and no other (02_warp_state.md R22): at the end of the spill area as the
branch finds it, and, where a live other slot has been parked before, as that push has left it. -/
def Obligations.IssuesLeaveMemory : Prop :=
  (∀ s i t, i.fields.isSome = true → (∀ w, i ≠ .bra w ∧ i ≠ .call w) → (s.m.bad = [] ∨ ∀ w, i ≠ .cmnt w ∧ i ≠ .sysw w) →
    exec i s = .next t → Spec.SameOutside s.m t.m) ∧
  ∀ s i c t, (∃ w, i = .bra w ∨ i = .call w) → openCx i s = some c → exec i s = .next t →
    (c.w.stack.length < 31 → Spec.SameOutside s.m t.m) ∧
    ∀ a, (∀ ks, Spec.spillPlaces c = .ok ks → a ∉ ks) →
      (∀ d ks, (c.w.slot (1 - c.cl.slot)).mask ≠ 0 → c.push (Spec.parked c) = .ok d → Spec.spillPlaces d = .ok ks → a ∉ ks) →
      t.m.mem.get a = s.m.mem.get a

/-- A store that performs changes the bytes that its lanes hold and no other (07_core_memory.md R155, R156): every address
outside them reads as before. -/
def Obligations.StoreFrame : Prop :=
  ∀ (s t : State) b w blk x q acc, s.m.warp b w = some (blk, x) → x.queueHead = some q → q.kind = .store acc → q.space = .g →
    exec (.storePerform b w) s = .next t → ∀ k, (∀ a ∈ acc, k ∉ a.keys) → t.m.mem.get k = s.m.mem.get k

/-! ### Events -/

/-- What the scheduler does to packs and warps (12_core_scheduling.md R258 to R265, 03_encoding.md R57). -/
def Obligations.SchedulingEvents : Prop :=
  ∀ s b w core slot p,
    Spec.WarpUrgent s b w ∧ Spec.PackEnter s core slot ∧ Spec.Deschedule s core slot p ∧ Spec.ClauseStart s core slot

/-- Operations complete or fault; stores and atomics perform; a replay's gate admits; lines and translations come and go
(02_warp_state.md R23, R24, 07_core_memory.md R152 to R167, 16_die.md R289 to R296, 17_package.md R330). FENCE, barriers, WAKE, SLD,
the loads of the field unit, the gossip instructions and CTXSV act and complete at their turn (07_core_memory.md R161,
11_async_armature.md R237 to R248, 08_field_unit.md R176 to R189, 21_fabric.md R381 to R386, 18_traps.md R349). That an entry of zero
weight is no term of a field sum is the model's choice (log entry 75); so is when a GADD's terms are added (log entry 45). -/
def Obligations.OperationEvents : Prop :=
  ∀ s b w op slice line core ctx va acc,
    Spec.VarComplete s b w op ∧ Spec.OperationFault s b w op ∧ Spec.StorePerform s b w ∧ Spec.AtomicGroup s b w slice ∧
    Spec.MqGateAdmit s b w slice ∧ Spec.L2Evict s line ∧ Spec.PageWalk s core ctx va acc ∧
    Spec.FenceTurn s b w op ∧ Spec.BarTurn s b w op ∧ Spec.BarMet s b w op ∧ Spec.WakeTurn s b w op ∧ Spec.SldTurn s b w op ∧
    Spec.FbindTurn s b w op ∧ Spec.FieldLoadTurn s b w op ∧ Spec.GaddTurn s b w op ∧ Spec.GossipReads s b w op ∧
    Spec.GossipControls s b w op ∧ Spec.CtxsvTurn s b w op

/-- The field unit, the matrix engine, copies, waits, sleeps and batches go on (08_field_unit.md R186, 10_matrix.md R202, R212,
11_async_armature.md R229 to R241); what an MMA leaves in its tile (10_matrix.md R205 to R207). The model's choices among the clauses: a
batch retires over an operation at a translation fault, which keeps its batch (log entry 36); an axis of zero G brings no term to a
splat, and the order of its NaNs (log entry 75); a matrix fault that is passed on keeps its FADDR, with its own IADDR (log entry 32); and
an accumulator element that FTZ reads as zero (log entry 72). -/
def Obligations.EngineEvents : Prop :=
  ∀ s b w op piece cls mask,
    Spec.FieldPair s b w ∧ Spec.MmaEngineEntry s b w ∧ Spec.GangRendezvous s b mask ∧ Spec.GangBroken s b mask ∧
    Spec.CopyPieceLand s b w op piece ∧ Spec.WaitPollTimer s b w op ∧ Spec.SleepTimeout s b w op ∧ Spec.SleepComplete s b w op ∧
    Spec.BatchRetire s b w cls ∧ ∀ la blk o f x y z fb, Spec.MmaSum la blk o f x y z fb

/-- Block transfers finish, leave their records, arrive and find no route (11_async_armature.md R235, R236, 21_fabric.md R363). That a
context which is being killed (STATE 5) refuses an arriving transfer is log entry 70 (DEDUCED). -/
def Obligations.TransferEvents : Prop :=
  ∀ s n far x, Spec.CpybFinish s n far ∧ Spec.CpybRecord s n ∧ Spec.RemoteCpybArrive s x ∧ Spec.CpybNoRoute s n

/-- How a block stops, how a warp enters its handler, and how the block goes on or is killed (12_core_scheduling.md R269, R270,
18_traps.md R337 to R346). The handler mask of a warp that has ended, and the kill with the primary cause where a cause that is not
primary has route K or H, are the model's choice (log entry 55). -/
def Obligations.StopEvents : Prop :=
  ∀ s b w, Spec.WarpStop s b w ∧ Spec.HaltBroadcast s b ∧ Spec.WarpSlotFree s b w ∧ Spec.HandlerEntry s b w ∧
    Spec.BlockResume s b ∧ Spec.FaultTimeout s b

/-- The host reaches memory, doorbells and rings; packets are fetched and records written (17_package.md R304 to R314). -/
def Obligations.TransportEvents : Prop :=
  ∀ s key off len data wc r n,
    Spec.RmaWrite s key off data ∧ Spec.RmaRead s key off len ∧ Spec.UeAtomic s key off ∧ Spec.DoorbellWrite s key off wc ∧
    Spec.PacketFetch s r ∧ Spec.CompletionRecord s r ∧ Spec.HostRmaCompletion s n data

/-- Packets of a context's ring, and the placing and the end of a launch (17_package.md R308, R311, R312, R326,
12_core_scheduling.md R255). The order among several reasons that refuse a launch (log entry 64), and that every launch of an object
checks its digest (log entry 87), are the model's choice. -/
def Obligations.LaunchEvents : Prop :=
  ∀ s ctx n, Spec.LaunchPacket s ctx ∧ Spec.TlbPacket s ctx ∧ Spec.CodeMap s ctx ∧ Spec.CodeScan s ctx ∧ Spec.CodeUnmap s ctx ∧ Spec.BlockPlace s n ∧
    Spec.LaunchComplete s n

/-- The administrative commands (17_package.md R315, R335, R336, 01_device.md R13). The order and layout of ATTEST's report, and reason 10
for a misaligned TLBINV, for E above 256 and for P above 15, are the model's choice (log entry 66); so is that a KILL of a context
that does not exist ends with STATUS 0, which no rule gives (log entry 66). -/
def Obligations.AdministrativeCommands : Prop :=
  ∀ s p, Spec.PartSet s ∧ Spec.PartClear s ∧ Spec.Zeroisation s p ∧ Spec.CtxSet s ∧ Spec.RunlistWrite s ∧ Spec.RingRestart s ∧
    Spec.KillCommand s ∧ Spec.Tlbinv s ∧ Spec.FwLoad s ∧ Spec.Attest s ∧ Spec.McReset s

/-- Slices, pre-emption, saving, restoring and killing (17_package.md R316 to R324). -/
def Obligations.PreemptionEvents : Prop :=
  ∀ s ctx die engine,
    Spec.SoftRequest s.m s.now ctx ∧ Spec.SliceExpiry s ctx ∧ Spec.HigherClassReady s ctx ∧ Spec.GraceExpiry s ctx die ∧
    Spec.KilltExpiry s ctx die ∧ Spec.ContextSave s ctx ∧ Spec.ContextRestore s ctx ∧ Spec.EngineDrained s ctx engine ∧
    Spec.KillComplete s ctx

/-- Errors of memories and their scrubbing (15_cluster.md R284, 16_die.md R300 to R303). Which lines an L1 tag error drops is
the model's reading (DEDUCED, log entry 68). -/
def Obligations.ErrorEvents : Prop :=
  ∀ s die ctx core line tag,
    Spec.SoftError s die ∧ Spec.Uncorrectable s ctx ∧ Spec.L1TagError s core line tag ∧ Spec.L2Error s line tag ∧ Spec.Scrub s line

/-- Power, boot, reset, current and temperature (23_physical.md R394 to R400). That a POWER_OFF with all five rails loses the state, and
that a sample carries the junction temperature, are the model's (log entry 49); so is when the first rail starts (log entry 82). -/
def Obligations.PowerEvents : Prop :=
  ∀ s die amps tj digest sig pkg,
    Spec.PowerOn s ∧ Spec.RailTimeout s ∧ Spec.PowerOff s ∧ Spec.BootStage s digest sig pkg ∧ Spec.Reset s ∧
    Spec.CurrentSample s die amps tj ∧ Spec.JunctionAt105 s die ∧ Spec.ThermalSustained s die ∧ Spec.JunctionBelow100 s die tj ∧
    Spec.ThermalShutdown s die

/-- Flits, links, rates and collectives (21_fabric.md R360 to R369). That an abort leaves memory as it was (log entry 46; R369 allows
either), and how an idle link goes down (log entry 79), are the model's choice. -/
def Obligations.FabricEvents : Prop :=
  ∀ s link seq crc far ctl b w op others,
    Spec.FlitReceive s link seq crc ∧ Spec.LinkTurns s link far ∧ Spec.CongestionMark s ctl ∧ Spec.RateRecovery s ctl ∧
    Spec.CollInstanceRun s b w op others ∧ Spec.CollAbort s b w op

/-- Gossip (21_fabric.md R373, R374, R379): what a region sends, receives, enquires after and learns, and that the counters
account for every message. -/
def Obligations.GossipEvents : Prop :=
  ∀ s ctx rgn c j x n,
    Spec.FreeRunTick s ctx rgn ∧ Spec.GossipSnapshot s ctx rgn c j ∧ Spec.GossipArrive s x ∧ Spec.GossipEnquiry s n ∧
    Spec.GossipLearned s n
end

