-- ==== Sys2Proof/Laws/Encoding.lean ====
section
/-! SUPPORT. The fields of a word read back from it and make it again; and so do operands, hints and the X kinds
(03_encoding.md R45 to R54). -/
namespace Sys2Proof

@[simp] theorem bit1_ofBit (b : Bool) : bit1 (ofBit b) = b := by cases b <;> rfl
@[simp] theorem ofBit_bit1 (x : BitVec 1) : ofBit (bit1 x) = x := by revert x; decide

/-- An operand reads back from its field. -/
@[simp] theorem operandOf_operandBits (o : Operand) : operandOf (operandBits o) = .ok o := by
  cases o with
  | v n => revert n; decide +kernel
  | b n => revert n; decide +kernel
  | h n => revert n; decide +kernel
  | s n => revert n; decide +kernel
  | special n => revert n; decide +kernel
  | const n => revert n; decide +kernel

@[simp] theorem operandOr_operandBits (o : Operand) : operandOr (operandBits o) = o := by simp [operandOr]

/-- A field that names an operand is the field of that operand. -/
theorem operandBits_of_ok {x : BitVec 12} {o : Operand} (h : operandOf x = .ok o) : operandBits o = x := by
  have all : ∀ x : BitVec 12, (match operandOf x with | .ok o => decide (operandBits o = x) | .error _ => true) = true := by
    decide +kernel
  have hx := all x
  rw [h] at hx
  exact of_decide_eq_true hx

/-- A hint reads back from its field. -/
@[simp] theorem hintOf_hintBits (h : Hint) : hintOf (hintBits h) = h := by
  obtain ⟨y, st, ka, kb, kc, wt⟩ := h
  revert y st ka kb kc wt
  decide +kernel

/-- A hint field whose low four bits are zero is the field of what it reads as. -/
theorem hintBits_hintOf {x : BitVec 12} (h : x.extractLsb' 0 4 = 0#4) : hintBits (hintOf x) = x := by
  revert x; decide +kernel

section
variable {n m : Nat} (x : BitVec n) (y : BitVec m)

/-- Bits of the low part of a word. -/
theorem extractLsb'_append_low (k l : Nat) (h : k + l ≤ m) : BitVec.extractLsb' k l (x ++ y) = y.extractLsb' k l := by
  apply BitVec.eq_of_getLsbD_eq; intro i hi
  simp [BitVec.getLsbD_append, show k + i < m by omega]

/-- Bits of the high part of a word. -/
theorem extractLsb'_append_high (k l : Nat) (h : m ≤ k) : BitVec.extractLsb' k l (x ++ y) = x.extractLsb' (k - m) l := by
  apply BitVec.eq_of_getLsbD_eq; intro i hi
  simp [BitVec.getLsbD_append, show ¬k + i < m by omega, show k + i - m = k - m + i by omega]
end

/-- The fields of a word that is made of fields. -/
@[simp] theorem split_join (r : Raw) : Raw.split (Raw.join r) = r := by
  cases r
  simp only [Raw.split, Raw.join, Raw.mk.injEq]
  refine ⟨?_, ?_, ?_, ?_, ?_, ?_, ?_, ?_, ?_⟩
  all_goals repeat first
    | exact BitVec.extractLsb'_eq_self
    | refine (extractLsb'_append_high _ _ _ _ (by decide)).trans ?_
    | refine (extractLsb'_append_low _ _ _ _ (by decide)).trans ?_

/-- A word is made of its fields. -/
@[simp] theorem join_split (w : IWord) : Raw.join (Raw.split w) = w := by
  simp only [Raw.split, Raw.join]
  apply BitVec.eq_of_getLsbD_eq; intro i hi
  iterate 8
    refine (BitVec.getLsbD_append).trans ?_
    split
    · first
      | (simp only [BitVec.getLsbD_extractLsb', *, decide_true, Bool.true_and, Nat.zero_add]; done)
      | (simp only [BitVec.getLsbD_extractLsb', *, decide_true, Bool.true_and]; congr 1; omega)
  rw [BitVec.getLsbD_extractLsb', show decide _ = true from decide_eq_true (by omega), Bool.true_and]
  congr 1; omega

/-! ### The X kinds -/

@[simp] theorem CForm.raw_op (w : CForm) (op : BitVec 8) : (w.raw op).op = op := rfl
@[simp] theorem CForm.raw_fn (w : CForm) (op : BitVec 8) : (w.raw op).fn = w.fn := rfl
@[simp] theorem IForm.raw_op (w : IForm) (op : BitVec 8) : (w.raw op).op = op := rfl
@[simp] theorem IForm.raw_fn (w : IForm) (op : BitVec 8) : (w.raw op).fn = w.fn := rfl
@[simp] theorem TForm.raw_op (w : TForm) (op : BitVec 8) : (w.raw op).op = op := rfl
@[simp] theorem TForm.raw_fn (w : TForm) (op : BitVec 8) : (w.raw op).fn = 0#4 := rfl
@[simp] theorem ZForm.raw_op (w : ZForm) (op : BitVec 8) : (w.raw op).op = op := rfl
@[simp] theorem ZForm.raw_fn (w : ZForm) (op : BitVec 8) : (w.raw op).fn = 0#4 := rfl

/-- MOD stands in X[19:0]. -/
@[simp] theorem CForm.raw_mod (w : CForm) (op : BitVec 8) : (w.raw op).x.extractLsb' 0 20 = w.mod :=
  (extractLsb'_append_low _ _ _ _ (by decide)).trans BitVec.extractLsb'_eq_self

/-- C stands in X[31:20]. -/
@[simp] theorem CForm.raw_c12 (w : CForm) (op : BitVec 8) : (w.raw op).x.extractLsb' 20 12 = operandBits w.c :=
  (extractLsb'_append_high _ _ _ _ (by decide)).trans BitVec.extractLsb'_eq_self

/-- The low bits of X are those of MOD. -/
theorem CForm.raw_low (w : CForm) (op : BitVec 8) (k l : Nat) (h : k + l ≤ 20) :
    (w.raw op).x.extractLsb' k l = w.mod.extractLsb' k l := extractLsb'_append_low _ _ _ _ h

theorem CForm.raw_bit (w : CForm) (op : BitVec 8) (k : Nat) (h : k < 20) : (w.raw op).x.getLsbD k = w.mod.getLsbD k := by
  refine (BitVec.getLsbD_append).trans ?_
  rw [if_pos h]

theorem guard_raw (g : Guard) : ({ neg := bit1 (ofBit g.neg), p := g.p } : Guard) = g := by simp

@[simp] theorem CForm.raw_form (w : CForm) (op : BitVec 8) : (w.raw op).c = w := by
  have hm := w.raw_mod op
  have hc := w.raw_c12 op
  simp only [Raw.c, hm, hc, operandOr_operandBits]
  simp [CForm.raw, Raw.guard]

@[simp] theorem IForm.raw_form (w : IForm) (op : BitVec 8) : (w.raw op).i = w := by simp [Raw.i, IForm.raw, Raw.guard]
@[simp] theorem ZForm.raw_form (w : ZForm) (op : BitVec 8) : (w.raw op).z = w := by simp [Raw.z, ZForm.raw, Raw.guard]

/-- A target is the join of its three fields. -/
theorem target_fields (t : BitVec 36) : t.extractLsb' 24 12 ++ t.extractLsb' 12 12 ++ t.extractLsb' 0 12 = t := by
  apply BitVec.eq_of_getLsbD_eq; intro i hi
  iterate 2
    refine (BitVec.getLsbD_append).trans ?_
    split
    · first
      | (simp only [BitVec.getLsbD_extractLsb', *, decide_true, Bool.true_and, Nat.zero_add]; done)
      | (simp only [BitVec.getLsbD_extractLsb', *, decide_true, Bool.true_and]; congr 1; omega)
  rw [BitVec.getLsbD_extractLsb', show decide _ = true from decide_eq_true (by omega), Bool.true_and]
  congr 1; omega

@[simp] theorem TForm.raw_form (w : TForm) (op : BitVec 8) : (w.raw op).t = w := by
  simp only [Raw.t, TForm.raw, Raw.guard, target_fields, bit1_ofBit, hintOf_hintBits]

/-! ### Well-formed words -/

/-- What well-formedness asks (R48 to R61). -/
theorem wf_iff (i : Instr) : i.wf = true ↔ i.fnOk = true ∧ i.mbzOk = true ∧ i.levelsOk = true ∧ i.hintOk = true := by
  unfold Instr.wf Instr.reject
  cases i.fnOk <;> cases i.mbzOk <;> cases i.levelsOk <;> cases i.hintOk <;> simp

/-- An instruction of one FN value holds it. -/
theorem fn_of_wf {i : Instr} {op n : Nat} {f : Fields} (h : i.wf = true) (ho : i.op = some (op, [n])) (hf : i.fields = some f) :
    f.fn = BitVec.ofNat 4 n := by
  have h := ((wf_iff i).mp h).1
  simp only [Instr.fnOk, ho, hf, List.contains_cons, List.contains_nil, Bool.or_false, beq_iff_eq] at h
  rw [← h]; simp

/-- A shape's own check on MOD holds of a well-formed word. -/
theorem shape_ok_of_wf {i : Instr} {sh : Shape} {f : Fields} (h : i.wf = true) (hs : i.shape = some sh) (hf : i.fields = some f) :
    sh.ok = true ∧ f.mod &&& ~~~sh.mask = 0 := by
  have h := ((wf_iff i).mp h).2.1
  simp only [Instr.mbzOk, hs, hf, Bool.and_eq_true, decide_eq_true_eq] at h
  exact ⟨h.1.2, h.1.1.1.2⟩

/-- An event of the part has no word. -/
theorem not_wf_of_no_op {i : Instr} (h : i.op = none) : i.wf = false := by
  simp [Instr.wf, Instr.reject, Instr.fnOk, h]

end Sys2Proof
end

