-- ==== Sys2Proof/Laws/Issue.lean ====
section
/-! SUPPORT. What an issue does, said once: what `openCx` gives the instruction to see, and the outcome of `issue` when the
effect is carried out, when it traps, and when no warp stands inside a clause. -/
namespace Sys2Proof.Machine
open Sys2Proof

/-- What an instruction at issue sees. -/
theorem openCx_spec {i : Instr} {s : State} {c : Cx} (h : openCx i s = some c) :
    s.m.focus = some (c.bid, c.wid) ∧ i.fields = some c.f ∧ i.shape = some c.sh ∧ c.i = i ∧ c.caps = s.caps ∧ c.m = s.m ∧
      c.la = s.m.launchOf c.blk ∧ c.ctl = false ∧ c.skipped = (c.cl.skip != 0) ∧
      c.t = max s.now (c.cl.next + bankCost (bankRegs c.sh c.f)) ∧
      c.adm = (if c.skipped then 0 else (c.w.slot c.cl.slot).mask &&& c.w.guardMask c.f.g) ∧
      ∃ x, s.m.warp c.bid c.wid = some (c.blk, x) ∧ x.clause = some c.cl ∧ x.stop = none ∧ c.w = x.settle c.t := by
  unfold openCx at h
  split at h
  · rename_i b w f sh hf hfi hsh
    split at h
    · cases h
    · rename_i blk x hw
      split at h
      · rename_i cl hcl hst
        cases h
        exact ⟨hf, hfi, hsh, rfl, rfl, rfl, rfl, rfl, rfl, rfl, rfl, x, hw, hcl, hst, rfl⟩
      · cases h
  · cases h

/-- An issue whose effect is carried out. -/
theorem issue_after {i : Instr} {s : State} {c d : Cx} {act : Act} (h : Issues s i c) (ha : act c = .ok d) :
    issue i act s = .next (After s c d) := by
  obtain ⟨-, ho, hu, hd⟩ := h
  simp only [issue, issueState, ho, Option.map_some, outcome, After, Cx.run, Cx.guarded, hu, hd, ha, Bool.false_eq_true, if_false]

/-- An issue whose effect traps. -/
theorem issue_trap {i : Instr} {s : State} {c : Cx} {tr : Trap} {act : Act} (h : Issues s i c) (ha : act c = .error tr) :
    issue i act s = .next (AfterTrap s c tr) := by
  obtain ⟨-, ho, hu, hd⟩ := h
  simp only [issue, issueState, ho, Option.map_some, outcome, AfterTrap, Cx.run, Cx.guarded, hu, hd, ha, Bool.false_eq_true, if_false]

/-- An issue of an instruction whose unit is absent traps with UNIT_ABSENT (00_scope.md R3). -/
theorem issue_absent {i : Instr} {s : State} {c : Cx} {act : Act} (ho : openCx i s = some c) (hu : c.unitAbsent = true) :
    issue i act s = .next (AfterTrap s c (Trap.of 0x0C)) := by
  simp only [issue, issueState, ho, Option.map_some, outcome, AfterTrap, Cx.run, Cx.guarded, hu, if_true]

/-- With no warp inside a clause there is no issue. -/
theorem issue_none {i : Instr} {s : State} {act : Act} (ho : openCx i s = none) : issue i act s = .fault .noWarpAtIssue := by
  simp only [issue, issueState, ho, Option.map_none, outcome]

/-- Every outcome of an issue: a next state that keeps CAPS and does not turn the clock back, or the fault. -/
theorem issue_cases (i : Instr) (act : Act) (s : State) :
    (∃ t m, issue i act s = .next (s.lift t m)) ∨ issue i act s = .fault .noWarpAtIssue := by
  cases ho : openCx i s with
  | none => exact .inr (issue_none ho)
  | some c => exact .inl ⟨c.t, (c.run act).flush, by simp only [issue, issueState, ho, Option.map_some, outcome]⟩

/-- Every outcome of an event of the part. -/
theorem event_cases (s : State) (r : Option (Nat × Mach)) :
    (∃ t m, r = some (t, m) ∧ event s r = .next (s.lift t m)) ∨ (r = none ∧ event s r = .fault .notEnabled) := by
  cases r with
  | none => exact .inr ⟨rfl, rfl⟩
  | some e => exact .inl ⟨e.1, e.2, rfl, rfl⟩

end Sys2Proof.Machine
end

