-- ==== Sys2Proof/Laws/State.lean ====
section
/-! SUPPORT. What each update of a record leaves in each of its fields. -/
namespace Sys2Proof.Machine
open Sys2Proof

/-! ### State.lift -/

@[simp] theorem State.lift_caps (s : State) (t : Nat) (m : Mach) : (s.lift t m).caps = s.caps := rfl
@[simp] theorem State.lift_now (s : State) (t : Nat) (m : Mach) : (s.lift t m).now = max s.now t := rfl
@[simp] theorem State.lift_m (s : State) (t : Nat) (m : Mach) : (s.lift t m).m = m := rfl

/-! ### State.unfocus -/

@[simp] theorem State.unfocus_caps (s : State) : s.unfocus.caps = s.caps := rfl
@[simp] theorem State.unfocus_now (s : State) : s.unfocus.now = s.now := rfl

/-! ### State.focusOn -/

@[simp] theorem State.focusOn_caps (s : State) (b w : Nat) : (s.focusOn b w).caps = s.caps := rfl
@[simp] theorem State.focusOn_now (s : State) (b w : Nat) : (s.focusOn b w).now = s.now := rfl

/-! ### Mach.setBlock -/

@[simp] theorem Mach.setBlock_mem (s : Mach) (b : Nat) (x : Block) : (s.setBlock b x).mem = s.mem := rfl
@[simp] theorem Mach.setBlock_dirty (s : Mach) (b : Nat) (x : Block) : (s.setBlock b x).dirty = s.dirty := rfl
@[simp] theorem Mach.setBlock_bad (s : Mach) (b : Nat) (x : Block) : (s.setBlock b x).bad = s.bad := rfl
@[simp] theorem Mach.setBlock_badL2 (s : Mach) (b : Nat) (x : Block) : (s.setBlock b x).badL2 = s.badL2 := rfl
@[simp] theorem Mach.setBlock_checks (s : Mach) (b : Nat) (x : Block) : (s.setBlock b x).checks = s.checks := rfl
@[simp] theorem Mach.setBlock_l1 (s : Mach) (b : Nat) (x : Block) : (s.setBlock b x).l1 = s.l1 := rfl
@[simp] theorem Mach.setBlock_utlb (s : Mach) (b : Nat) (x : Block) : (s.setBlock b x).utlb = s.utlb := rfl
@[simp] theorem Mach.setBlock_ctlb (s : Mach) (b : Nat) (x : Block) : (s.setBlock b x).ctlb = s.ctlb := rfl
@[simp] theorem Mach.setBlock_channels (s : Mach) (b : Nat) (x : Block) : (s.setBlock b x).channels = s.channels := rfl
@[simp] theorem Mach.setBlock_clusters (s : Mach) (b : Nat) (x : Block) : (s.setBlock b x).clusters = s.clusters := rfl
@[simp] theorem Mach.setBlock_dies (s : Mach) (b : Nat) (x : Block) : (s.setBlock b x).dies = s.dies := rfl
@[simp] theorem Mach.setBlock_csched (s : Mach) (b : Nat) (x : Block) : (s.setBlock b x).csched = s.csched := rfl
@[simp] theorem Mach.setBlock_quota (s : Mach) (b : Nat) (x : Block) : (s.setBlock b x).quota = s.quota := rfl
@[simp] theorem Mach.setBlock_slots (s : Mach) (b : Nat) (x : Block) : (s.setBlock b x).slots = s.slots := rfl
@[simp] theorem Mach.setBlock_parts (s : Mach) (b : Nat) (x : Block) : (s.setBlock b x).parts = s.parts := rfl
@[simp] theorem Mach.setBlock_ctxs (s : Mach) (b : Nat) (x : Block) : (s.setBlock b x).ctxs = s.ctxs := rfl
@[simp] theorem Mach.setBlock_launches (s : Mach) (b : Nat) (x : Block) : (s.setBlock b x).launches = s.launches := rfl
@[simp] theorem Mach.setBlock_blocks (s : Mach) (b : Nat) (x : Block) : (s.setBlock b x).blocks = s.blocks.put b x := rfl
@[simp] theorem Mach.setBlock_nextId (s : Mach) (b : Nat) (x : Block) : (s.setBlock b x).nextId = s.nextId := rfl
@[simp] theorem Mach.setBlock_ages (s : Mach) (b : Nat) (x : Block) : (s.setBlock b x).ages = s.ages := rfl
@[simp] theorem Mach.setBlock_admin (s : Mach) (b : Nat) (x : Block) : (s.setBlock b x).admin = s.admin := rfl
@[simp] theorem Mach.setBlock_adminRing (s : Mach) (b : Nat) (x : Block) : (s.setBlock b x).adminRing = s.adminRing := rfl
@[simp] theorem Mach.setBlock_runlist (s : Mach) (b : Nat) (x : Block) : (s.setBlock b x).runlist = s.runlist := rfl
@[simp] theorem Mach.setBlock_bulks (s : Mach) (b : Nat) (x : Block) : (s.setBlock b x).bulks = s.bulks := rfl
@[simp] theorem Mach.setBlock_rma (s : Mach) (b : Nat) (x : Block) : (s.setBlock b x).rma = s.rma := rfl
@[simp] theorem Mach.setBlock_rmaSent (s : Mach) (b : Nat) (x : Block) : (s.setBlock b x).rmaSent = s.rmaSent := rfl
@[simp] theorem Mach.setBlock_gmsgs (s : Mach) (b : Nat) (x : Block) : (s.setBlock b x).gmsgs = s.gmsgs := rfl
@[simp] theorem Mach.setBlock_colls (s : Mach) (b : Nat) (x : Block) : (s.setBlock b x).colls = s.colls := rfl
@[simp] theorem Mach.setBlock_verdicts (s : Mach) (b : Nat) (x : Block) : (s.setBlock b x).verdicts = s.verdicts := rfl
@[simp] theorem Mach.setBlock_answers (s : Mach) (b : Nat) (x : Block) : (s.setBlock b x).answers = s.answers := rfl
@[simp] theorem Mach.setBlock_links (s : Mach) (b : Nat) (x : Block) : (s.setBlock b x).links = s.links := rfl
@[simp] theorem Mach.setBlock_cutSince (s : Mach) (b : Nat) (x : Block) : (s.setBlock b x).cutSince = s.cutSince := rfl
@[simp] theorem Mach.setBlock_rates (s : Mach) (b : Nat) (x : Block) : (s.setBlock b x).rates = s.rates := rfl
@[simp] theorem Mach.setBlock_flits (s : Mach) (b : Nat) (x : Block) : (s.setBlock b x).flits = s.flits := rfl
@[simp] theorem Mach.setBlock_pkg (s : Mach) (b : Nat) (x : Block) : (s.setBlock b x).pkg = s.pkg := rfl
@[simp] theorem Mach.setBlock_rails (s : Mach) (b : Nat) (x : Block) : (s.setBlock b x).rails = s.rails := rfl
@[simp] theorem Mach.setBlock_railAt (s : Mach) (b : Nat) (x : Block) : (s.setBlock b x).railAt = s.railAt := rfl
@[simp] theorem Mach.setBlock_railFail (s : Mach) (b : Nat) (x : Block) : (s.setBlock b x).railFail = s.railFail := rfl
@[simp] theorem Mach.setBlock_boot (s : Mach) (b : Nat) (x : Block) : (s.setBlock b x).boot = s.boot := rfl
@[simp] theorem Mach.setBlock_recovery (s : Mach) (b : Nat) (x : Block) : (s.setBlock b x).recovery = s.recovery := rfl
@[simp] theorem Mach.setBlock_banks (s : Mach) (b : Nat) (x : Block) : (s.setBlock b x).banks = s.banks := rfl
@[simp] theorem Mach.setBlock_active (s : Mach) (b : Nat) (x : Block) : (s.setBlock b x).active = s.active := rfl
@[simp] theorem Mach.setBlock_fresh (s : Mach) (b : Nat) (x : Block) : (s.setBlock b x).fresh = s.fresh := rfl
@[simp] theorem Mach.setBlock_digests (s : Mach) (b : Nat) (x : Block) : (s.setBlock b x).digests = s.digests := rfl
@[simp] theorem Mach.setBlock_sysExec (s : Mach) (b : Nat) (x : Block) : (s.setBlock b x).sysExec = s.sysExec := rfl
@[simp] theorem Mach.setBlock_images (s : Mach) (b : Nat) (x : Block) : (s.setBlock b x).images = s.images := rfl
@[simp] theorem Mach.setBlock_free (s : Mach) (b : Nat) (x : Block) : (s.setBlock b x).free = s.free := rfl
@[simp] theorem Mach.setBlock_inbox (s : Mach) (b : Nat) (x : Block) : (s.setBlock b x).inbox = s.inbox := rfl
@[simp] theorem Mach.setBlock_focus (s : Mach) (b : Nat) (x : Block) : (s.setBlock b x).focus = s.focus := rfl

/-! ### Mach.setDie -/

@[simp] theorem Mach.setDie_mem (s : Mach) (d : Nat) (x : Die) : (s.setDie d x).mem = s.mem := rfl
@[simp] theorem Mach.setDie_dirty (s : Mach) (d : Nat) (x : Die) : (s.setDie d x).dirty = s.dirty := rfl
@[simp] theorem Mach.setDie_bad (s : Mach) (d : Nat) (x : Die) : (s.setDie d x).bad = s.bad := rfl
@[simp] theorem Mach.setDie_badL2 (s : Mach) (d : Nat) (x : Die) : (s.setDie d x).badL2 = s.badL2 := rfl
@[simp] theorem Mach.setDie_checks (s : Mach) (d : Nat) (x : Die) : (s.setDie d x).checks = s.checks := rfl
@[simp] theorem Mach.setDie_l1 (s : Mach) (d : Nat) (x : Die) : (s.setDie d x).l1 = s.l1 := rfl
@[simp] theorem Mach.setDie_utlb (s : Mach) (d : Nat) (x : Die) : (s.setDie d x).utlb = s.utlb := rfl
@[simp] theorem Mach.setDie_ctlb (s : Mach) (d : Nat) (x : Die) : (s.setDie d x).ctlb = s.ctlb := rfl
@[simp] theorem Mach.setDie_channels (s : Mach) (d : Nat) (x : Die) : (s.setDie d x).channels = s.channels := rfl
@[simp] theorem Mach.setDie_clusters (s : Mach) (d : Nat) (x : Die) : (s.setDie d x).clusters = s.clusters := rfl
@[simp] theorem Mach.setDie_dies (s : Mach) (d : Nat) (x : Die) : (s.setDie d x).dies = s.dies.put d x := rfl
@[simp] theorem Mach.setDie_csched (s : Mach) (d : Nat) (x : Die) : (s.setDie d x).csched = s.csched := rfl
@[simp] theorem Mach.setDie_quota (s : Mach) (d : Nat) (x : Die) : (s.setDie d x).quota = s.quota := rfl
@[simp] theorem Mach.setDie_slots (s : Mach) (d : Nat) (x : Die) : (s.setDie d x).slots = s.slots := rfl
@[simp] theorem Mach.setDie_parts (s : Mach) (d : Nat) (x : Die) : (s.setDie d x).parts = s.parts := rfl
@[simp] theorem Mach.setDie_ctxs (s : Mach) (d : Nat) (x : Die) : (s.setDie d x).ctxs = s.ctxs := rfl
@[simp] theorem Mach.setDie_launches (s : Mach) (d : Nat) (x : Die) : (s.setDie d x).launches = s.launches := rfl
@[simp] theorem Mach.setDie_blocks (s : Mach) (d : Nat) (x : Die) : (s.setDie d x).blocks = s.blocks := rfl
@[simp] theorem Mach.setDie_nextId (s : Mach) (d : Nat) (x : Die) : (s.setDie d x).nextId = s.nextId := rfl
@[simp] theorem Mach.setDie_ages (s : Mach) (d : Nat) (x : Die) : (s.setDie d x).ages = s.ages := rfl
@[simp] theorem Mach.setDie_admin (s : Mach) (d : Nat) (x : Die) : (s.setDie d x).admin = s.admin := rfl
@[simp] theorem Mach.setDie_adminRing (s : Mach) (d : Nat) (x : Die) : (s.setDie d x).adminRing = s.adminRing := rfl
@[simp] theorem Mach.setDie_runlist (s : Mach) (d : Nat) (x : Die) : (s.setDie d x).runlist = s.runlist := rfl
@[simp] theorem Mach.setDie_bulks (s : Mach) (d : Nat) (x : Die) : (s.setDie d x).bulks = s.bulks := rfl
@[simp] theorem Mach.setDie_rma (s : Mach) (d : Nat) (x : Die) : (s.setDie d x).rma = s.rma := rfl
@[simp] theorem Mach.setDie_rmaSent (s : Mach) (d : Nat) (x : Die) : (s.setDie d x).rmaSent = s.rmaSent := rfl
@[simp] theorem Mach.setDie_gmsgs (s : Mach) (d : Nat) (x : Die) : (s.setDie d x).gmsgs = s.gmsgs := rfl
@[simp] theorem Mach.setDie_colls (s : Mach) (d : Nat) (x : Die) : (s.setDie d x).colls = s.colls := rfl
@[simp] theorem Mach.setDie_verdicts (s : Mach) (d : Nat) (x : Die) : (s.setDie d x).verdicts = s.verdicts := rfl
@[simp] theorem Mach.setDie_answers (s : Mach) (d : Nat) (x : Die) : (s.setDie d x).answers = s.answers := rfl
@[simp] theorem Mach.setDie_links (s : Mach) (d : Nat) (x : Die) : (s.setDie d x).links = s.links := rfl
@[simp] theorem Mach.setDie_cutSince (s : Mach) (d : Nat) (x : Die) : (s.setDie d x).cutSince = s.cutSince := rfl
@[simp] theorem Mach.setDie_rates (s : Mach) (d : Nat) (x : Die) : (s.setDie d x).rates = s.rates := rfl
@[simp] theorem Mach.setDie_flits (s : Mach) (d : Nat) (x : Die) : (s.setDie d x).flits = s.flits := rfl
@[simp] theorem Mach.setDie_pkg (s : Mach) (d : Nat) (x : Die) : (s.setDie d x).pkg = s.pkg := rfl
@[simp] theorem Mach.setDie_rails (s : Mach) (d : Nat) (x : Die) : (s.setDie d x).rails = s.rails := rfl
@[simp] theorem Mach.setDie_railAt (s : Mach) (d : Nat) (x : Die) : (s.setDie d x).railAt = s.railAt := rfl
@[simp] theorem Mach.setDie_railFail (s : Mach) (d : Nat) (x : Die) : (s.setDie d x).railFail = s.railFail := rfl
@[simp] theorem Mach.setDie_boot (s : Mach) (d : Nat) (x : Die) : (s.setDie d x).boot = s.boot := rfl
@[simp] theorem Mach.setDie_recovery (s : Mach) (d : Nat) (x : Die) : (s.setDie d x).recovery = s.recovery := rfl
@[simp] theorem Mach.setDie_banks (s : Mach) (d : Nat) (x : Die) : (s.setDie d x).banks = s.banks := rfl
@[simp] theorem Mach.setDie_active (s : Mach) (d : Nat) (x : Die) : (s.setDie d x).active = s.active := rfl
@[simp] theorem Mach.setDie_fresh (s : Mach) (d : Nat) (x : Die) : (s.setDie d x).fresh = s.fresh := rfl
@[simp] theorem Mach.setDie_digests (s : Mach) (d : Nat) (x : Die) : (s.setDie d x).digests = s.digests := rfl
@[simp] theorem Mach.setDie_sysExec (s : Mach) (d : Nat) (x : Die) : (s.setDie d x).sysExec = s.sysExec := rfl
@[simp] theorem Mach.setDie_images (s : Mach) (d : Nat) (x : Die) : (s.setDie d x).images = s.images := rfl
@[simp] theorem Mach.setDie_free (s : Mach) (d : Nat) (x : Die) : (s.setDie d x).free = s.free := rfl
@[simp] theorem Mach.setDie_inbox (s : Mach) (d : Nat) (x : Die) : (s.setDie d x).inbox = s.inbox := rfl
@[simp] theorem Mach.setDie_focus (s : Mach) (d : Nat) (x : Die) : (s.setDie d x).focus = s.focus := rfl

/-! ### Mach.setBulk -/

@[simp] theorem Mach.setBulk_mem (s : Mach) (n : Nat) (x : Bulk) : (s.setBulk n x).mem = s.mem := rfl
@[simp] theorem Mach.setBulk_dirty (s : Mach) (n : Nat) (x : Bulk) : (s.setBulk n x).dirty = s.dirty := rfl
@[simp] theorem Mach.setBulk_bad (s : Mach) (n : Nat) (x : Bulk) : (s.setBulk n x).bad = s.bad := rfl
@[simp] theorem Mach.setBulk_badL2 (s : Mach) (n : Nat) (x : Bulk) : (s.setBulk n x).badL2 = s.badL2 := rfl
@[simp] theorem Mach.setBulk_checks (s : Mach) (n : Nat) (x : Bulk) : (s.setBulk n x).checks = s.checks := rfl
@[simp] theorem Mach.setBulk_l1 (s : Mach) (n : Nat) (x : Bulk) : (s.setBulk n x).l1 = s.l1 := rfl
@[simp] theorem Mach.setBulk_utlb (s : Mach) (n : Nat) (x : Bulk) : (s.setBulk n x).utlb = s.utlb := rfl
@[simp] theorem Mach.setBulk_ctlb (s : Mach) (n : Nat) (x : Bulk) : (s.setBulk n x).ctlb = s.ctlb := rfl
@[simp] theorem Mach.setBulk_channels (s : Mach) (n : Nat) (x : Bulk) : (s.setBulk n x).channels = s.channels := rfl
@[simp] theorem Mach.setBulk_clusters (s : Mach) (n : Nat) (x : Bulk) : (s.setBulk n x).clusters = s.clusters := rfl
@[simp] theorem Mach.setBulk_dies (s : Mach) (n : Nat) (x : Bulk) : (s.setBulk n x).dies = s.dies := rfl
@[simp] theorem Mach.setBulk_csched (s : Mach) (n : Nat) (x : Bulk) : (s.setBulk n x).csched = s.csched := rfl
@[simp] theorem Mach.setBulk_quota (s : Mach) (n : Nat) (x : Bulk) : (s.setBulk n x).quota = s.quota := rfl
@[simp] theorem Mach.setBulk_slots (s : Mach) (n : Nat) (x : Bulk) : (s.setBulk n x).slots = s.slots := rfl
@[simp] theorem Mach.setBulk_parts (s : Mach) (n : Nat) (x : Bulk) : (s.setBulk n x).parts = s.parts := rfl
@[simp] theorem Mach.setBulk_ctxs (s : Mach) (n : Nat) (x : Bulk) : (s.setBulk n x).ctxs = s.ctxs := rfl
@[simp] theorem Mach.setBulk_launches (s : Mach) (n : Nat) (x : Bulk) : (s.setBulk n x).launches = s.launches := rfl
@[simp] theorem Mach.setBulk_blocks (s : Mach) (n : Nat) (x : Bulk) : (s.setBulk n x).blocks = s.blocks := rfl
@[simp] theorem Mach.setBulk_nextId (s : Mach) (n : Nat) (x : Bulk) : (s.setBulk n x).nextId = s.nextId := rfl
@[simp] theorem Mach.setBulk_ages (s : Mach) (n : Nat) (x : Bulk) : (s.setBulk n x).ages = s.ages := rfl
@[simp] theorem Mach.setBulk_admin (s : Mach) (n : Nat) (x : Bulk) : (s.setBulk n x).admin = s.admin := rfl
@[simp] theorem Mach.setBulk_adminRing (s : Mach) (n : Nat) (x : Bulk) : (s.setBulk n x).adminRing = s.adminRing := rfl
@[simp] theorem Mach.setBulk_runlist (s : Mach) (n : Nat) (x : Bulk) : (s.setBulk n x).runlist = s.runlist := rfl
@[simp] theorem Mach.setBulk_bulks (s : Mach) (n : Nat) (x : Bulk) : (s.setBulk n x).bulks = s.bulks.put n x := rfl
@[simp] theorem Mach.setBulk_rma (s : Mach) (n : Nat) (x : Bulk) : (s.setBulk n x).rma = s.rma := rfl
@[simp] theorem Mach.setBulk_rmaSent (s : Mach) (n : Nat) (x : Bulk) : (s.setBulk n x).rmaSent = s.rmaSent := rfl
@[simp] theorem Mach.setBulk_gmsgs (s : Mach) (n : Nat) (x : Bulk) : (s.setBulk n x).gmsgs = s.gmsgs := rfl
@[simp] theorem Mach.setBulk_colls (s : Mach) (n : Nat) (x : Bulk) : (s.setBulk n x).colls = s.colls := rfl
@[simp] theorem Mach.setBulk_verdicts (s : Mach) (n : Nat) (x : Bulk) : (s.setBulk n x).verdicts = s.verdicts := rfl
@[simp] theorem Mach.setBulk_answers (s : Mach) (n : Nat) (x : Bulk) : (s.setBulk n x).answers = s.answers := rfl
@[simp] theorem Mach.setBulk_links (s : Mach) (n : Nat) (x : Bulk) : (s.setBulk n x).links = s.links := rfl
@[simp] theorem Mach.setBulk_cutSince (s : Mach) (n : Nat) (x : Bulk) : (s.setBulk n x).cutSince = s.cutSince := rfl
@[simp] theorem Mach.setBulk_rates (s : Mach) (n : Nat) (x : Bulk) : (s.setBulk n x).rates = s.rates := rfl
@[simp] theorem Mach.setBulk_flits (s : Mach) (n : Nat) (x : Bulk) : (s.setBulk n x).flits = s.flits := rfl
@[simp] theorem Mach.setBulk_pkg (s : Mach) (n : Nat) (x : Bulk) : (s.setBulk n x).pkg = s.pkg := rfl
@[simp] theorem Mach.setBulk_rails (s : Mach) (n : Nat) (x : Bulk) : (s.setBulk n x).rails = s.rails := rfl
@[simp] theorem Mach.setBulk_railAt (s : Mach) (n : Nat) (x : Bulk) : (s.setBulk n x).railAt = s.railAt := rfl
@[simp] theorem Mach.setBulk_railFail (s : Mach) (n : Nat) (x : Bulk) : (s.setBulk n x).railFail = s.railFail := rfl
@[simp] theorem Mach.setBulk_boot (s : Mach) (n : Nat) (x : Bulk) : (s.setBulk n x).boot = s.boot := rfl
@[simp] theorem Mach.setBulk_recovery (s : Mach) (n : Nat) (x : Bulk) : (s.setBulk n x).recovery = s.recovery := rfl
@[simp] theorem Mach.setBulk_banks (s : Mach) (n : Nat) (x : Bulk) : (s.setBulk n x).banks = s.banks := rfl
@[simp] theorem Mach.setBulk_active (s : Mach) (n : Nat) (x : Bulk) : (s.setBulk n x).active = s.active := rfl
@[simp] theorem Mach.setBulk_fresh (s : Mach) (n : Nat) (x : Bulk) : (s.setBulk n x).fresh = s.fresh := rfl
@[simp] theorem Mach.setBulk_digests (s : Mach) (n : Nat) (x : Bulk) : (s.setBulk n x).digests = s.digests := rfl
@[simp] theorem Mach.setBulk_sysExec (s : Mach) (n : Nat) (x : Bulk) : (s.setBulk n x).sysExec = s.sysExec := rfl
@[simp] theorem Mach.setBulk_images (s : Mach) (n : Nat) (x : Bulk) : (s.setBulk n x).images = s.images := rfl
@[simp] theorem Mach.setBulk_free (s : Mach) (n : Nat) (x : Bulk) : (s.setBulk n x).free = s.free := rfl
@[simp] theorem Mach.setBulk_inbox (s : Mach) (n : Nat) (x : Bulk) : (s.setBulk n x).inbox = s.inbox := rfl
@[simp] theorem Mach.setBulk_focus (s : Mach) (n : Nat) (x : Bulk) : (s.setBulk n x).focus = s.focus := rfl

/-! ### Mach.notice -/

@[simp] theorem Mach.notice_mem (s : Mach) (bs : List Byte) : (s.notice bs).mem = s.mem := rfl
@[simp] theorem Mach.notice_dirty (s : Mach) (bs : List Byte) : (s.notice bs).dirty = s.dirty := rfl
@[simp] theorem Mach.notice_bad (s : Mach) (bs : List Byte) : (s.notice bs).bad = s.bad := rfl
@[simp] theorem Mach.notice_badL2 (s : Mach) (bs : List Byte) : (s.notice bs).badL2 = s.badL2 := rfl
@[simp] theorem Mach.notice_checks (s : Mach) (bs : List Byte) : (s.notice bs).checks = s.checks := rfl
@[simp] theorem Mach.notice_l1 (s : Mach) (bs : List Byte) : (s.notice bs).l1 = s.l1 := rfl
@[simp] theorem Mach.notice_utlb (s : Mach) (bs : List Byte) : (s.notice bs).utlb = s.utlb := rfl
@[simp] theorem Mach.notice_ctlb (s : Mach) (bs : List Byte) : (s.notice bs).ctlb = s.ctlb := rfl
@[simp] theorem Mach.notice_channels (s : Mach) (bs : List Byte) : (s.notice bs).channels = s.channels := rfl
@[simp] theorem Mach.notice_clusters (s : Mach) (bs : List Byte) : (s.notice bs).clusters = s.clusters := rfl
@[simp] theorem Mach.notice_dies (s : Mach) (bs : List Byte) : (s.notice bs).dies = s.dies := rfl
@[simp] theorem Mach.notice_csched (s : Mach) (bs : List Byte) : (s.notice bs).csched = s.csched := rfl
@[simp] theorem Mach.notice_quota (s : Mach) (bs : List Byte) : (s.notice bs).quota = s.quota := rfl
@[simp] theorem Mach.notice_slots (s : Mach) (bs : List Byte) : (s.notice bs).slots = s.slots := rfl
@[simp] theorem Mach.notice_parts (s : Mach) (bs : List Byte) : (s.notice bs).parts = s.parts := rfl
@[simp] theorem Mach.notice_ctxs (s : Mach) (bs : List Byte) : (s.notice bs).ctxs = s.ctxs := rfl
@[simp] theorem Mach.notice_launches (s : Mach) (bs : List Byte) : (s.notice bs).launches = s.launches := rfl
@[simp] theorem Mach.notice_blocks (s : Mach) (bs : List Byte) : (s.notice bs).blocks = s.blocks := rfl
@[simp] theorem Mach.notice_nextId (s : Mach) (bs : List Byte) : (s.notice bs).nextId = s.nextId := rfl
@[simp] theorem Mach.notice_ages (s : Mach) (bs : List Byte) : (s.notice bs).ages = s.ages := rfl
@[simp] theorem Mach.notice_admin (s : Mach) (bs : List Byte) : (s.notice bs).admin = s.admin := rfl
@[simp] theorem Mach.notice_adminRing (s : Mach) (bs : List Byte) : (s.notice bs).adminRing = s.adminRing.addRec (.notice bs) := rfl
@[simp] theorem Mach.notice_runlist (s : Mach) (bs : List Byte) : (s.notice bs).runlist = s.runlist := rfl
@[simp] theorem Mach.notice_bulks (s : Mach) (bs : List Byte) : (s.notice bs).bulks = s.bulks := rfl
@[simp] theorem Mach.notice_rma (s : Mach) (bs : List Byte) : (s.notice bs).rma = s.rma := rfl
@[simp] theorem Mach.notice_rmaSent (s : Mach) (bs : List Byte) : (s.notice bs).rmaSent = s.rmaSent := rfl
@[simp] theorem Mach.notice_gmsgs (s : Mach) (bs : List Byte) : (s.notice bs).gmsgs = s.gmsgs := rfl
@[simp] theorem Mach.notice_colls (s : Mach) (bs : List Byte) : (s.notice bs).colls = s.colls := rfl
@[simp] theorem Mach.notice_verdicts (s : Mach) (bs : List Byte) : (s.notice bs).verdicts = s.verdicts := rfl
@[simp] theorem Mach.notice_answers (s : Mach) (bs : List Byte) : (s.notice bs).answers = s.answers := rfl
@[simp] theorem Mach.notice_links (s : Mach) (bs : List Byte) : (s.notice bs).links = s.links := rfl
@[simp] theorem Mach.notice_cutSince (s : Mach) (bs : List Byte) : (s.notice bs).cutSince = s.cutSince := rfl
@[simp] theorem Mach.notice_rates (s : Mach) (bs : List Byte) : (s.notice bs).rates = s.rates := rfl
@[simp] theorem Mach.notice_flits (s : Mach) (bs : List Byte) : (s.notice bs).flits = s.flits := rfl
@[simp] theorem Mach.notice_pkg (s : Mach) (bs : List Byte) : (s.notice bs).pkg = s.pkg := rfl
@[simp] theorem Mach.notice_rails (s : Mach) (bs : List Byte) : (s.notice bs).rails = s.rails := rfl
@[simp] theorem Mach.notice_railAt (s : Mach) (bs : List Byte) : (s.notice bs).railAt = s.railAt := rfl
@[simp] theorem Mach.notice_railFail (s : Mach) (bs : List Byte) : (s.notice bs).railFail = s.railFail := rfl
@[simp] theorem Mach.notice_boot (s : Mach) (bs : List Byte) : (s.notice bs).boot = s.boot := rfl
@[simp] theorem Mach.notice_recovery (s : Mach) (bs : List Byte) : (s.notice bs).recovery = s.recovery := rfl
@[simp] theorem Mach.notice_banks (s : Mach) (bs : List Byte) : (s.notice bs).banks = s.banks := rfl
@[simp] theorem Mach.notice_active (s : Mach) (bs : List Byte) : (s.notice bs).active = s.active := rfl
@[simp] theorem Mach.notice_fresh (s : Mach) (bs : List Byte) : (s.notice bs).fresh = s.fresh := rfl
@[simp] theorem Mach.notice_digests (s : Mach) (bs : List Byte) : (s.notice bs).digests = s.digests := rfl
@[simp] theorem Mach.notice_sysExec (s : Mach) (bs : List Byte) : (s.notice bs).sysExec = s.sysExec := rfl
@[simp] theorem Mach.notice_images (s : Mach) (bs : List Byte) : (s.notice bs).images = s.images := rfl
@[simp] theorem Mach.notice_free (s : Mach) (bs : List Byte) : (s.notice bs).free = s.free := rfl
@[simp] theorem Mach.notice_inbox (s : Mach) (bs : List Byte) : (s.notice bs).inbox = s.inbox := rfl
@[simp] theorem Mach.notice_focus (s : Mach) (bs : List Byte) : (s.notice bs).focus = s.focus := rfl

/-! ### Mach.sendRma -/

@[simp] theorem Mach.sendRma_mem (s : Mach) (c : Nat) (x : HostRma) : (s.sendRma c x).mem = s.mem := rfl
@[simp] theorem Mach.sendRma_dirty (s : Mach) (c : Nat) (x : HostRma) : (s.sendRma c x).dirty = s.dirty := rfl
@[simp] theorem Mach.sendRma_bad (s : Mach) (c : Nat) (x : HostRma) : (s.sendRma c x).bad = s.bad := rfl
@[simp] theorem Mach.sendRma_badL2 (s : Mach) (c : Nat) (x : HostRma) : (s.sendRma c x).badL2 = s.badL2 := rfl
@[simp] theorem Mach.sendRma_checks (s : Mach) (c : Nat) (x : HostRma) : (s.sendRma c x).checks = s.checks := rfl
@[simp] theorem Mach.sendRma_l1 (s : Mach) (c : Nat) (x : HostRma) : (s.sendRma c x).l1 = s.l1 := rfl
@[simp] theorem Mach.sendRma_utlb (s : Mach) (c : Nat) (x : HostRma) : (s.sendRma c x).utlb = s.utlb := rfl
@[simp] theorem Mach.sendRma_ctlb (s : Mach) (c : Nat) (x : HostRma) : (s.sendRma c x).ctlb = s.ctlb := rfl
@[simp] theorem Mach.sendRma_channels (s : Mach) (c : Nat) (x : HostRma) : (s.sendRma c x).channels = s.channels := rfl
@[simp] theorem Mach.sendRma_clusters (s : Mach) (c : Nat) (x : HostRma) : (s.sendRma c x).clusters = s.clusters := rfl
@[simp] theorem Mach.sendRma_dies (s : Mach) (c : Nat) (x : HostRma) : (s.sendRma c x).dies = s.dies := rfl
@[simp] theorem Mach.sendRma_csched (s : Mach) (c : Nat) (x : HostRma) : (s.sendRma c x).csched = s.csched := rfl
@[simp] theorem Mach.sendRma_quota (s : Mach) (c : Nat) (x : HostRma) : (s.sendRma c x).quota = s.quota := rfl
@[simp] theorem Mach.sendRma_slots (s : Mach) (c : Nat) (x : HostRma) : (s.sendRma c x).slots = s.slots := rfl
@[simp] theorem Mach.sendRma_parts (s : Mach) (c : Nat) (x : HostRma) : (s.sendRma c x).parts = s.parts := rfl
@[simp] theorem Mach.sendRma_ctxs (s : Mach) (c : Nat) (x : HostRma) : (s.sendRma c x).ctxs = s.ctxs := rfl
@[simp] theorem Mach.sendRma_launches (s : Mach) (c : Nat) (x : HostRma) : (s.sendRma c x).launches = s.launches := rfl
@[simp] theorem Mach.sendRma_blocks (s : Mach) (c : Nat) (x : HostRma) : (s.sendRma c x).blocks = s.blocks := rfl
@[simp] theorem Mach.sendRma_nextId (s : Mach) (c : Nat) (x : HostRma) : (s.sendRma c x).nextId = s.nextId := rfl
@[simp] theorem Mach.sendRma_ages (s : Mach) (c : Nat) (x : HostRma) : (s.sendRma c x).ages = s.ages := rfl
@[simp] theorem Mach.sendRma_admin (s : Mach) (c : Nat) (x : HostRma) : (s.sendRma c x).admin = s.admin := rfl
@[simp] theorem Mach.sendRma_adminRing (s : Mach) (c : Nat) (x : HostRma) : (s.sendRma c x).adminRing = s.adminRing := rfl
@[simp] theorem Mach.sendRma_runlist (s : Mach) (c : Nat) (x : HostRma) : (s.sendRma c x).runlist = s.runlist := rfl
@[simp] theorem Mach.sendRma_bulks (s : Mach) (c : Nat) (x : HostRma) : (s.sendRma c x).bulks = s.bulks := rfl
@[simp] theorem Mach.sendRma_rma (s : Mach) (c : Nat) (x : HostRma) : (s.sendRma c x).rma = s.rma.put s.rmaSent ((s.ctx c).hostEnd, x) := rfl
@[simp] theorem Mach.sendRma_rmaSent (s : Mach) (c : Nat) (x : HostRma) : (s.sendRma c x).rmaSent = s.rmaSent + 1 := rfl
@[simp] theorem Mach.sendRma_gmsgs (s : Mach) (c : Nat) (x : HostRma) : (s.sendRma c x).gmsgs = s.gmsgs := rfl
@[simp] theorem Mach.sendRma_colls (s : Mach) (c : Nat) (x : HostRma) : (s.sendRma c x).colls = s.colls := rfl
@[simp] theorem Mach.sendRma_verdicts (s : Mach) (c : Nat) (x : HostRma) : (s.sendRma c x).verdicts = s.verdicts := rfl
@[simp] theorem Mach.sendRma_answers (s : Mach) (c : Nat) (x : HostRma) : (s.sendRma c x).answers = s.answers := rfl
@[simp] theorem Mach.sendRma_links (s : Mach) (c : Nat) (x : HostRma) : (s.sendRma c x).links = s.links := rfl
@[simp] theorem Mach.sendRma_cutSince (s : Mach) (c : Nat) (x : HostRma) : (s.sendRma c x).cutSince = s.cutSince := rfl
@[simp] theorem Mach.sendRma_rates (s : Mach) (c : Nat) (x : HostRma) : (s.sendRma c x).rates = s.rates := rfl
@[simp] theorem Mach.sendRma_flits (s : Mach) (c : Nat) (x : HostRma) : (s.sendRma c x).flits = s.flits := rfl
@[simp] theorem Mach.sendRma_pkg (s : Mach) (c : Nat) (x : HostRma) : (s.sendRma c x).pkg = s.pkg := rfl
@[simp] theorem Mach.sendRma_rails (s : Mach) (c : Nat) (x : HostRma) : (s.sendRma c x).rails = s.rails := rfl
@[simp] theorem Mach.sendRma_railAt (s : Mach) (c : Nat) (x : HostRma) : (s.sendRma c x).railAt = s.railAt := rfl
@[simp] theorem Mach.sendRma_railFail (s : Mach) (c : Nat) (x : HostRma) : (s.sendRma c x).railFail = s.railFail := rfl
@[simp] theorem Mach.sendRma_boot (s : Mach) (c : Nat) (x : HostRma) : (s.sendRma c x).boot = s.boot := rfl
@[simp] theorem Mach.sendRma_recovery (s : Mach) (c : Nat) (x : HostRma) : (s.sendRma c x).recovery = s.recovery := rfl
@[simp] theorem Mach.sendRma_banks (s : Mach) (c : Nat) (x : HostRma) : (s.sendRma c x).banks = s.banks := rfl
@[simp] theorem Mach.sendRma_active (s : Mach) (c : Nat) (x : HostRma) : (s.sendRma c x).active = s.active := rfl
@[simp] theorem Mach.sendRma_fresh (s : Mach) (c : Nat) (x : HostRma) : (s.sendRma c x).fresh = s.fresh := rfl
@[simp] theorem Mach.sendRma_digests (s : Mach) (c : Nat) (x : HostRma) : (s.sendRma c x).digests = s.digests := rfl
@[simp] theorem Mach.sendRma_sysExec (s : Mach) (c : Nat) (x : HostRma) : (s.sendRma c x).sysExec = s.sysExec := rfl
@[simp] theorem Mach.sendRma_images (s : Mach) (c : Nat) (x : HostRma) : (s.sendRma c x).images = s.images := rfl
@[simp] theorem Mach.sendRma_free (s : Mach) (c : Nat) (x : HostRma) : (s.sendRma c x).free = s.free := rfl
@[simp] theorem Mach.sendRma_inbox (s : Mach) (c : Nat) (x : HostRma) : (s.sendRma c x).inbox = s.inbox := rfl
@[simp] theorem Mach.sendRma_focus (s : Mach) (c : Nat) (x : HostRma) : (s.sendRma c x).focus = s.focus := rfl

/-! ### Mach.answer -/

@[simp] theorem Mach.answer_mem (s : Mach) (n : Nat) (x : FarReply) : (s.answer n x).mem = s.mem := rfl
@[simp] theorem Mach.answer_dirty (s : Mach) (n : Nat) (x : FarReply) : (s.answer n x).dirty = s.dirty := rfl
@[simp] theorem Mach.answer_bad (s : Mach) (n : Nat) (x : FarReply) : (s.answer n x).bad = s.bad := rfl
@[simp] theorem Mach.answer_badL2 (s : Mach) (n : Nat) (x : FarReply) : (s.answer n x).badL2 = s.badL2 := rfl
@[simp] theorem Mach.answer_checks (s : Mach) (n : Nat) (x : FarReply) : (s.answer n x).checks = s.checks := rfl
@[simp] theorem Mach.answer_l1 (s : Mach) (n : Nat) (x : FarReply) : (s.answer n x).l1 = s.l1 := rfl
@[simp] theorem Mach.answer_utlb (s : Mach) (n : Nat) (x : FarReply) : (s.answer n x).utlb = s.utlb := rfl
@[simp] theorem Mach.answer_ctlb (s : Mach) (n : Nat) (x : FarReply) : (s.answer n x).ctlb = s.ctlb := rfl
@[simp] theorem Mach.answer_channels (s : Mach) (n : Nat) (x : FarReply) : (s.answer n x).channels = s.channels := rfl
@[simp] theorem Mach.answer_clusters (s : Mach) (n : Nat) (x : FarReply) : (s.answer n x).clusters = s.clusters := rfl
@[simp] theorem Mach.answer_dies (s : Mach) (n : Nat) (x : FarReply) : (s.answer n x).dies = s.dies := rfl
@[simp] theorem Mach.answer_csched (s : Mach) (n : Nat) (x : FarReply) : (s.answer n x).csched = s.csched := rfl
@[simp] theorem Mach.answer_quota (s : Mach) (n : Nat) (x : FarReply) : (s.answer n x).quota = s.quota := rfl
@[simp] theorem Mach.answer_slots (s : Mach) (n : Nat) (x : FarReply) : (s.answer n x).slots = s.slots := rfl
@[simp] theorem Mach.answer_parts (s : Mach) (n : Nat) (x : FarReply) : (s.answer n x).parts = s.parts := rfl
@[simp] theorem Mach.answer_ctxs (s : Mach) (n : Nat) (x : FarReply) : (s.answer n x).ctxs = s.ctxs := rfl
@[simp] theorem Mach.answer_launches (s : Mach) (n : Nat) (x : FarReply) : (s.answer n x).launches = s.launches := rfl
@[simp] theorem Mach.answer_blocks (s : Mach) (n : Nat) (x : FarReply) : (s.answer n x).blocks = s.blocks := rfl
@[simp] theorem Mach.answer_nextId (s : Mach) (n : Nat) (x : FarReply) : (s.answer n x).nextId = s.nextId := rfl
@[simp] theorem Mach.answer_ages (s : Mach) (n : Nat) (x : FarReply) : (s.answer n x).ages = s.ages := rfl
@[simp] theorem Mach.answer_admin (s : Mach) (n : Nat) (x : FarReply) : (s.answer n x).admin = s.admin := rfl
@[simp] theorem Mach.answer_adminRing (s : Mach) (n : Nat) (x : FarReply) : (s.answer n x).adminRing = s.adminRing := rfl
@[simp] theorem Mach.answer_runlist (s : Mach) (n : Nat) (x : FarReply) : (s.answer n x).runlist = s.runlist := rfl
@[simp] theorem Mach.answer_bulks (s : Mach) (n : Nat) (x : FarReply) : (s.answer n x).bulks = s.bulks := rfl
@[simp] theorem Mach.answer_rma (s : Mach) (n : Nat) (x : FarReply) : (s.answer n x).rma = s.rma := rfl
@[simp] theorem Mach.answer_rmaSent (s : Mach) (n : Nat) (x : FarReply) : (s.answer n x).rmaSent = s.rmaSent := rfl
@[simp] theorem Mach.answer_gmsgs (s : Mach) (n : Nat) (x : FarReply) : (s.answer n x).gmsgs = s.gmsgs := rfl
@[simp] theorem Mach.answer_colls (s : Mach) (n : Nat) (x : FarReply) : (s.answer n x).colls = s.colls := rfl
@[simp] theorem Mach.answer_verdicts (s : Mach) (n : Nat) (x : FarReply) : (s.answer n x).verdicts = s.verdicts := rfl
@[simp] theorem Mach.answer_answers (s : Mach) (n : Nat) (x : FarReply) : (s.answer n x).answers = (n, x) :: s.answers := rfl
@[simp] theorem Mach.answer_links (s : Mach) (n : Nat) (x : FarReply) : (s.answer n x).links = s.links := rfl
@[simp] theorem Mach.answer_cutSince (s : Mach) (n : Nat) (x : FarReply) : (s.answer n x).cutSince = s.cutSince := rfl
@[simp] theorem Mach.answer_rates (s : Mach) (n : Nat) (x : FarReply) : (s.answer n x).rates = s.rates := rfl
@[simp] theorem Mach.answer_flits (s : Mach) (n : Nat) (x : FarReply) : (s.answer n x).flits = s.flits := rfl
@[simp] theorem Mach.answer_pkg (s : Mach) (n : Nat) (x : FarReply) : (s.answer n x).pkg = s.pkg := rfl
@[simp] theorem Mach.answer_rails (s : Mach) (n : Nat) (x : FarReply) : (s.answer n x).rails = s.rails := rfl
@[simp] theorem Mach.answer_railAt (s : Mach) (n : Nat) (x : FarReply) : (s.answer n x).railAt = s.railAt := rfl
@[simp] theorem Mach.answer_railFail (s : Mach) (n : Nat) (x : FarReply) : (s.answer n x).railFail = s.railFail := rfl
@[simp] theorem Mach.answer_boot (s : Mach) (n : Nat) (x : FarReply) : (s.answer n x).boot = s.boot := rfl
@[simp] theorem Mach.answer_recovery (s : Mach) (n : Nat) (x : FarReply) : (s.answer n x).recovery = s.recovery := rfl
@[simp] theorem Mach.answer_banks (s : Mach) (n : Nat) (x : FarReply) : (s.answer n x).banks = s.banks := rfl
@[simp] theorem Mach.answer_active (s : Mach) (n : Nat) (x : FarReply) : (s.answer n x).active = s.active := rfl
@[simp] theorem Mach.answer_fresh (s : Mach) (n : Nat) (x : FarReply) : (s.answer n x).fresh = s.fresh := rfl
@[simp] theorem Mach.answer_digests (s : Mach) (n : Nat) (x : FarReply) : (s.answer n x).digests = s.digests := rfl
@[simp] theorem Mach.answer_sysExec (s : Mach) (n : Nat) (x : FarReply) : (s.answer n x).sysExec = s.sysExec := rfl
@[simp] theorem Mach.answer_images (s : Mach) (n : Nat) (x : FarReply) : (s.answer n x).images = s.images := rfl
@[simp] theorem Mach.answer_free (s : Mach) (n : Nat) (x : FarReply) : (s.answer n x).free = s.free := rfl
@[simp] theorem Mach.answer_inbox (s : Mach) (n : Nat) (x : FarReply) : (s.answer n x).inbox = s.inbox := rfl
@[simp] theorem Mach.answer_focus (s : Mach) (n : Nat) (x : FarReply) : (s.answer n x).focus = s.focus := rfl

/-! ### Mach.check -/

@[simp] theorem Mach.check_mem (s : Mach) (a b : List Nat) (l : Option (Nat × Nat)) : (s.check a b l).mem = s.mem := rfl
@[simp] theorem Mach.check_dirty (s : Mach) (a b : List Nat) (l : Option (Nat × Nat)) : (s.check a b l).dirty = s.dirty := rfl
@[simp] theorem Mach.check_bad (s : Mach) (a b : List Nat) (l : Option (Nat × Nat)) : (s.check a b l).bad = s.bad := rfl
@[simp] theorem Mach.check_badL2 (s : Mach) (a b : List Nat) (l : Option (Nat × Nat)) : (s.check a b l).badL2 = s.badL2 := rfl
@[simp] theorem Mach.check_checks (s : Mach) (a b : List Nat) (l : Option (Nat × Nat)) : (s.check a b l).checks = { ctxs := a, causes := b, line := l } :: s.checks := rfl
@[simp] theorem Mach.check_l1 (s : Mach) (a b : List Nat) (l : Option (Nat × Nat)) : (s.check a b l).l1 = s.l1 := rfl
@[simp] theorem Mach.check_utlb (s : Mach) (a b : List Nat) (l : Option (Nat × Nat)) : (s.check a b l).utlb = s.utlb := rfl
@[simp] theorem Mach.check_ctlb (s : Mach) (a b : List Nat) (l : Option (Nat × Nat)) : (s.check a b l).ctlb = s.ctlb := rfl
@[simp] theorem Mach.check_channels (s : Mach) (a b : List Nat) (l : Option (Nat × Nat)) : (s.check a b l).channels = s.channels := rfl
@[simp] theorem Mach.check_clusters (s : Mach) (a b : List Nat) (l : Option (Nat × Nat)) : (s.check a b l).clusters = s.clusters := rfl
@[simp] theorem Mach.check_dies (s : Mach) (a b : List Nat) (l : Option (Nat × Nat)) : (s.check a b l).dies = s.dies := rfl
@[simp] theorem Mach.check_csched (s : Mach) (a b : List Nat) (l : Option (Nat × Nat)) : (s.check a b l).csched = s.csched := rfl
@[simp] theorem Mach.check_quota (s : Mach) (a b : List Nat) (l : Option (Nat × Nat)) : (s.check a b l).quota = s.quota := rfl
@[simp] theorem Mach.check_slots (s : Mach) (a b : List Nat) (l : Option (Nat × Nat)) : (s.check a b l).slots = s.slots := rfl
@[simp] theorem Mach.check_parts (s : Mach) (a b : List Nat) (l : Option (Nat × Nat)) : (s.check a b l).parts = s.parts := rfl
@[simp] theorem Mach.check_ctxs (s : Mach) (a b : List Nat) (l : Option (Nat × Nat)) : (s.check a b l).ctxs = s.ctxs := rfl
@[simp] theorem Mach.check_launches (s : Mach) (a b : List Nat) (l : Option (Nat × Nat)) : (s.check a b l).launches = s.launches := rfl
@[simp] theorem Mach.check_blocks (s : Mach) (a b : List Nat) (l : Option (Nat × Nat)) : (s.check a b l).blocks = s.blocks := rfl
@[simp] theorem Mach.check_nextId (s : Mach) (a b : List Nat) (l : Option (Nat × Nat)) : (s.check a b l).nextId = s.nextId := rfl
@[simp] theorem Mach.check_ages (s : Mach) (a b : List Nat) (l : Option (Nat × Nat)) : (s.check a b l).ages = s.ages := rfl
@[simp] theorem Mach.check_admin (s : Mach) (a b : List Nat) (l : Option (Nat × Nat)) : (s.check a b l).admin = s.admin := rfl
@[simp] theorem Mach.check_adminRing (s : Mach) (a b : List Nat) (l : Option (Nat × Nat)) : (s.check a b l).adminRing = s.adminRing := rfl
@[simp] theorem Mach.check_runlist (s : Mach) (a b : List Nat) (l : Option (Nat × Nat)) : (s.check a b l).runlist = s.runlist := rfl
@[simp] theorem Mach.check_bulks (s : Mach) (a b : List Nat) (l : Option (Nat × Nat)) : (s.check a b l).bulks = s.bulks := rfl
@[simp] theorem Mach.check_rma (s : Mach) (a b : List Nat) (l : Option (Nat × Nat)) : (s.check a b l).rma = s.rma := rfl
@[simp] theorem Mach.check_rmaSent (s : Mach) (a b : List Nat) (l : Option (Nat × Nat)) : (s.check a b l).rmaSent = s.rmaSent := rfl
@[simp] theorem Mach.check_gmsgs (s : Mach) (a b : List Nat) (l : Option (Nat × Nat)) : (s.check a b l).gmsgs = s.gmsgs := rfl
@[simp] theorem Mach.check_colls (s : Mach) (a b : List Nat) (l : Option (Nat × Nat)) : (s.check a b l).colls = s.colls := rfl
@[simp] theorem Mach.check_verdicts (s : Mach) (a b : List Nat) (l : Option (Nat × Nat)) : (s.check a b l).verdicts = s.verdicts := rfl
@[simp] theorem Mach.check_answers (s : Mach) (a b : List Nat) (l : Option (Nat × Nat)) : (s.check a b l).answers = s.answers := rfl
@[simp] theorem Mach.check_links (s : Mach) (a b : List Nat) (l : Option (Nat × Nat)) : (s.check a b l).links = s.links := rfl
@[simp] theorem Mach.check_cutSince (s : Mach) (a b : List Nat) (l : Option (Nat × Nat)) : (s.check a b l).cutSince = s.cutSince := rfl
@[simp] theorem Mach.check_rates (s : Mach) (a b : List Nat) (l : Option (Nat × Nat)) : (s.check a b l).rates = s.rates := rfl
@[simp] theorem Mach.check_flits (s : Mach) (a b : List Nat) (l : Option (Nat × Nat)) : (s.check a b l).flits = s.flits := rfl
@[simp] theorem Mach.check_pkg (s : Mach) (a b : List Nat) (l : Option (Nat × Nat)) : (s.check a b l).pkg = s.pkg := rfl
@[simp] theorem Mach.check_rails (s : Mach) (a b : List Nat) (l : Option (Nat × Nat)) : (s.check a b l).rails = s.rails := rfl
@[simp] theorem Mach.check_railAt (s : Mach) (a b : List Nat) (l : Option (Nat × Nat)) : (s.check a b l).railAt = s.railAt := rfl
@[simp] theorem Mach.check_railFail (s : Mach) (a b : List Nat) (l : Option (Nat × Nat)) : (s.check a b l).railFail = s.railFail := rfl
@[simp] theorem Mach.check_boot (s : Mach) (a b : List Nat) (l : Option (Nat × Nat)) : (s.check a b l).boot = s.boot := rfl
@[simp] theorem Mach.check_recovery (s : Mach) (a b : List Nat) (l : Option (Nat × Nat)) : (s.check a b l).recovery = s.recovery := rfl
@[simp] theorem Mach.check_banks (s : Mach) (a b : List Nat) (l : Option (Nat × Nat)) : (s.check a b l).banks = s.banks := rfl
@[simp] theorem Mach.check_active (s : Mach) (a b : List Nat) (l : Option (Nat × Nat)) : (s.check a b l).active = s.active := rfl
@[simp] theorem Mach.check_fresh (s : Mach) (a b : List Nat) (l : Option (Nat × Nat)) : (s.check a b l).fresh = s.fresh := rfl
@[simp] theorem Mach.check_digests (s : Mach) (a b : List Nat) (l : Option (Nat × Nat)) : (s.check a b l).digests = s.digests := rfl
@[simp] theorem Mach.check_sysExec (s : Mach) (a b : List Nat) (l : Option (Nat × Nat)) : (s.check a b l).sysExec = s.sysExec := rfl
@[simp] theorem Mach.check_images (s : Mach) (a b : List Nat) (l : Option (Nat × Nat)) : (s.check a b l).images = s.images := rfl
@[simp] theorem Mach.check_free (s : Mach) (a b : List Nat) (l : Option (Nat × Nat)) : (s.check a b l).free = s.free := rfl
@[simp] theorem Mach.check_inbox (s : Mach) (a b : List Nat) (l : Option (Nat × Nat)) : (s.check a b l).inbox = s.inbox := rfl
@[simp] theorem Mach.check_focus (s : Mach) (a b : List Nat) (l : Option (Nat × Nat)) : (s.check a b l).focus = s.focus := rfl

/-! ### Mach.setCluster -/

@[simp] theorem Mach.setCluster_mem (s : Mach) (k : Nat) (x : Cluster) : (s.setCluster k x).mem = s.mem := rfl
@[simp] theorem Mach.setCluster_dirty (s : Mach) (k : Nat) (x : Cluster) : (s.setCluster k x).dirty = s.dirty := rfl
@[simp] theorem Mach.setCluster_bad (s : Mach) (k : Nat) (x : Cluster) : (s.setCluster k x).bad = s.bad := rfl
@[simp] theorem Mach.setCluster_badL2 (s : Mach) (k : Nat) (x : Cluster) : (s.setCluster k x).badL2 = s.badL2 := rfl
@[simp] theorem Mach.setCluster_checks (s : Mach) (k : Nat) (x : Cluster) : (s.setCluster k x).checks = s.checks := rfl
@[simp] theorem Mach.setCluster_l1 (s : Mach) (k : Nat) (x : Cluster) : (s.setCluster k x).l1 = s.l1 := rfl
@[simp] theorem Mach.setCluster_utlb (s : Mach) (k : Nat) (x : Cluster) : (s.setCluster k x).utlb = s.utlb := rfl
@[simp] theorem Mach.setCluster_ctlb (s : Mach) (k : Nat) (x : Cluster) : (s.setCluster k x).ctlb = s.ctlb := rfl
@[simp] theorem Mach.setCluster_channels (s : Mach) (k : Nat) (x : Cluster) : (s.setCluster k x).channels = s.channels := rfl
@[simp] theorem Mach.setCluster_clusters (s : Mach) (k : Nat) (x : Cluster) : (s.setCluster k x).clusters = s.clusters.put k x := rfl
@[simp] theorem Mach.setCluster_dies (s : Mach) (k : Nat) (x : Cluster) : (s.setCluster k x).dies = s.dies := rfl
@[simp] theorem Mach.setCluster_csched (s : Mach) (k : Nat) (x : Cluster) : (s.setCluster k x).csched = s.csched := rfl
@[simp] theorem Mach.setCluster_quota (s : Mach) (k : Nat) (x : Cluster) : (s.setCluster k x).quota = s.quota := rfl
@[simp] theorem Mach.setCluster_slots (s : Mach) (k : Nat) (x : Cluster) : (s.setCluster k x).slots = s.slots := rfl
@[simp] theorem Mach.setCluster_parts (s : Mach) (k : Nat) (x : Cluster) : (s.setCluster k x).parts = s.parts := rfl
@[simp] theorem Mach.setCluster_ctxs (s : Mach) (k : Nat) (x : Cluster) : (s.setCluster k x).ctxs = s.ctxs := rfl
@[simp] theorem Mach.setCluster_launches (s : Mach) (k : Nat) (x : Cluster) : (s.setCluster k x).launches = s.launches := rfl
@[simp] theorem Mach.setCluster_blocks (s : Mach) (k : Nat) (x : Cluster) : (s.setCluster k x).blocks = s.blocks := rfl
@[simp] theorem Mach.setCluster_nextId (s : Mach) (k : Nat) (x : Cluster) : (s.setCluster k x).nextId = s.nextId := rfl
@[simp] theorem Mach.setCluster_ages (s : Mach) (k : Nat) (x : Cluster) : (s.setCluster k x).ages = s.ages := rfl
@[simp] theorem Mach.setCluster_admin (s : Mach) (k : Nat) (x : Cluster) : (s.setCluster k x).admin = s.admin := rfl
@[simp] theorem Mach.setCluster_adminRing (s : Mach) (k : Nat) (x : Cluster) : (s.setCluster k x).adminRing = s.adminRing := rfl
@[simp] theorem Mach.setCluster_runlist (s : Mach) (k : Nat) (x : Cluster) : (s.setCluster k x).runlist = s.runlist := rfl
@[simp] theorem Mach.setCluster_bulks (s : Mach) (k : Nat) (x : Cluster) : (s.setCluster k x).bulks = s.bulks := rfl
@[simp] theorem Mach.setCluster_rma (s : Mach) (k : Nat) (x : Cluster) : (s.setCluster k x).rma = s.rma := rfl
@[simp] theorem Mach.setCluster_rmaSent (s : Mach) (k : Nat) (x : Cluster) : (s.setCluster k x).rmaSent = s.rmaSent := rfl
@[simp] theorem Mach.setCluster_gmsgs (s : Mach) (k : Nat) (x : Cluster) : (s.setCluster k x).gmsgs = s.gmsgs := rfl
@[simp] theorem Mach.setCluster_colls (s : Mach) (k : Nat) (x : Cluster) : (s.setCluster k x).colls = s.colls := rfl
@[simp] theorem Mach.setCluster_verdicts (s : Mach) (k : Nat) (x : Cluster) : (s.setCluster k x).verdicts = s.verdicts := rfl
@[simp] theorem Mach.setCluster_answers (s : Mach) (k : Nat) (x : Cluster) : (s.setCluster k x).answers = s.answers := rfl
@[simp] theorem Mach.setCluster_links (s : Mach) (k : Nat) (x : Cluster) : (s.setCluster k x).links = s.links := rfl
@[simp] theorem Mach.setCluster_cutSince (s : Mach) (k : Nat) (x : Cluster) : (s.setCluster k x).cutSince = s.cutSince := rfl
@[simp] theorem Mach.setCluster_rates (s : Mach) (k : Nat) (x : Cluster) : (s.setCluster k x).rates = s.rates := rfl
@[simp] theorem Mach.setCluster_flits (s : Mach) (k : Nat) (x : Cluster) : (s.setCluster k x).flits = s.flits := rfl
@[simp] theorem Mach.setCluster_pkg (s : Mach) (k : Nat) (x : Cluster) : (s.setCluster k x).pkg = s.pkg := rfl
@[simp] theorem Mach.setCluster_rails (s : Mach) (k : Nat) (x : Cluster) : (s.setCluster k x).rails = s.rails := rfl
@[simp] theorem Mach.setCluster_railAt (s : Mach) (k : Nat) (x : Cluster) : (s.setCluster k x).railAt = s.railAt := rfl
@[simp] theorem Mach.setCluster_railFail (s : Mach) (k : Nat) (x : Cluster) : (s.setCluster k x).railFail = s.railFail := rfl
@[simp] theorem Mach.setCluster_boot (s : Mach) (k : Nat) (x : Cluster) : (s.setCluster k x).boot = s.boot := rfl
@[simp] theorem Mach.setCluster_recovery (s : Mach) (k : Nat) (x : Cluster) : (s.setCluster k x).recovery = s.recovery := rfl
@[simp] theorem Mach.setCluster_banks (s : Mach) (k : Nat) (x : Cluster) : (s.setCluster k x).banks = s.banks := rfl
@[simp] theorem Mach.setCluster_active (s : Mach) (k : Nat) (x : Cluster) : (s.setCluster k x).active = s.active := rfl
@[simp] theorem Mach.setCluster_fresh (s : Mach) (k : Nat) (x : Cluster) : (s.setCluster k x).fresh = s.fresh := rfl
@[simp] theorem Mach.setCluster_digests (s : Mach) (k : Nat) (x : Cluster) : (s.setCluster k x).digests = s.digests := rfl
@[simp] theorem Mach.setCluster_sysExec (s : Mach) (k : Nat) (x : Cluster) : (s.setCluster k x).sysExec = s.sysExec := rfl
@[simp] theorem Mach.setCluster_images (s : Mach) (k : Nat) (x : Cluster) : (s.setCluster k x).images = s.images := rfl
@[simp] theorem Mach.setCluster_free (s : Mach) (k : Nat) (x : Cluster) : (s.setCluster k x).free = s.free := rfl
@[simp] theorem Mach.setCluster_inbox (s : Mach) (k : Nat) (x : Cluster) : (s.setCluster k x).inbox = s.inbox := rfl
@[simp] theorem Mach.setCluster_focus (s : Mach) (k : Nat) (x : Cluster) : (s.setCluster k x).focus = s.focus := rfl

/-! ### Mach.setChannel -/

@[simp] theorem Mach.setChannel_mem (s : Mach) (k : Nat) (x : Channel) : (s.setChannel k x).mem = s.mem := rfl
@[simp] theorem Mach.setChannel_dirty (s : Mach) (k : Nat) (x : Channel) : (s.setChannel k x).dirty = s.dirty := rfl
@[simp] theorem Mach.setChannel_bad (s : Mach) (k : Nat) (x : Channel) : (s.setChannel k x).bad = s.bad := rfl
@[simp] theorem Mach.setChannel_badL2 (s : Mach) (k : Nat) (x : Channel) : (s.setChannel k x).badL2 = s.badL2 := rfl
@[simp] theorem Mach.setChannel_checks (s : Mach) (k : Nat) (x : Channel) : (s.setChannel k x).checks = s.checks := rfl
@[simp] theorem Mach.setChannel_l1 (s : Mach) (k : Nat) (x : Channel) : (s.setChannel k x).l1 = s.l1 := rfl
@[simp] theorem Mach.setChannel_utlb (s : Mach) (k : Nat) (x : Channel) : (s.setChannel k x).utlb = s.utlb := rfl
@[simp] theorem Mach.setChannel_ctlb (s : Mach) (k : Nat) (x : Channel) : (s.setChannel k x).ctlb = s.ctlb := rfl
@[simp] theorem Mach.setChannel_channels (s : Mach) (k : Nat) (x : Channel) : (s.setChannel k x).channels = s.channels.put k x := rfl
@[simp] theorem Mach.setChannel_clusters (s : Mach) (k : Nat) (x : Channel) : (s.setChannel k x).clusters = s.clusters := rfl
@[simp] theorem Mach.setChannel_dies (s : Mach) (k : Nat) (x : Channel) : (s.setChannel k x).dies = s.dies := rfl
@[simp] theorem Mach.setChannel_csched (s : Mach) (k : Nat) (x : Channel) : (s.setChannel k x).csched = s.csched := rfl
@[simp] theorem Mach.setChannel_quota (s : Mach) (k : Nat) (x : Channel) : (s.setChannel k x).quota = s.quota := rfl
@[simp] theorem Mach.setChannel_slots (s : Mach) (k : Nat) (x : Channel) : (s.setChannel k x).slots = s.slots := rfl
@[simp] theorem Mach.setChannel_parts (s : Mach) (k : Nat) (x : Channel) : (s.setChannel k x).parts = s.parts := rfl
@[simp] theorem Mach.setChannel_ctxs (s : Mach) (k : Nat) (x : Channel) : (s.setChannel k x).ctxs = s.ctxs := rfl
@[simp] theorem Mach.setChannel_launches (s : Mach) (k : Nat) (x : Channel) : (s.setChannel k x).launches = s.launches := rfl
@[simp] theorem Mach.setChannel_blocks (s : Mach) (k : Nat) (x : Channel) : (s.setChannel k x).blocks = s.blocks := rfl
@[simp] theorem Mach.setChannel_nextId (s : Mach) (k : Nat) (x : Channel) : (s.setChannel k x).nextId = s.nextId := rfl
@[simp] theorem Mach.setChannel_ages (s : Mach) (k : Nat) (x : Channel) : (s.setChannel k x).ages = s.ages := rfl
@[simp] theorem Mach.setChannel_admin (s : Mach) (k : Nat) (x : Channel) : (s.setChannel k x).admin = s.admin := rfl
@[simp] theorem Mach.setChannel_adminRing (s : Mach) (k : Nat) (x : Channel) : (s.setChannel k x).adminRing = s.adminRing := rfl
@[simp] theorem Mach.setChannel_runlist (s : Mach) (k : Nat) (x : Channel) : (s.setChannel k x).runlist = s.runlist := rfl
@[simp] theorem Mach.setChannel_bulks (s : Mach) (k : Nat) (x : Channel) : (s.setChannel k x).bulks = s.bulks := rfl
@[simp] theorem Mach.setChannel_rma (s : Mach) (k : Nat) (x : Channel) : (s.setChannel k x).rma = s.rma := rfl
@[simp] theorem Mach.setChannel_rmaSent (s : Mach) (k : Nat) (x : Channel) : (s.setChannel k x).rmaSent = s.rmaSent := rfl
@[simp] theorem Mach.setChannel_gmsgs (s : Mach) (k : Nat) (x : Channel) : (s.setChannel k x).gmsgs = s.gmsgs := rfl
@[simp] theorem Mach.setChannel_colls (s : Mach) (k : Nat) (x : Channel) : (s.setChannel k x).colls = s.colls := rfl
@[simp] theorem Mach.setChannel_verdicts (s : Mach) (k : Nat) (x : Channel) : (s.setChannel k x).verdicts = s.verdicts := rfl
@[simp] theorem Mach.setChannel_answers (s : Mach) (k : Nat) (x : Channel) : (s.setChannel k x).answers = s.answers := rfl
@[simp] theorem Mach.setChannel_links (s : Mach) (k : Nat) (x : Channel) : (s.setChannel k x).links = s.links := rfl
@[simp] theorem Mach.setChannel_cutSince (s : Mach) (k : Nat) (x : Channel) : (s.setChannel k x).cutSince = s.cutSince := rfl
@[simp] theorem Mach.setChannel_rates (s : Mach) (k : Nat) (x : Channel) : (s.setChannel k x).rates = s.rates := rfl
@[simp] theorem Mach.setChannel_flits (s : Mach) (k : Nat) (x : Channel) : (s.setChannel k x).flits = s.flits := rfl
@[simp] theorem Mach.setChannel_pkg (s : Mach) (k : Nat) (x : Channel) : (s.setChannel k x).pkg = s.pkg := rfl
@[simp] theorem Mach.setChannel_rails (s : Mach) (k : Nat) (x : Channel) : (s.setChannel k x).rails = s.rails := rfl
@[simp] theorem Mach.setChannel_railAt (s : Mach) (k : Nat) (x : Channel) : (s.setChannel k x).railAt = s.railAt := rfl
@[simp] theorem Mach.setChannel_railFail (s : Mach) (k : Nat) (x : Channel) : (s.setChannel k x).railFail = s.railFail := rfl
@[simp] theorem Mach.setChannel_boot (s : Mach) (k : Nat) (x : Channel) : (s.setChannel k x).boot = s.boot := rfl
@[simp] theorem Mach.setChannel_recovery (s : Mach) (k : Nat) (x : Channel) : (s.setChannel k x).recovery = s.recovery := rfl
@[simp] theorem Mach.setChannel_banks (s : Mach) (k : Nat) (x : Channel) : (s.setChannel k x).banks = s.banks := rfl
@[simp] theorem Mach.setChannel_active (s : Mach) (k : Nat) (x : Channel) : (s.setChannel k x).active = s.active := rfl
@[simp] theorem Mach.setChannel_fresh (s : Mach) (k : Nat) (x : Channel) : (s.setChannel k x).fresh = s.fresh := rfl
@[simp] theorem Mach.setChannel_digests (s : Mach) (k : Nat) (x : Channel) : (s.setChannel k x).digests = s.digests := rfl
@[simp] theorem Mach.setChannel_sysExec (s : Mach) (k : Nat) (x : Channel) : (s.setChannel k x).sysExec = s.sysExec := rfl
@[simp] theorem Mach.setChannel_images (s : Mach) (k : Nat) (x : Channel) : (s.setChannel k x).images = s.images := rfl
@[simp] theorem Mach.setChannel_free (s : Mach) (k : Nat) (x : Channel) : (s.setChannel k x).free = s.free := rfl
@[simp] theorem Mach.setChannel_inbox (s : Mach) (k : Nat) (x : Channel) : (s.setChannel k x).inbox = s.inbox := rfl
@[simp] theorem Mach.setChannel_focus (s : Mach) (k : Nat) (x : Channel) : (s.setChannel k x).focus = s.focus := rfl

/-! ### Mach.setSlotOf -/

@[simp] theorem Mach.setSlotOf_mem (s : Mach) (core k : Nat) (x : SlotSt) : (s.setSlotOf core k x).mem = s.mem := rfl
@[simp] theorem Mach.setSlotOf_dirty (s : Mach) (core k : Nat) (x : SlotSt) : (s.setSlotOf core k x).dirty = s.dirty := rfl
@[simp] theorem Mach.setSlotOf_bad (s : Mach) (core k : Nat) (x : SlotSt) : (s.setSlotOf core k x).bad = s.bad := rfl
@[simp] theorem Mach.setSlotOf_badL2 (s : Mach) (core k : Nat) (x : SlotSt) : (s.setSlotOf core k x).badL2 = s.badL2 := rfl
@[simp] theorem Mach.setSlotOf_checks (s : Mach) (core k : Nat) (x : SlotSt) : (s.setSlotOf core k x).checks = s.checks := rfl
@[simp] theorem Mach.setSlotOf_l1 (s : Mach) (core k : Nat) (x : SlotSt) : (s.setSlotOf core k x).l1 = s.l1 := rfl
@[simp] theorem Mach.setSlotOf_utlb (s : Mach) (core k : Nat) (x : SlotSt) : (s.setSlotOf core k x).utlb = s.utlb := rfl
@[simp] theorem Mach.setSlotOf_ctlb (s : Mach) (core k : Nat) (x : SlotSt) : (s.setSlotOf core k x).ctlb = s.ctlb := rfl
@[simp] theorem Mach.setSlotOf_channels (s : Mach) (core k : Nat) (x : SlotSt) : (s.setSlotOf core k x).channels = s.channels := rfl
@[simp] theorem Mach.setSlotOf_clusters (s : Mach) (core k : Nat) (x : SlotSt) : (s.setSlotOf core k x).clusters = s.clusters := rfl
@[simp] theorem Mach.setSlotOf_dies (s : Mach) (core k : Nat) (x : SlotSt) : (s.setSlotOf core k x).dies = s.dies := rfl
@[simp] theorem Mach.setSlotOf_csched (s : Mach) (core k : Nat) (x : SlotSt) : (s.setSlotOf core k x).csched = s.csched := rfl
@[simp] theorem Mach.setSlotOf_quota (s : Mach) (core k : Nat) (x : SlotSt) : (s.setSlotOf core k x).quota = s.quota := rfl
@[simp] theorem Mach.setSlotOf_slots (s : Mach) (core k : Nat) (x : SlotSt) : (s.setSlotOf core k x).slots = s.slots.put (core * 4 + k) x := rfl
@[simp] theorem Mach.setSlotOf_parts (s : Mach) (core k : Nat) (x : SlotSt) : (s.setSlotOf core k x).parts = s.parts := rfl
@[simp] theorem Mach.setSlotOf_ctxs (s : Mach) (core k : Nat) (x : SlotSt) : (s.setSlotOf core k x).ctxs = s.ctxs := rfl
@[simp] theorem Mach.setSlotOf_launches (s : Mach) (core k : Nat) (x : SlotSt) : (s.setSlotOf core k x).launches = s.launches := rfl
@[simp] theorem Mach.setSlotOf_blocks (s : Mach) (core k : Nat) (x : SlotSt) : (s.setSlotOf core k x).blocks = s.blocks := rfl
@[simp] theorem Mach.setSlotOf_nextId (s : Mach) (core k : Nat) (x : SlotSt) : (s.setSlotOf core k x).nextId = s.nextId := rfl
@[simp] theorem Mach.setSlotOf_ages (s : Mach) (core k : Nat) (x : SlotSt) : (s.setSlotOf core k x).ages = s.ages := rfl
@[simp] theorem Mach.setSlotOf_admin (s : Mach) (core k : Nat) (x : SlotSt) : (s.setSlotOf core k x).admin = s.admin := rfl
@[simp] theorem Mach.setSlotOf_adminRing (s : Mach) (core k : Nat) (x : SlotSt) : (s.setSlotOf core k x).adminRing = s.adminRing := rfl
@[simp] theorem Mach.setSlotOf_runlist (s : Mach) (core k : Nat) (x : SlotSt) : (s.setSlotOf core k x).runlist = s.runlist := rfl
@[simp] theorem Mach.setSlotOf_bulks (s : Mach) (core k : Nat) (x : SlotSt) : (s.setSlotOf core k x).bulks = s.bulks := rfl
@[simp] theorem Mach.setSlotOf_rma (s : Mach) (core k : Nat) (x : SlotSt) : (s.setSlotOf core k x).rma = s.rma := rfl
@[simp] theorem Mach.setSlotOf_rmaSent (s : Mach) (core k : Nat) (x : SlotSt) : (s.setSlotOf core k x).rmaSent = s.rmaSent := rfl
@[simp] theorem Mach.setSlotOf_gmsgs (s : Mach) (core k : Nat) (x : SlotSt) : (s.setSlotOf core k x).gmsgs = s.gmsgs := rfl
@[simp] theorem Mach.setSlotOf_colls (s : Mach) (core k : Nat) (x : SlotSt) : (s.setSlotOf core k x).colls = s.colls := rfl
@[simp] theorem Mach.setSlotOf_verdicts (s : Mach) (core k : Nat) (x : SlotSt) : (s.setSlotOf core k x).verdicts = s.verdicts := rfl
@[simp] theorem Mach.setSlotOf_answers (s : Mach) (core k : Nat) (x : SlotSt) : (s.setSlotOf core k x).answers = s.answers := rfl
@[simp] theorem Mach.setSlotOf_links (s : Mach) (core k : Nat) (x : SlotSt) : (s.setSlotOf core k x).links = s.links := rfl
@[simp] theorem Mach.setSlotOf_cutSince (s : Mach) (core k : Nat) (x : SlotSt) : (s.setSlotOf core k x).cutSince = s.cutSince := rfl
@[simp] theorem Mach.setSlotOf_rates (s : Mach) (core k : Nat) (x : SlotSt) : (s.setSlotOf core k x).rates = s.rates := rfl
@[simp] theorem Mach.setSlotOf_flits (s : Mach) (core k : Nat) (x : SlotSt) : (s.setSlotOf core k x).flits = s.flits := rfl
@[simp] theorem Mach.setSlotOf_pkg (s : Mach) (core k : Nat) (x : SlotSt) : (s.setSlotOf core k x).pkg = s.pkg := rfl
@[simp] theorem Mach.setSlotOf_rails (s : Mach) (core k : Nat) (x : SlotSt) : (s.setSlotOf core k x).rails = s.rails := rfl
@[simp] theorem Mach.setSlotOf_railAt (s : Mach) (core k : Nat) (x : SlotSt) : (s.setSlotOf core k x).railAt = s.railAt := rfl
@[simp] theorem Mach.setSlotOf_railFail (s : Mach) (core k : Nat) (x : SlotSt) : (s.setSlotOf core k x).railFail = s.railFail := rfl
@[simp] theorem Mach.setSlotOf_boot (s : Mach) (core k : Nat) (x : SlotSt) : (s.setSlotOf core k x).boot = s.boot := rfl
@[simp] theorem Mach.setSlotOf_recovery (s : Mach) (core k : Nat) (x : SlotSt) : (s.setSlotOf core k x).recovery = s.recovery := rfl
@[simp] theorem Mach.setSlotOf_banks (s : Mach) (core k : Nat) (x : SlotSt) : (s.setSlotOf core k x).banks = s.banks := rfl
@[simp] theorem Mach.setSlotOf_active (s : Mach) (core k : Nat) (x : SlotSt) : (s.setSlotOf core k x).active = s.active := rfl
@[simp] theorem Mach.setSlotOf_fresh (s : Mach) (core k : Nat) (x : SlotSt) : (s.setSlotOf core k x).fresh = s.fresh := rfl
@[simp] theorem Mach.setSlotOf_digests (s : Mach) (core k : Nat) (x : SlotSt) : (s.setSlotOf core k x).digests = s.digests := rfl
@[simp] theorem Mach.setSlotOf_sysExec (s : Mach) (core k : Nat) (x : SlotSt) : (s.setSlotOf core k x).sysExec = s.sysExec := rfl
@[simp] theorem Mach.setSlotOf_images (s : Mach) (core k : Nat) (x : SlotSt) : (s.setSlotOf core k x).images = s.images := rfl
@[simp] theorem Mach.setSlotOf_free (s : Mach) (core k : Nat) (x : SlotSt) : (s.setSlotOf core k x).free = s.free := rfl
@[simp] theorem Mach.setSlotOf_inbox (s : Mach) (core k : Nat) (x : SlotSt) : (s.setSlotOf core k x).inbox = s.inbox := rfl
@[simp] theorem Mach.setSlotOf_focus (s : Mach) (core k : Nat) (x : SlotSt) : (s.setSlotOf core k x).focus = s.focus := rfl

/-! ### Mach.setCtx -/

@[simp] theorem Mach.setCtx_mem (s : Mach) (c : Nat) (x : Ctx) : (s.setCtx c x).mem = s.mem := rfl
@[simp] theorem Mach.setCtx_dirty (s : Mach) (c : Nat) (x : Ctx) : (s.setCtx c x).dirty = s.dirty := rfl
@[simp] theorem Mach.setCtx_bad (s : Mach) (c : Nat) (x : Ctx) : (s.setCtx c x).bad = s.bad := rfl
@[simp] theorem Mach.setCtx_badL2 (s : Mach) (c : Nat) (x : Ctx) : (s.setCtx c x).badL2 = s.badL2 := rfl
@[simp] theorem Mach.setCtx_checks (s : Mach) (c : Nat) (x : Ctx) : (s.setCtx c x).checks = s.checks := rfl
@[simp] theorem Mach.setCtx_l1 (s : Mach) (c : Nat) (x : Ctx) : (s.setCtx c x).l1 = s.l1 := rfl
@[simp] theorem Mach.setCtx_utlb (s : Mach) (c : Nat) (x : Ctx) : (s.setCtx c x).utlb = s.utlb := rfl
@[simp] theorem Mach.setCtx_ctlb (s : Mach) (c : Nat) (x : Ctx) : (s.setCtx c x).ctlb = s.ctlb := rfl
@[simp] theorem Mach.setCtx_channels (s : Mach) (c : Nat) (x : Ctx) : (s.setCtx c x).channels = s.channels := rfl
@[simp] theorem Mach.setCtx_clusters (s : Mach) (c : Nat) (x : Ctx) : (s.setCtx c x).clusters = s.clusters := rfl
@[simp] theorem Mach.setCtx_dies (s : Mach) (c : Nat) (x : Ctx) : (s.setCtx c x).dies = s.dies := rfl
@[simp] theorem Mach.setCtx_csched (s : Mach) (c : Nat) (x : Ctx) : (s.setCtx c x).csched = s.csched := rfl
@[simp] theorem Mach.setCtx_quota (s : Mach) (c : Nat) (x : Ctx) : (s.setCtx c x).quota = s.quota := rfl
@[simp] theorem Mach.setCtx_slots (s : Mach) (c : Nat) (x : Ctx) : (s.setCtx c x).slots = s.slots := rfl
@[simp] theorem Mach.setCtx_parts (s : Mach) (c : Nat) (x : Ctx) : (s.setCtx c x).parts = s.parts := rfl
@[simp] theorem Mach.setCtx_ctxs (s : Mach) (c : Nat) (x : Ctx) : (s.setCtx c x).ctxs = s.ctxs.put c x := rfl
@[simp] theorem Mach.setCtx_launches (s : Mach) (c : Nat) (x : Ctx) : (s.setCtx c x).launches = s.launches := rfl
@[simp] theorem Mach.setCtx_blocks (s : Mach) (c : Nat) (x : Ctx) : (s.setCtx c x).blocks = s.blocks := rfl
@[simp] theorem Mach.setCtx_nextId (s : Mach) (c : Nat) (x : Ctx) : (s.setCtx c x).nextId = s.nextId := rfl
@[simp] theorem Mach.setCtx_ages (s : Mach) (c : Nat) (x : Ctx) : (s.setCtx c x).ages = s.ages := rfl
@[simp] theorem Mach.setCtx_admin (s : Mach) (c : Nat) (x : Ctx) : (s.setCtx c x).admin = s.admin := rfl
@[simp] theorem Mach.setCtx_adminRing (s : Mach) (c : Nat) (x : Ctx) : (s.setCtx c x).adminRing = s.adminRing := rfl
@[simp] theorem Mach.setCtx_runlist (s : Mach) (c : Nat) (x : Ctx) : (s.setCtx c x).runlist = s.runlist := rfl
@[simp] theorem Mach.setCtx_bulks (s : Mach) (c : Nat) (x : Ctx) : (s.setCtx c x).bulks = s.bulks := rfl
@[simp] theorem Mach.setCtx_rma (s : Mach) (c : Nat) (x : Ctx) : (s.setCtx c x).rma = s.rma := rfl
@[simp] theorem Mach.setCtx_rmaSent (s : Mach) (c : Nat) (x : Ctx) : (s.setCtx c x).rmaSent = s.rmaSent := rfl
@[simp] theorem Mach.setCtx_gmsgs (s : Mach) (c : Nat) (x : Ctx) : (s.setCtx c x).gmsgs = s.gmsgs := rfl
@[simp] theorem Mach.setCtx_colls (s : Mach) (c : Nat) (x : Ctx) : (s.setCtx c x).colls = s.colls := rfl
@[simp] theorem Mach.setCtx_verdicts (s : Mach) (c : Nat) (x : Ctx) : (s.setCtx c x).verdicts = s.verdicts := rfl
@[simp] theorem Mach.setCtx_answers (s : Mach) (c : Nat) (x : Ctx) : (s.setCtx c x).answers = s.answers := rfl
@[simp] theorem Mach.setCtx_links (s : Mach) (c : Nat) (x : Ctx) : (s.setCtx c x).links = s.links := rfl
@[simp] theorem Mach.setCtx_cutSince (s : Mach) (c : Nat) (x : Ctx) : (s.setCtx c x).cutSince = s.cutSince := rfl
@[simp] theorem Mach.setCtx_rates (s : Mach) (c : Nat) (x : Ctx) : (s.setCtx c x).rates = s.rates := rfl
@[simp] theorem Mach.setCtx_flits (s : Mach) (c : Nat) (x : Ctx) : (s.setCtx c x).flits = s.flits := rfl
@[simp] theorem Mach.setCtx_pkg (s : Mach) (c : Nat) (x : Ctx) : (s.setCtx c x).pkg = s.pkg := rfl
@[simp] theorem Mach.setCtx_rails (s : Mach) (c : Nat) (x : Ctx) : (s.setCtx c x).rails = s.rails := rfl
@[simp] theorem Mach.setCtx_railAt (s : Mach) (c : Nat) (x : Ctx) : (s.setCtx c x).railAt = s.railAt := rfl
@[simp] theorem Mach.setCtx_railFail (s : Mach) (c : Nat) (x : Ctx) : (s.setCtx c x).railFail = s.railFail := rfl
@[simp] theorem Mach.setCtx_boot (s : Mach) (c : Nat) (x : Ctx) : (s.setCtx c x).boot = s.boot := rfl
@[simp] theorem Mach.setCtx_recovery (s : Mach) (c : Nat) (x : Ctx) : (s.setCtx c x).recovery = s.recovery := rfl
@[simp] theorem Mach.setCtx_banks (s : Mach) (c : Nat) (x : Ctx) : (s.setCtx c x).banks = s.banks := rfl
@[simp] theorem Mach.setCtx_active (s : Mach) (c : Nat) (x : Ctx) : (s.setCtx c x).active = s.active := rfl
@[simp] theorem Mach.setCtx_fresh (s : Mach) (c : Nat) (x : Ctx) : (s.setCtx c x).fresh = s.fresh := rfl
@[simp] theorem Mach.setCtx_digests (s : Mach) (c : Nat) (x : Ctx) : (s.setCtx c x).digests = s.digests := rfl
@[simp] theorem Mach.setCtx_sysExec (s : Mach) (c : Nat) (x : Ctx) : (s.setCtx c x).sysExec = s.sysExec := rfl
@[simp] theorem Mach.setCtx_images (s : Mach) (c : Nat) (x : Ctx) : (s.setCtx c x).images = s.images := rfl
@[simp] theorem Mach.setCtx_free (s : Mach) (c : Nat) (x : Ctx) : (s.setCtx c x).free = s.free := rfl
@[simp] theorem Mach.setCtx_inbox (s : Mach) (c : Nat) (x : Ctx) : (s.setCtx c x).inbox = s.inbox := rfl
@[simp] theorem Mach.setCtx_focus (s : Mach) (c : Nat) (x : Ctx) : (s.setCtx c x).focus = s.focus := rfl

/-! ### Mach.setPart -/

@[simp] theorem Mach.setPart_mem (s : Mach) (p : Nat) (x : Part) : (s.setPart p x).mem = s.mem := rfl
@[simp] theorem Mach.setPart_dirty (s : Mach) (p : Nat) (x : Part) : (s.setPart p x).dirty = s.dirty := rfl
@[simp] theorem Mach.setPart_bad (s : Mach) (p : Nat) (x : Part) : (s.setPart p x).bad = s.bad := rfl
@[simp] theorem Mach.setPart_badL2 (s : Mach) (p : Nat) (x : Part) : (s.setPart p x).badL2 = s.badL2 := rfl
@[simp] theorem Mach.setPart_checks (s : Mach) (p : Nat) (x : Part) : (s.setPart p x).checks = s.checks := rfl
@[simp] theorem Mach.setPart_l1 (s : Mach) (p : Nat) (x : Part) : (s.setPart p x).l1 = s.l1 := rfl
@[simp] theorem Mach.setPart_utlb (s : Mach) (p : Nat) (x : Part) : (s.setPart p x).utlb = s.utlb := rfl
@[simp] theorem Mach.setPart_ctlb (s : Mach) (p : Nat) (x : Part) : (s.setPart p x).ctlb = s.ctlb := rfl
@[simp] theorem Mach.setPart_channels (s : Mach) (p : Nat) (x : Part) : (s.setPart p x).channels = s.channels := rfl
@[simp] theorem Mach.setPart_clusters (s : Mach) (p : Nat) (x : Part) : (s.setPart p x).clusters = s.clusters := rfl
@[simp] theorem Mach.setPart_dies (s : Mach) (p : Nat) (x : Part) : (s.setPart p x).dies = s.dies := rfl
@[simp] theorem Mach.setPart_csched (s : Mach) (p : Nat) (x : Part) : (s.setPart p x).csched = s.csched := rfl
@[simp] theorem Mach.setPart_quota (s : Mach) (p : Nat) (x : Part) : (s.setPart p x).quota = s.quota := rfl
@[simp] theorem Mach.setPart_slots (s : Mach) (p : Nat) (x : Part) : (s.setPart p x).slots = s.slots := rfl
@[simp] theorem Mach.setPart_parts (s : Mach) (p : Nat) (x : Part) : (s.setPart p x).parts = s.parts.put p x := rfl
@[simp] theorem Mach.setPart_ctxs (s : Mach) (p : Nat) (x : Part) : (s.setPart p x).ctxs = s.ctxs := rfl
@[simp] theorem Mach.setPart_launches (s : Mach) (p : Nat) (x : Part) : (s.setPart p x).launches = s.launches := rfl
@[simp] theorem Mach.setPart_blocks (s : Mach) (p : Nat) (x : Part) : (s.setPart p x).blocks = s.blocks := rfl
@[simp] theorem Mach.setPart_nextId (s : Mach) (p : Nat) (x : Part) : (s.setPart p x).nextId = s.nextId := rfl
@[simp] theorem Mach.setPart_ages (s : Mach) (p : Nat) (x : Part) : (s.setPart p x).ages = s.ages := rfl
@[simp] theorem Mach.setPart_admin (s : Mach) (p : Nat) (x : Part) : (s.setPart p x).admin = s.admin := rfl
@[simp] theorem Mach.setPart_adminRing (s : Mach) (p : Nat) (x : Part) : (s.setPart p x).adminRing = s.adminRing := rfl
@[simp] theorem Mach.setPart_runlist (s : Mach) (p : Nat) (x : Part) : (s.setPart p x).runlist = s.runlist := rfl
@[simp] theorem Mach.setPart_bulks (s : Mach) (p : Nat) (x : Part) : (s.setPart p x).bulks = s.bulks := rfl
@[simp] theorem Mach.setPart_rma (s : Mach) (p : Nat) (x : Part) : (s.setPart p x).rma = s.rma := rfl
@[simp] theorem Mach.setPart_rmaSent (s : Mach) (p : Nat) (x : Part) : (s.setPart p x).rmaSent = s.rmaSent := rfl
@[simp] theorem Mach.setPart_gmsgs (s : Mach) (p : Nat) (x : Part) : (s.setPart p x).gmsgs = s.gmsgs := rfl
@[simp] theorem Mach.setPart_colls (s : Mach) (p : Nat) (x : Part) : (s.setPart p x).colls = s.colls := rfl
@[simp] theorem Mach.setPart_verdicts (s : Mach) (p : Nat) (x : Part) : (s.setPart p x).verdicts = s.verdicts := rfl
@[simp] theorem Mach.setPart_answers (s : Mach) (p : Nat) (x : Part) : (s.setPart p x).answers = s.answers := rfl
@[simp] theorem Mach.setPart_links (s : Mach) (p : Nat) (x : Part) : (s.setPart p x).links = s.links := rfl
@[simp] theorem Mach.setPart_cutSince (s : Mach) (p : Nat) (x : Part) : (s.setPart p x).cutSince = s.cutSince := rfl
@[simp] theorem Mach.setPart_rates (s : Mach) (p : Nat) (x : Part) : (s.setPart p x).rates = s.rates := rfl
@[simp] theorem Mach.setPart_flits (s : Mach) (p : Nat) (x : Part) : (s.setPart p x).flits = s.flits := rfl
@[simp] theorem Mach.setPart_pkg (s : Mach) (p : Nat) (x : Part) : (s.setPart p x).pkg = s.pkg := rfl
@[simp] theorem Mach.setPart_rails (s : Mach) (p : Nat) (x : Part) : (s.setPart p x).rails = s.rails := rfl
@[simp] theorem Mach.setPart_railAt (s : Mach) (p : Nat) (x : Part) : (s.setPart p x).railAt = s.railAt := rfl
@[simp] theorem Mach.setPart_railFail (s : Mach) (p : Nat) (x : Part) : (s.setPart p x).railFail = s.railFail := rfl
@[simp] theorem Mach.setPart_boot (s : Mach) (p : Nat) (x : Part) : (s.setPart p x).boot = s.boot := rfl
@[simp] theorem Mach.setPart_recovery (s : Mach) (p : Nat) (x : Part) : (s.setPart p x).recovery = s.recovery := rfl
@[simp] theorem Mach.setPart_banks (s : Mach) (p : Nat) (x : Part) : (s.setPart p x).banks = s.banks := rfl
@[simp] theorem Mach.setPart_active (s : Mach) (p : Nat) (x : Part) : (s.setPart p x).active = s.active := rfl
@[simp] theorem Mach.setPart_fresh (s : Mach) (p : Nat) (x : Part) : (s.setPart p x).fresh = s.fresh := rfl
@[simp] theorem Mach.setPart_digests (s : Mach) (p : Nat) (x : Part) : (s.setPart p x).digests = s.digests := rfl
@[simp] theorem Mach.setPart_sysExec (s : Mach) (p : Nat) (x : Part) : (s.setPart p x).sysExec = s.sysExec := rfl
@[simp] theorem Mach.setPart_images (s : Mach) (p : Nat) (x : Part) : (s.setPart p x).images = s.images := rfl
@[simp] theorem Mach.setPart_free (s : Mach) (p : Nat) (x : Part) : (s.setPart p x).free = s.free := rfl
@[simp] theorem Mach.setPart_inbox (s : Mach) (p : Nat) (x : Part) : (s.setPart p x).inbox = s.inbox := rfl
@[simp] theorem Mach.setPart_focus (s : Mach) (p : Nat) (x : Part) : (s.setPart p x).focus = s.focus := rfl

/-! ### Mach.purge -/

@[simp] theorem Mach.purge_mem (s : Mach) (ks : List Nat) : (s.purge ks).mem = s.mem := rfl
@[simp] theorem Mach.purge_dirty (s : Mach) (ks : List Nat) : (s.purge ks).dirty = s.dirty := rfl
@[simp] theorem Mach.purge_bad (s : Mach) (ks : List Nat) : (s.purge ks).bad = s.bad := rfl
@[simp] theorem Mach.purge_badL2 (s : Mach) (ks : List Nat) : (s.purge ks).badL2 = s.badL2 := rfl
@[simp] theorem Mach.purge_checks (s : Mach) (ks : List Nat) : (s.purge ks).checks = s.checks := rfl
@[simp] theorem Mach.purge_utlb (s : Mach) (ks : List Nat) : (s.purge ks).utlb = s.utlb := rfl
@[simp] theorem Mach.purge_ctlb (s : Mach) (ks : List Nat) : (s.purge ks).ctlb = s.ctlb := rfl
@[simp] theorem Mach.purge_channels (s : Mach) (ks : List Nat) : (s.purge ks).channels = s.channels := rfl
@[simp] theorem Mach.purge_clusters (s : Mach) (ks : List Nat) : (s.purge ks).clusters = s.clusters := rfl
@[simp] theorem Mach.purge_dies (s : Mach) (ks : List Nat) : (s.purge ks).dies = s.dies := rfl
@[simp] theorem Mach.purge_csched (s : Mach) (ks : List Nat) : (s.purge ks).csched = s.csched := rfl
@[simp] theorem Mach.purge_quota (s : Mach) (ks : List Nat) : (s.purge ks).quota = s.quota := rfl
@[simp] theorem Mach.purge_slots (s : Mach) (ks : List Nat) : (s.purge ks).slots = s.slots := rfl
@[simp] theorem Mach.purge_parts (s : Mach) (ks : List Nat) : (s.purge ks).parts = s.parts := rfl
@[simp] theorem Mach.purge_ctxs (s : Mach) (ks : List Nat) : (s.purge ks).ctxs = s.ctxs := rfl
@[simp] theorem Mach.purge_launches (s : Mach) (ks : List Nat) : (s.purge ks).launches = s.launches := rfl
@[simp] theorem Mach.purge_blocks (s : Mach) (ks : List Nat) : (s.purge ks).blocks = s.blocks := rfl
@[simp] theorem Mach.purge_nextId (s : Mach) (ks : List Nat) : (s.purge ks).nextId = s.nextId := rfl
@[simp] theorem Mach.purge_ages (s : Mach) (ks : List Nat) : (s.purge ks).ages = s.ages := rfl
@[simp] theorem Mach.purge_admin (s : Mach) (ks : List Nat) : (s.purge ks).admin = s.admin := rfl
@[simp] theorem Mach.purge_adminRing (s : Mach) (ks : List Nat) : (s.purge ks).adminRing = s.adminRing := rfl
@[simp] theorem Mach.purge_runlist (s : Mach) (ks : List Nat) : (s.purge ks).runlist = s.runlist := rfl
@[simp] theorem Mach.purge_bulks (s : Mach) (ks : List Nat) : (s.purge ks).bulks = s.bulks := rfl
@[simp] theorem Mach.purge_rma (s : Mach) (ks : List Nat) : (s.purge ks).rma = s.rma := rfl
@[simp] theorem Mach.purge_rmaSent (s : Mach) (ks : List Nat) : (s.purge ks).rmaSent = s.rmaSent := rfl
@[simp] theorem Mach.purge_gmsgs (s : Mach) (ks : List Nat) : (s.purge ks).gmsgs = s.gmsgs := rfl
@[simp] theorem Mach.purge_colls (s : Mach) (ks : List Nat) : (s.purge ks).colls = s.colls := rfl
@[simp] theorem Mach.purge_verdicts (s : Mach) (ks : List Nat) : (s.purge ks).verdicts = s.verdicts := rfl
@[simp] theorem Mach.purge_answers (s : Mach) (ks : List Nat) : (s.purge ks).answers = s.answers := rfl
@[simp] theorem Mach.purge_links (s : Mach) (ks : List Nat) : (s.purge ks).links = s.links := rfl
@[simp] theorem Mach.purge_cutSince (s : Mach) (ks : List Nat) : (s.purge ks).cutSince = s.cutSince := rfl
@[simp] theorem Mach.purge_rates (s : Mach) (ks : List Nat) : (s.purge ks).rates = s.rates := rfl
@[simp] theorem Mach.purge_flits (s : Mach) (ks : List Nat) : (s.purge ks).flits = s.flits := rfl
@[simp] theorem Mach.purge_pkg (s : Mach) (ks : List Nat) : (s.purge ks).pkg = s.pkg := rfl
@[simp] theorem Mach.purge_rails (s : Mach) (ks : List Nat) : (s.purge ks).rails = s.rails := rfl
@[simp] theorem Mach.purge_railAt (s : Mach) (ks : List Nat) : (s.purge ks).railAt = s.railAt := rfl
@[simp] theorem Mach.purge_railFail (s : Mach) (ks : List Nat) : (s.purge ks).railFail = s.railFail := rfl
@[simp] theorem Mach.purge_boot (s : Mach) (ks : List Nat) : (s.purge ks).boot = s.boot := rfl
@[simp] theorem Mach.purge_recovery (s : Mach) (ks : List Nat) : (s.purge ks).recovery = s.recovery := rfl
@[simp] theorem Mach.purge_banks (s : Mach) (ks : List Nat) : (s.purge ks).banks = s.banks := rfl
@[simp] theorem Mach.purge_active (s : Mach) (ks : List Nat) : (s.purge ks).active = s.active := rfl
@[simp] theorem Mach.purge_fresh (s : Mach) (ks : List Nat) : (s.purge ks).fresh = s.fresh := rfl
@[simp] theorem Mach.purge_digests (s : Mach) (ks : List Nat) : (s.purge ks).digests = s.digests := rfl
@[simp] theorem Mach.purge_sysExec (s : Mach) (ks : List Nat) : (s.purge ks).sysExec = s.sysExec := rfl
@[simp] theorem Mach.purge_images (s : Mach) (ks : List Nat) : (s.purge ks).images = s.images := rfl
@[simp] theorem Mach.purge_free (s : Mach) (ks : List Nat) : (s.purge ks).free = s.free := rfl
@[simp] theorem Mach.purge_inbox (s : Mach) (ks : List Nat) : (s.purge ks).inbox = s.inbox := rfl
@[simp] theorem Mach.purge_focus (s : Mach) (ks : List Nat) : (s.purge ks).focus = s.focus := rfl

/-! ### Block.setWarp -/

@[simp] theorem Block.setWarp_launch (s : Block) (w : Nat) (x : Warp) : (s.setWarp w x).launch = s.launch := rfl
@[simp] theorem Block.setWarp_ctx (s : Block) (w : Nat) (x : Warp) : (s.setWarp w x).ctx = s.ctx := rfl
@[simp] theorem Block.setWarp_part (s : Block) (w : Nat) (x : Warp) : (s.setWarp w x).part = s.part := rfl
@[simp] theorem Block.setWarp_core (s : Block) (w : Nat) (x : Warp) : (s.setWarp w x).core = s.core := rfl
@[simp] theorem Block.setWarp_half (s : Block) (w : Nat) (x : Warp) : (s.setWarp w x).half = s.half := rfl
@[simp] theorem Block.setWarp_b (s : Block) (w : Nat) (x : Warp) : (s.setWarp w x).b = s.b := rfl
@[simp] theorem Block.setWarp_x (s : Block) (w : Nat) (x : Warp) : (s.setWarp w x).x = s.x := rfl
@[simp] theorem Block.setWarp_y (s : Block) (w : Nat) (x : Warp) : (s.setWarp w x).y = s.y := rfl
@[simp] theorem Block.setWarp_z (s : Block) (w : Nat) (x : Warp) : (s.setWarp w x).z = s.z := rfl
@[simp] theorem Block.setWarp_age (s : Block) (w : Nat) (x : Warp) : (s.setWarp w x).age = s.age := rfl
@[simp] theorem Block.setWarp_width (s : Block) (w : Nat) (x : Warp) : (s.setWarp w x).width = s.width := rfl
@[simp] theorem Block.setWarp_warpCount (s : Block) (w : Nat) (x : Warp) : (s.setWarp w x).warpCount = s.warpCount := rfl
@[simp] theorem Block.setWarp_win (s : Block) (w : Nat) (x : Warp) : (s.setWarp w x).win = s.win := rfl
@[simp] theorem Block.setWarp_uni (s : Block) (w : Nat) (x : Warp) : (s.setWarp w x).uni = s.uni := rfl
@[simp] theorem Block.setWarp_acc (s : Block) (w : Nat) (x : Warp) : (s.setWarp w x).acc = s.acc := rfl
@[simp] theorem Block.setWarp_bst (s : Block) (w : Nat) (x : Warp) : (s.setWarp w x).bst = s.bst := rfl
@[simp] theorem Block.setWarp_scr (s : Block) (w : Nat) (x : Warp) : (s.setWarp w x).scr = s.scr := rfl
@[simp] theorem Block.setWarp_prod (s : Block) (w : Nat) (x : Warp) : (s.setWarp w x).prod = s.prod := rfl
@[simp] theorem Block.setWarp_warps (s : Block) (w : Nat) (x : Warp) : (s.setWarp w x).warps = s.warps.put w x := rfl
@[simp] theorem Block.setWarp_scratch (s : Block) (w : Nat) (x : Warp) : (s.setWarp w x).scratch = s.scratch := rfl
@[simp] theorem Block.setWarp_fslots (s : Block) (w : Nat) (x : Warp) : (s.setWarp w x).fslots = s.fslots := rfl
@[simp] theorem Block.setWarp_tiles (s : Block) (w : Nat) (x : Warp) : (s.setWarp w x).tiles = s.tiles := rfl
@[simp] theorem Block.setWarp_tags (s : Block) (w : Nat) (x : Warp) : (s.setWarp w x).tags = s.tags := rfl
@[simp] theorem Block.setWarp_bstage (s : Block) (w : Nat) (x : Warp) : (s.setWarp w x).bstage = s.bstage := rfl
@[simp] theorem Block.setWarp_hist (s : Block) (w : Nat) (x : Warp) : (s.setWarp w x).hist = s.hist := rfl
@[simp] theorem Block.setWarp_drains (s : Block) (w : Nat) (x : Warp) : (s.setWarp w x).drains = s.drains := rfl
@[simp] theorem Block.setWarp_broken (s : Block) (w : Nat) (x : Warp) : (s.setWarp w x).broken = s.broken := rfl
@[simp] theorem Block.setWarp_arm (s : Block) (w : Nat) (x : Warp) : (s.setWarp w x).arm = s.arm := rfl
@[simp] theorem Block.setWarp_armPend (s : Block) (w : Nat) (x : Warp) : (s.setWarp w x).armPend = s.armPend := rfl
@[simp] theorem Block.setWarp_halted (s : Block) (w : Nat) (x : Warp) : (s.setWarp w x).halted = s.halted := rfl
@[simp] theorem Block.setWarp_out (s : Block) (w : Nat) (x : Warp) : (s.setWarp w x).out = s.out := rfl
@[simp] theorem Block.setWarp_past (s : Block) (w : Nat) (x : Warp) : (s.setWarp w x).past = s.past := rfl
@[simp] theorem Block.setWarp_pos (s : Block) (w : Nat) (x : Warp) : (s.setWarp w x).pos = s.pos := rfl
@[simp] theorem Block.setWarp_primary (s : Block) (w : Nat) (x : Warp) : (s.setWarp w x).primary = s.primary := rfl
@[simp] theorem Block.setWarp_primaryCause (s : Block) (w : Nat) (x : Warp) : (s.setWarp w x).primaryCause = s.primaryCause := rfl
@[simp] theorem Block.setWarp_late (s : Block) (w : Nat) (x : Warp) : (s.setWarp w x).late = s.late := rfl
@[simp] theorem Block.setWarp_recorded (s : Block) (w : Nat) (x : Warp) : (s.setWarp w x).recorded = s.recorded := rfl
@[simp] theorem Block.setWarp_routed (s : Block) (w : Nat) (x : Warp) : (s.setWarp w x).routed = s.routed := rfl
@[simp] theorem Block.setWarp_noticed (s : Block) (w : Nat) (x : Warp) : (s.setWarp w x).noticed = s.noticed := rfl
@[simp] theorem Block.setWarp_handler (s : Block) (w : Nat) (x : Warp) : (s.setWarp w x).handler = s.handler := rfl
@[simp] theorem Block.setWarp_await (s : Block) (w : Nat) (x : Warp) : (s.setWarp w x).await = s.await := rfl
@[simp] theorem Block.setWarp_uncovered (s : Block) (w : Nat) (x : Warp) : (s.setWarp w x).uncovered = s.uncovered := rfl
@[simp] theorem Block.setWarp_noticeDue (s : Block) (w : Nat) (x : Warp) : (s.setWarp w x).noticeDue = s.noticeDue := rfl

/-! ### Block.setTag -/

@[simp] theorem Block.setTag_launch (s : Block) (k : Nat) (x : BitVec 16) : (s.setTag k x).launch = s.launch := rfl
@[simp] theorem Block.setTag_ctx (s : Block) (k : Nat) (x : BitVec 16) : (s.setTag k x).ctx = s.ctx := rfl
@[simp] theorem Block.setTag_part (s : Block) (k : Nat) (x : BitVec 16) : (s.setTag k x).part = s.part := rfl
@[simp] theorem Block.setTag_core (s : Block) (k : Nat) (x : BitVec 16) : (s.setTag k x).core = s.core := rfl
@[simp] theorem Block.setTag_half (s : Block) (k : Nat) (x : BitVec 16) : (s.setTag k x).half = s.half := rfl
@[simp] theorem Block.setTag_b (s : Block) (k : Nat) (x : BitVec 16) : (s.setTag k x).b = s.b := rfl
@[simp] theorem Block.setTag_x (s : Block) (k : Nat) (x : BitVec 16) : (s.setTag k x).x = s.x := rfl
@[simp] theorem Block.setTag_y (s : Block) (k : Nat) (x : BitVec 16) : (s.setTag k x).y = s.y := rfl
@[simp] theorem Block.setTag_z (s : Block) (k : Nat) (x : BitVec 16) : (s.setTag k x).z = s.z := rfl
@[simp] theorem Block.setTag_age (s : Block) (k : Nat) (x : BitVec 16) : (s.setTag k x).age = s.age := rfl
@[simp] theorem Block.setTag_width (s : Block) (k : Nat) (x : BitVec 16) : (s.setTag k x).width = s.width := rfl
@[simp] theorem Block.setTag_warpCount (s : Block) (k : Nat) (x : BitVec 16) : (s.setTag k x).warpCount = s.warpCount := rfl
@[simp] theorem Block.setTag_win (s : Block) (k : Nat) (x : BitVec 16) : (s.setTag k x).win = s.win := rfl
@[simp] theorem Block.setTag_uni (s : Block) (k : Nat) (x : BitVec 16) : (s.setTag k x).uni = s.uni := rfl
@[simp] theorem Block.setTag_acc (s : Block) (k : Nat) (x : BitVec 16) : (s.setTag k x).acc = s.acc := rfl
@[simp] theorem Block.setTag_bst (s : Block) (k : Nat) (x : BitVec 16) : (s.setTag k x).bst = s.bst := rfl
@[simp] theorem Block.setTag_scr (s : Block) (k : Nat) (x : BitVec 16) : (s.setTag k x).scr = s.scr := rfl
@[simp] theorem Block.setTag_prod (s : Block) (k : Nat) (x : BitVec 16) : (s.setTag k x).prod = s.prod := rfl
@[simp] theorem Block.setTag_warps (s : Block) (k : Nat) (x : BitVec 16) : (s.setTag k x).warps = s.warps := rfl
@[simp] theorem Block.setTag_scratch (s : Block) (k : Nat) (x : BitVec 16) : (s.setTag k x).scratch = s.scratch := rfl
@[simp] theorem Block.setTag_fslots (s : Block) (k : Nat) (x : BitVec 16) : (s.setTag k x).fslots = s.fslots := rfl
@[simp] theorem Block.setTag_tiles (s : Block) (k : Nat) (x : BitVec 16) : (s.setTag k x).tiles = s.tiles := rfl
@[simp] theorem Block.setTag_tags (s : Block) (k : Nat) (x : BitVec 16) : (s.setTag k x).tags = s.tags.set k x := rfl
@[simp] theorem Block.setTag_bstage (s : Block) (k : Nat) (x : BitVec 16) : (s.setTag k x).bstage = s.bstage := rfl
@[simp] theorem Block.setTag_hist (s : Block) (k : Nat) (x : BitVec 16) : (s.setTag k x).hist = s.hist := rfl
@[simp] theorem Block.setTag_drains (s : Block) (k : Nat) (x : BitVec 16) : (s.setTag k x).drains = s.drains := rfl
@[simp] theorem Block.setTag_broken (s : Block) (k : Nat) (x : BitVec 16) : (s.setTag k x).broken = s.broken := rfl
@[simp] theorem Block.setTag_arm (s : Block) (k : Nat) (x : BitVec 16) : (s.setTag k x).arm = s.arm := rfl
@[simp] theorem Block.setTag_armPend (s : Block) (k : Nat) (x : BitVec 16) : (s.setTag k x).armPend = s.armPend := rfl
@[simp] theorem Block.setTag_halted (s : Block) (k : Nat) (x : BitVec 16) : (s.setTag k x).halted = s.halted := rfl
@[simp] theorem Block.setTag_out (s : Block) (k : Nat) (x : BitVec 16) : (s.setTag k x).out = s.out := rfl
@[simp] theorem Block.setTag_past (s : Block) (k : Nat) (x : BitVec 16) : (s.setTag k x).past = s.past := rfl
@[simp] theorem Block.setTag_pos (s : Block) (k : Nat) (x : BitVec 16) : (s.setTag k x).pos = s.pos := rfl
@[simp] theorem Block.setTag_primary (s : Block) (k : Nat) (x : BitVec 16) : (s.setTag k x).primary = s.primary := rfl
@[simp] theorem Block.setTag_primaryCause (s : Block) (k : Nat) (x : BitVec 16) : (s.setTag k x).primaryCause = s.primaryCause := rfl
@[simp] theorem Block.setTag_late (s : Block) (k : Nat) (x : BitVec 16) : (s.setTag k x).late = s.late := rfl
@[simp] theorem Block.setTag_recorded (s : Block) (k : Nat) (x : BitVec 16) : (s.setTag k x).recorded = s.recorded := rfl
@[simp] theorem Block.setTag_routed (s : Block) (k : Nat) (x : BitVec 16) : (s.setTag k x).routed = s.routed := rfl
@[simp] theorem Block.setTag_noticed (s : Block) (k : Nat) (x : BitVec 16) : (s.setTag k x).noticed = s.noticed := rfl
@[simp] theorem Block.setTag_handler (s : Block) (k : Nat) (x : BitVec 16) : (s.setTag k x).handler = s.handler := rfl
@[simp] theorem Block.setTag_await (s : Block) (k : Nat) (x : BitVec 16) : (s.setTag k x).await = s.await := rfl
@[simp] theorem Block.setTag_uncovered (s : Block) (k : Nat) (x : BitVec 16) : (s.setTag k x).uncovered = s.uncovered := rfl
@[simp] theorem Block.setTag_noticeDue (s : Block) (k : Nat) (x : BitVec 16) : (s.setTag k x).noticeDue = s.noticeDue := rfl

/-! ### Warp.setBatch -/

@[simp] theorem Warp.setBatch_v (s : Warp) (k : Nat) (x : Batches) : (s.setBatch k x).v = s.v := rfl
@[simp] theorem Warp.setBatch_buf (s : Warp) (k : Nat) (x : Batches) : (s.setBatch k x).buf = s.buf := rfl
@[simp] theorem Warp.setBatch_map (s : Warp) (k : Nat) (x : Batches) : (s.setBatch k x).map = s.map := rfl
@[simp] theorem Warp.setBatch_deadV (s : Warp) (k : Nat) (x : Batches) : (s.setBatch k x).deadV = s.deadV := rfl
@[simp] theorem Warp.setBatch_deadB (s : Warp) (k : Nat) (x : Batches) : (s.setBatch k x).deadB = s.deadB := rfl
@[simp] theorem Warp.setBatch_h0 (s : Warp) (k : Nat) (x : Batches) : (s.setBatch k x).h0 = s.h0 := rfl
@[simp] theorem Warp.setBatch_h1 (s : Warp) (k : Nat) (x : Batches) : (s.setBatch k x).h1 = s.h1 := rfl
@[simp] theorem Warp.setBatch_preds (s : Warp) (k : Nat) (x : Batches) : (s.setBatch k x).preds = s.preds := rfl
@[simp] theorem Warp.setBatch_s0 (s : Warp) (k : Nat) (x : Batches) : (s.setBatch k x).s0 = s.s0 := rfl
@[simp] theorem Warp.setBatch_s1 (s : Warp) (k : Nat) (x : Batches) : (s.setBatch k x).s1 = s.s1 := rfl
@[simp] theorem Warp.setBatch_turn (s : Warp) (k : Nat) (x : Batches) : (s.setBatch k x).turn = s.turn := rfl
@[simp] theorem Warp.setBatch_nextFirst (s : Warp) (k : Nat) (x : Batches) : (s.setBatch k x).nextFirst = s.nextFirst := rfl
@[simp] theorem Warp.setBatch_stack (s : Warp) (k : Nat) (x : Batches) : (s.setBatch k x).stack = s.stack := rfl
@[simp] theorem Warp.setBatch_spilled (s : Warp) (k : Nat) (x : Batches) : (s.setBatch k x).spilled = s.spilled := rfl
@[simp] theorem Warp.setBatch_counts (s : Warp) (k : Nat) (x : Batches) : (s.setBatch k x).counts = s.counts := rfl
@[simp] theorem Warp.setBatch_bits (s : Warp) (k : Nat) (x : Batches) : (s.setBatch k x).bits = s.bits := rfl
@[simp] theorem Warp.setBatch_batches (s : Warp) (k : Nat) (x : Batches) : (s.setBatch k x).batches = s.batches.put k x := rfl
@[simp] theorem Warp.setBatch_flags (s : Warp) (k : Nat) (x : Batches) : (s.setBatch k x).flags = s.flags := rfl
@[simp] theorem Warp.setBatch_pix (s : Warp) (k : Nat) (x : Batches) : (s.setBatch k x).pix = s.pix := rfl
@[simp] theorem Warp.setBatch_wprio (s : Warp) (k : Nat) (x : Batches) : (s.setBatch k x).wprio = s.wprio := rfl
@[simp] theorem Warp.setBatch_shash (s : Warp) (k : Nat) (x : Batches) : (s.setBatch k x).shash = s.shash := rfl
@[simp] theorem Warp.setBatch_exm (s : Warp) (k : Nat) (x : Batches) : (s.setBatch k x).exm = s.exm := rfl
@[simp] theorem Warp.setBatch_gang (s : Warp) (k : Nat) (x : Batches) : (s.setBatch k x).gang = s.gang := rfl
@[simp] theorem Warp.setBatch_wake (s : Warp) (k : Nat) (x : Batches) : (s.setBatch k x).wake = s.wake := rfl
@[simp] theorem Warp.setBatch_shadow (s : Warp) (k : Nat) (x : Batches) : (s.setBatch k x).shadow = s.shadow := rfl
@[simp] theorem Warp.setBatch_clause (s : Warp) (k : Nat) (x : Batches) : (s.setBatch k x).clause = s.clause := rfl
@[simp] theorem Warp.setBatch_free (s : Warp) (k : Nat) (x : Batches) : (s.setBatch k x).free = s.free := rfl
@[simp] theorem Warp.setBatch_issuedTo (s : Warp) (k : Nat) (x : Batches) : (s.setBatch k x).issuedTo = s.issuedTo := rfl
@[simp] theorem Warp.setBatch_pend (s : Warp) (k : Nat) (x : Batches) : (s.setBatch k x).pend = s.pend := rfl
@[simp] theorem Warp.setBatch_fresh (s : Warp) (k : Nat) (x : Batches) : (s.setBatch k x).fresh = s.fresh := rfl
@[simp] theorem Warp.setBatch_seq (s : Warp) (k : Nat) (x : Batches) : (s.setBatch k x).seq = s.seq := rfl
@[simp] theorem Warp.setBatch_queue (s : Warp) (k : Nat) (x : Batches) : (s.setBatch k x).queue = s.queue := rfl
@[simp] theorem Warp.setBatch_ops (s : Warp) (k : Nat) (x : Batches) : (s.setBatch k x).ops = s.ops := rfl
@[simp] theorem Warp.setBatch_nextOp (s : Warp) (k : Nat) (x : Batches) : (s.setBatch k x).nextOp = s.nextOp := rfl
@[simp] theorem Warp.setBatch_folds (s : Warp) (k : Nat) (x : Batches) : (s.setBatch k x).folds = s.folds := rfl
@[simp] theorem Warp.setBatch_matQ (s : Warp) (k : Nat) (x : Batches) : (s.setBatch k x).matQ = s.matQ := rfl
@[simp] theorem Warp.setBatch_fieldQ (s : Warp) (k : Nat) (x : Batches) : (s.setBatch k x).fieldQ = s.fieldQ := rfl
@[simp] theorem Warp.setBatch_matFault (s : Warp) (k : Nat) (x : Batches) : (s.setBatch k x).matFault = s.matFault := rfl
@[simp] theorem Warp.setBatch_sleeping (s : Warp) (k : Nat) (x : Batches) : (s.setBatch k x).sleeping = s.sleeping := rfl
@[simp] theorem Warp.setBatch_noFlag (s : Warp) (k : Nat) (x : Batches) : (s.setBatch k x).noFlag = s.noFlag := rfl
@[simp] theorem Warp.setBatch_prioAt (s : Warp) (k : Nat) (x : Batches) : (s.setBatch k x).prioAt = s.prioAt := rfl
@[simp] theorem Warp.setBatch_ended (s : Warp) (k : Nat) (x : Batches) : (s.setBatch k x).ended = s.ended := rfl
@[simp] theorem Warp.setBatch_freed (s : Warp) (k : Nat) (x : Batches) : (s.setBatch k x).freed = s.freed := rfl
@[simp] theorem Warp.setBatch_stop (s : Warp) (k : Nat) (x : Batches) : (s.setBatch k x).stop = s.stop := rfl
@[simp] theorem Warp.setBatch_skid (s : Warp) (k : Nat) (x : Batches) : (s.setBatch k x).skid = s.skid := rfl
@[simp] theorem Warp.setBatch_yp (s : Warp) (k : Nat) (x : Batches) : (s.setBatch k x).yp = s.yp := rfl
@[simp] theorem Warp.setBatch_yield_ (s : Warp) (k : Nat) (x : Batches) : (s.setBatch k x).yield_ = s.yield_ := rfl
@[simp] theorem Warp.setBatch_readyFor (s : Warp) (k : Nat) (x : Batches) : (s.setBatch k x).readyFor = s.readyFor := rfl
@[simp] theorem Warp.setBatch_urgent (s : Warp) (k : Nat) (x : Batches) : (s.setBatch k x).urgent = s.urgent := rfl
@[simp] theorem Warp.setBatch_gangs (s : Warp) (k : Nat) (x : Batches) : (s.setBatch k x).gangs = s.gangs := rfl

/-! ### Warp.orFlags -/

@[simp] theorem Warp.orFlags_v (s : Warp) (x : BitVec 5) : (s.orFlags x).v = s.v := rfl
@[simp] theorem Warp.orFlags_buf (s : Warp) (x : BitVec 5) : (s.orFlags x).buf = s.buf := rfl
@[simp] theorem Warp.orFlags_map (s : Warp) (x : BitVec 5) : (s.orFlags x).map = s.map := rfl
@[simp] theorem Warp.orFlags_deadV (s : Warp) (x : BitVec 5) : (s.orFlags x).deadV = s.deadV := rfl
@[simp] theorem Warp.orFlags_deadB (s : Warp) (x : BitVec 5) : (s.orFlags x).deadB = s.deadB := rfl
@[simp] theorem Warp.orFlags_h0 (s : Warp) (x : BitVec 5) : (s.orFlags x).h0 = s.h0 := rfl
@[simp] theorem Warp.orFlags_h1 (s : Warp) (x : BitVec 5) : (s.orFlags x).h1 = s.h1 := rfl
@[simp] theorem Warp.orFlags_preds (s : Warp) (x : BitVec 5) : (s.orFlags x).preds = s.preds := rfl
@[simp] theorem Warp.orFlags_s0 (s : Warp) (x : BitVec 5) : (s.orFlags x).s0 = s.s0 := rfl
@[simp] theorem Warp.orFlags_s1 (s : Warp) (x : BitVec 5) : (s.orFlags x).s1 = s.s1 := rfl
@[simp] theorem Warp.orFlags_turn (s : Warp) (x : BitVec 5) : (s.orFlags x).turn = s.turn := rfl
@[simp] theorem Warp.orFlags_nextFirst (s : Warp) (x : BitVec 5) : (s.orFlags x).nextFirst = s.nextFirst := rfl
@[simp] theorem Warp.orFlags_stack (s : Warp) (x : BitVec 5) : (s.orFlags x).stack = s.stack := rfl
@[simp] theorem Warp.orFlags_spilled (s : Warp) (x : BitVec 5) : (s.orFlags x).spilled = s.spilled := rfl
@[simp] theorem Warp.orFlags_counts (s : Warp) (x : BitVec 5) : (s.orFlags x).counts = s.counts := rfl
@[simp] theorem Warp.orFlags_bits (s : Warp) (x : BitVec 5) : (s.orFlags x).bits = s.bits := rfl
@[simp] theorem Warp.orFlags_batches (s : Warp) (x : BitVec 5) : (s.orFlags x).batches = s.batches := rfl
@[simp] theorem Warp.orFlags_flags (s : Warp) (x : BitVec 5) : (s.orFlags x).flags = s.flags ||| x.zeroExtend 32 := rfl
@[simp] theorem Warp.orFlags_pix (s : Warp) (x : BitVec 5) : (s.orFlags x).pix = s.pix := rfl
@[simp] theorem Warp.orFlags_wprio (s : Warp) (x : BitVec 5) : (s.orFlags x).wprio = s.wprio := rfl
@[simp] theorem Warp.orFlags_shash (s : Warp) (x : BitVec 5) : (s.orFlags x).shash = s.shash := rfl
@[simp] theorem Warp.orFlags_exm (s : Warp) (x : BitVec 5) : (s.orFlags x).exm = s.exm := rfl
@[simp] theorem Warp.orFlags_gang (s : Warp) (x : BitVec 5) : (s.orFlags x).gang = s.gang := rfl
@[simp] theorem Warp.orFlags_wake (s : Warp) (x : BitVec 5) : (s.orFlags x).wake = s.wake := rfl
@[simp] theorem Warp.orFlags_shadow (s : Warp) (x : BitVec 5) : (s.orFlags x).shadow = s.shadow := rfl
@[simp] theorem Warp.orFlags_clause (s : Warp) (x : BitVec 5) : (s.orFlags x).clause = s.clause := rfl
@[simp] theorem Warp.orFlags_free (s : Warp) (x : BitVec 5) : (s.orFlags x).free = s.free := rfl
@[simp] theorem Warp.orFlags_issuedTo (s : Warp) (x : BitVec 5) : (s.orFlags x).issuedTo = s.issuedTo := rfl
@[simp] theorem Warp.orFlags_pend (s : Warp) (x : BitVec 5) : (s.orFlags x).pend = s.pend := rfl
@[simp] theorem Warp.orFlags_fresh (s : Warp) (x : BitVec 5) : (s.orFlags x).fresh = s.fresh := rfl
@[simp] theorem Warp.orFlags_seq (s : Warp) (x : BitVec 5) : (s.orFlags x).seq = s.seq := rfl
@[simp] theorem Warp.orFlags_queue (s : Warp) (x : BitVec 5) : (s.orFlags x).queue = s.queue := rfl
@[simp] theorem Warp.orFlags_ops (s : Warp) (x : BitVec 5) : (s.orFlags x).ops = s.ops := rfl
@[simp] theorem Warp.orFlags_nextOp (s : Warp) (x : BitVec 5) : (s.orFlags x).nextOp = s.nextOp := rfl
@[simp] theorem Warp.orFlags_folds (s : Warp) (x : BitVec 5) : (s.orFlags x).folds = s.folds := rfl
@[simp] theorem Warp.orFlags_matQ (s : Warp) (x : BitVec 5) : (s.orFlags x).matQ = s.matQ := rfl
@[simp] theorem Warp.orFlags_fieldQ (s : Warp) (x : BitVec 5) : (s.orFlags x).fieldQ = s.fieldQ := rfl
@[simp] theorem Warp.orFlags_matFault (s : Warp) (x : BitVec 5) : (s.orFlags x).matFault = s.matFault := rfl
@[simp] theorem Warp.orFlags_sleeping (s : Warp) (x : BitVec 5) : (s.orFlags x).sleeping = s.sleeping := rfl
@[simp] theorem Warp.orFlags_noFlag (s : Warp) (x : BitVec 5) : (s.orFlags x).noFlag = s.noFlag := rfl
@[simp] theorem Warp.orFlags_prioAt (s : Warp) (x : BitVec 5) : (s.orFlags x).prioAt = s.prioAt := rfl
@[simp] theorem Warp.orFlags_ended (s : Warp) (x : BitVec 5) : (s.orFlags x).ended = s.ended := rfl
@[simp] theorem Warp.orFlags_freed (s : Warp) (x : BitVec 5) : (s.orFlags x).freed = s.freed := rfl
@[simp] theorem Warp.orFlags_stop (s : Warp) (x : BitVec 5) : (s.orFlags x).stop = s.stop := rfl
@[simp] theorem Warp.orFlags_skid (s : Warp) (x : BitVec 5) : (s.orFlags x).skid = s.skid := rfl
@[simp] theorem Warp.orFlags_yp (s : Warp) (x : BitVec 5) : (s.orFlags x).yp = s.yp := rfl
@[simp] theorem Warp.orFlags_yield_ (s : Warp) (x : BitVec 5) : (s.orFlags x).yield_ = s.yield_ := rfl
@[simp] theorem Warp.orFlags_readyFor (s : Warp) (x : BitVec 5) : (s.orFlags x).readyFor = s.readyFor := rfl
@[simp] theorem Warp.orFlags_urgent (s : Warp) (x : BitVec 5) : (s.orFlags x).urgent = s.urgent := rfl
@[simp] theorem Warp.orFlags_gangs (s : Warp) (x : BitVec 5) : (s.orFlags x).gangs = s.gangs := rfl

/-! ### Warp.popQueue -/

@[simp] theorem Warp.popQueue_v (s : Warp) : s.popQueue.v = s.v := rfl
@[simp] theorem Warp.popQueue_buf (s : Warp) : s.popQueue.buf = s.buf := rfl
@[simp] theorem Warp.popQueue_map (s : Warp) : s.popQueue.map = s.map := rfl
@[simp] theorem Warp.popQueue_deadV (s : Warp) : s.popQueue.deadV = s.deadV := rfl
@[simp] theorem Warp.popQueue_deadB (s : Warp) : s.popQueue.deadB = s.deadB := rfl
@[simp] theorem Warp.popQueue_h0 (s : Warp) : s.popQueue.h0 = s.h0 := rfl
@[simp] theorem Warp.popQueue_h1 (s : Warp) : s.popQueue.h1 = s.h1 := rfl
@[simp] theorem Warp.popQueue_preds (s : Warp) : s.popQueue.preds = s.preds := rfl
@[simp] theorem Warp.popQueue_s0 (s : Warp) : s.popQueue.s0 = s.s0 := rfl
@[simp] theorem Warp.popQueue_s1 (s : Warp) : s.popQueue.s1 = s.s1 := rfl
@[simp] theorem Warp.popQueue_turn (s : Warp) : s.popQueue.turn = s.turn := rfl
@[simp] theorem Warp.popQueue_nextFirst (s : Warp) : s.popQueue.nextFirst = s.nextFirst := rfl
@[simp] theorem Warp.popQueue_stack (s : Warp) : s.popQueue.stack = s.stack := rfl
@[simp] theorem Warp.popQueue_spilled (s : Warp) : s.popQueue.spilled = s.spilled := rfl
@[simp] theorem Warp.popQueue_counts (s : Warp) : s.popQueue.counts = s.counts := rfl
@[simp] theorem Warp.popQueue_bits (s : Warp) : s.popQueue.bits = s.bits := rfl
@[simp] theorem Warp.popQueue_batches (s : Warp) : s.popQueue.batches = s.batches := rfl
@[simp] theorem Warp.popQueue_flags (s : Warp) : s.popQueue.flags = s.flags := rfl
@[simp] theorem Warp.popQueue_pix (s : Warp) : s.popQueue.pix = s.pix := rfl
@[simp] theorem Warp.popQueue_wprio (s : Warp) : s.popQueue.wprio = s.wprio := rfl
@[simp] theorem Warp.popQueue_shash (s : Warp) : s.popQueue.shash = s.shash := rfl
@[simp] theorem Warp.popQueue_exm (s : Warp) : s.popQueue.exm = s.exm := rfl
@[simp] theorem Warp.popQueue_gang (s : Warp) : s.popQueue.gang = s.gang := rfl
@[simp] theorem Warp.popQueue_wake (s : Warp) : s.popQueue.wake = s.wake := rfl
@[simp] theorem Warp.popQueue_shadow (s : Warp) : s.popQueue.shadow = s.shadow := rfl
@[simp] theorem Warp.popQueue_clause (s : Warp) : s.popQueue.clause = s.clause := rfl
@[simp] theorem Warp.popQueue_free (s : Warp) : s.popQueue.free = s.free := rfl
@[simp] theorem Warp.popQueue_issuedTo (s : Warp) : s.popQueue.issuedTo = s.issuedTo := rfl
@[simp] theorem Warp.popQueue_pend (s : Warp) : s.popQueue.pend = s.pend := rfl
@[simp] theorem Warp.popQueue_fresh (s : Warp) : s.popQueue.fresh = s.fresh := rfl
@[simp] theorem Warp.popQueue_seq (s : Warp) : s.popQueue.seq = s.seq := rfl
@[simp] theorem Warp.popQueue_queue (s : Warp) : s.popQueue.queue = s.queue.tail := rfl
@[simp] theorem Warp.popQueue_ops (s : Warp) : s.popQueue.ops = s.ops := rfl
@[simp] theorem Warp.popQueue_nextOp (s : Warp) : s.popQueue.nextOp = s.nextOp := rfl
@[simp] theorem Warp.popQueue_folds (s : Warp) : s.popQueue.folds = s.folds := rfl
@[simp] theorem Warp.popQueue_matQ (s : Warp) : s.popQueue.matQ = s.matQ := rfl
@[simp] theorem Warp.popQueue_fieldQ (s : Warp) : s.popQueue.fieldQ = s.fieldQ := rfl
@[simp] theorem Warp.popQueue_matFault (s : Warp) : s.popQueue.matFault = s.matFault := rfl
@[simp] theorem Warp.popQueue_sleeping (s : Warp) : s.popQueue.sleeping = s.sleeping := rfl
@[simp] theorem Warp.popQueue_noFlag (s : Warp) : s.popQueue.noFlag = s.noFlag := rfl
@[simp] theorem Warp.popQueue_prioAt (s : Warp) : s.popQueue.prioAt = s.prioAt := rfl
@[simp] theorem Warp.popQueue_ended (s : Warp) : s.popQueue.ended = s.ended := rfl
@[simp] theorem Warp.popQueue_freed (s : Warp) : s.popQueue.freed = s.freed := rfl
@[simp] theorem Warp.popQueue_stop (s : Warp) : s.popQueue.stop = s.stop := rfl
@[simp] theorem Warp.popQueue_skid (s : Warp) : s.popQueue.skid = s.skid := rfl
@[simp] theorem Warp.popQueue_yp (s : Warp) : s.popQueue.yp = s.yp := rfl
@[simp] theorem Warp.popQueue_yield_ (s : Warp) : s.popQueue.yield_ = s.yield_ := rfl
@[simp] theorem Warp.popQueue_readyFor (s : Warp) : s.popQueue.readyFor = s.readyFor := rfl
@[simp] theorem Warp.popQueue_urgent (s : Warp) : s.popQueue.urgent = s.urgent := rfl
@[simp] theorem Warp.popQueue_gangs (s : Warp) : s.popQueue.gangs = s.gangs := rfl

/-! ### Warp.sweep -/

@[simp] theorem Warp.sweep_v (s : Warp) : s.sweep.v = s.v := rfl
@[simp] theorem Warp.sweep_buf (s : Warp) : s.sweep.buf = s.buf := rfl
@[simp] theorem Warp.sweep_map (s : Warp) : s.sweep.map = s.map := rfl
@[simp] theorem Warp.sweep_deadV (s : Warp) : s.sweep.deadV = s.deadV := rfl
@[simp] theorem Warp.sweep_deadB (s : Warp) : s.sweep.deadB = s.deadB := rfl
@[simp] theorem Warp.sweep_h0 (s : Warp) : s.sweep.h0 = s.h0 := rfl
@[simp] theorem Warp.sweep_h1 (s : Warp) : s.sweep.h1 = s.h1 := rfl
@[simp] theorem Warp.sweep_preds (s : Warp) : s.sweep.preds = s.preds := rfl
@[simp] theorem Warp.sweep_s0 (s : Warp) : s.sweep.s0 = s.s0 := rfl
@[simp] theorem Warp.sweep_s1 (s : Warp) : s.sweep.s1 = s.s1 := rfl
@[simp] theorem Warp.sweep_turn (s : Warp) : s.sweep.turn = s.turn := rfl
@[simp] theorem Warp.sweep_nextFirst (s : Warp) : s.sweep.nextFirst = s.nextFirst := rfl
@[simp] theorem Warp.sweep_stack (s : Warp) : s.sweep.stack = s.stack := rfl
@[simp] theorem Warp.sweep_spilled (s : Warp) : s.sweep.spilled = s.spilled := rfl
@[simp] theorem Warp.sweep_counts (s : Warp) : s.sweep.counts = s.counts := rfl
@[simp] theorem Warp.sweep_bits (s : Warp) : s.sweep.bits = s.bits := rfl
@[simp] theorem Warp.sweep_batches (s : Warp) : s.sweep.batches = s.batches := rfl
@[simp] theorem Warp.sweep_flags (s : Warp) : s.sweep.flags = s.flags := rfl
@[simp] theorem Warp.sweep_pix (s : Warp) : s.sweep.pix = s.pix := rfl
@[simp] theorem Warp.sweep_wprio (s : Warp) : s.sweep.wprio = s.wprio := rfl
@[simp] theorem Warp.sweep_shash (s : Warp) : s.sweep.shash = s.shash := rfl
@[simp] theorem Warp.sweep_exm (s : Warp) : s.sweep.exm = s.exm := rfl
@[simp] theorem Warp.sweep_gang (s : Warp) : s.sweep.gang = s.gang := rfl
@[simp] theorem Warp.sweep_wake (s : Warp) : s.sweep.wake = s.wake := rfl
@[simp] theorem Warp.sweep_shadow (s : Warp) : s.sweep.shadow = s.shadow := rfl
@[simp] theorem Warp.sweep_clause (s : Warp) : s.sweep.clause = s.clause := rfl
@[simp] theorem Warp.sweep_free (s : Warp) : s.sweep.free = s.free := rfl
@[simp] theorem Warp.sweep_issuedTo (s : Warp) : s.sweep.issuedTo = s.issuedTo := rfl
@[simp] theorem Warp.sweep_pend (s : Warp) : s.sweep.pend = s.pend := rfl
@[simp] theorem Warp.sweep_fresh (s : Warp) : s.sweep.fresh = s.fresh := rfl
@[simp] theorem Warp.sweep_seq (s : Warp) : s.sweep.seq = s.seq := rfl
@[simp] theorem Warp.sweep_queue (s : Warp) : s.sweep.queue = s.queue := rfl
@[simp] theorem Warp.sweep_nextOp (s : Warp) : s.sweep.nextOp = s.nextOp := rfl
@[simp] theorem Warp.sweep_folds (s : Warp) : s.sweep.folds = s.folds := rfl
@[simp] theorem Warp.sweep_matQ (s : Warp) : s.sweep.matQ = s.matQ := rfl
@[simp] theorem Warp.sweep_fieldQ (s : Warp) : s.sweep.fieldQ = s.fieldQ := rfl
@[simp] theorem Warp.sweep_matFault (s : Warp) : s.sweep.matFault = s.matFault := rfl
@[simp] theorem Warp.sweep_sleeping (s : Warp) : s.sweep.sleeping = s.sleeping := rfl
@[simp] theorem Warp.sweep_noFlag (s : Warp) : s.sweep.noFlag = s.noFlag := rfl
@[simp] theorem Warp.sweep_prioAt (s : Warp) : s.sweep.prioAt = s.prioAt := rfl
@[simp] theorem Warp.sweep_ended (s : Warp) : s.sweep.ended = s.ended := rfl
@[simp] theorem Warp.sweep_freed (s : Warp) : s.sweep.freed = s.freed := rfl
@[simp] theorem Warp.sweep_stop (s : Warp) : s.sweep.stop = s.stop := rfl
@[simp] theorem Warp.sweep_skid (s : Warp) : s.sweep.skid = s.skid := rfl
@[simp] theorem Warp.sweep_yp (s : Warp) : s.sweep.yp = s.yp := rfl
@[simp] theorem Warp.sweep_yield_ (s : Warp) : s.sweep.yield_ = s.yield_ := rfl
@[simp] theorem Warp.sweep_readyFor (s : Warp) : s.sweep.readyFor = s.readyFor := rfl
@[simp] theorem Warp.sweep_urgent (s : Warp) : s.sweep.urgent = s.urgent := rfl
@[simp] theorem Warp.sweep_gangs (s : Warp) : s.sweep.gangs = s.gangs := rfl

/-! ### Warp.endSleeps -/

@[simp] theorem Warp.endSleeps_v (s : Warp) : s.endSleeps.v = s.v := rfl
@[simp] theorem Warp.endSleeps_buf (s : Warp) : s.endSleeps.buf = s.buf := rfl
@[simp] theorem Warp.endSleeps_map (s : Warp) : s.endSleeps.map = s.map := rfl
@[simp] theorem Warp.endSleeps_deadV (s : Warp) : s.endSleeps.deadV = s.deadV := rfl
@[simp] theorem Warp.endSleeps_deadB (s : Warp) : s.endSleeps.deadB = s.deadB := rfl
@[simp] theorem Warp.endSleeps_h0 (s : Warp) : s.endSleeps.h0 = s.h0 := rfl
@[simp] theorem Warp.endSleeps_h1 (s : Warp) : s.endSleeps.h1 = s.h1 := rfl
@[simp] theorem Warp.endSleeps_preds (s : Warp) : s.endSleeps.preds = s.preds := rfl
@[simp] theorem Warp.endSleeps_s0 (s : Warp) : s.endSleeps.s0 = s.s0 := rfl
@[simp] theorem Warp.endSleeps_s1 (s : Warp) : s.endSleeps.s1 = s.s1 := rfl
@[simp] theorem Warp.endSleeps_turn (s : Warp) : s.endSleeps.turn = s.turn := rfl
@[simp] theorem Warp.endSleeps_nextFirst (s : Warp) : s.endSleeps.nextFirst = s.nextFirst := rfl
@[simp] theorem Warp.endSleeps_stack (s : Warp) : s.endSleeps.stack = s.stack := rfl
@[simp] theorem Warp.endSleeps_spilled (s : Warp) : s.endSleeps.spilled = s.spilled := rfl
@[simp] theorem Warp.endSleeps_counts (s : Warp) : s.endSleeps.counts = s.counts := rfl
@[simp] theorem Warp.endSleeps_bits (s : Warp) : s.endSleeps.bits = s.bits := rfl
@[simp] theorem Warp.endSleeps_batches (s : Warp) : s.endSleeps.batches = s.batches := rfl
@[simp] theorem Warp.endSleeps_flags (s : Warp) : s.endSleeps.flags = s.flags := rfl
@[simp] theorem Warp.endSleeps_pix (s : Warp) : s.endSleeps.pix = s.pix := rfl
@[simp] theorem Warp.endSleeps_wprio (s : Warp) : s.endSleeps.wprio = s.wprio := rfl
@[simp] theorem Warp.endSleeps_shash (s : Warp) : s.endSleeps.shash = s.shash := rfl
@[simp] theorem Warp.endSleeps_exm (s : Warp) : s.endSleeps.exm = s.exm := rfl
@[simp] theorem Warp.endSleeps_gang (s : Warp) : s.endSleeps.gang = s.gang := rfl
@[simp] theorem Warp.endSleeps_wake (s : Warp) : s.endSleeps.wake = s.wake := rfl
@[simp] theorem Warp.endSleeps_shadow (s : Warp) : s.endSleeps.shadow = s.shadow := rfl
@[simp] theorem Warp.endSleeps_clause (s : Warp) : s.endSleeps.clause = s.clause := rfl
@[simp] theorem Warp.endSleeps_free (s : Warp) : s.endSleeps.free = s.free := rfl
@[simp] theorem Warp.endSleeps_issuedTo (s : Warp) : s.endSleeps.issuedTo = s.issuedTo := rfl
@[simp] theorem Warp.endSleeps_pend (s : Warp) : s.endSleeps.pend = s.pend := rfl
@[simp] theorem Warp.endSleeps_fresh (s : Warp) : s.endSleeps.fresh = s.fresh := rfl
@[simp] theorem Warp.endSleeps_seq (s : Warp) : s.endSleeps.seq = s.seq := rfl
@[simp] theorem Warp.endSleeps_queue (s : Warp) : s.endSleeps.queue = s.queue := rfl
@[simp] theorem Warp.endSleeps_nextOp (s : Warp) : s.endSleeps.nextOp = s.nextOp := rfl
@[simp] theorem Warp.endSleeps_folds (s : Warp) : s.endSleeps.folds = s.folds := rfl
@[simp] theorem Warp.endSleeps_matQ (s : Warp) : s.endSleeps.matQ = s.matQ := rfl
@[simp] theorem Warp.endSleeps_fieldQ (s : Warp) : s.endSleeps.fieldQ = s.fieldQ := rfl
@[simp] theorem Warp.endSleeps_matFault (s : Warp) : s.endSleeps.matFault = s.matFault := rfl
@[simp] theorem Warp.endSleeps_sleeping (s : Warp) : s.endSleeps.sleeping = s.sleeping := rfl
@[simp] theorem Warp.endSleeps_noFlag (s : Warp) : s.endSleeps.noFlag = s.noFlag := rfl
@[simp] theorem Warp.endSleeps_prioAt (s : Warp) : s.endSleeps.prioAt = s.prioAt := rfl
@[simp] theorem Warp.endSleeps_ended (s : Warp) : s.endSleeps.ended = s.ended := rfl
@[simp] theorem Warp.endSleeps_freed (s : Warp) : s.endSleeps.freed = s.freed := rfl
@[simp] theorem Warp.endSleeps_stop (s : Warp) : s.endSleeps.stop = s.stop := rfl
@[simp] theorem Warp.endSleeps_skid (s : Warp) : s.endSleeps.skid = s.skid := rfl
@[simp] theorem Warp.endSleeps_yp (s : Warp) : s.endSleeps.yp = s.yp := rfl
@[simp] theorem Warp.endSleeps_yield_ (s : Warp) : s.endSleeps.yield_ = s.yield_ := rfl
@[simp] theorem Warp.endSleeps_readyFor (s : Warp) : s.endSleeps.readyFor = s.readyFor := rfl
@[simp] theorem Warp.endSleeps_urgent (s : Warp) : s.endSleeps.urgent = s.urgent := rfl
@[simp] theorem Warp.endSleeps_gangs (s : Warp) : s.endSleeps.gangs = s.gangs := rfl

/-! ### Part.unguard -/

@[simp] theorem Part.unguard_cores (s : Part) (c : Nat) : (s.unguard c).cores = s.cores := rfl
@[simp] theorem Part.unguard_split (s : Part) (c : Nat) : (s.unguard c).split = s.split := rfl
@[simp] theorem Part.unguard_ftid (s : Part) (c : Nat) : (s.unguard c).ftid = s.ftid := rfl
@[simp] theorem Part.unguard_cht (s : Part) (c : Nat) : (s.unguard c).cht = s.cht := rfl
@[simp] theorem Part.unguard_key (s : Part) (c : Nat) : (s.unguard c).key = s.key := rfl
@[simp] theorem Part.unguard_exec (s : Part) (c : Nat) : (s.unguard c).exec = s.exec := rfl
@[simp] theorem Part.unguard_zeroing (s : Part) (c : Nat) : (s.unguard c).zeroing = s.zeroing := rfl
@[simp] theorem Part.unguard_clearing (s : Part) (c : Nat) : (s.unguard c).clearing = s.clearing := rfl
@[simp] theorem Part.unguard_turn (s : Part) (c : Nat) : (s.unguard c).turn = s.turn := rfl

/-! ### Ctx.setWord -/

@[simp] theorem Ctx.setWord_words (s : Ctx) (k : Nat) (x : Word) : (s.setWord k x).words = s.words.set k x := rfl
@[simp] theorem Ctx.setWord_ring (s : Ctx) (k : Nat) (x : Word) : (s.setWord k x).ring = s.ring := rfl
@[simp] theorem Ctx.setWord_preempt (s : Ctx) (k : Nat) (x : Word) : (s.setWord k x).preempt = s.preempt := rfl
@[simp] theorem Ctx.setWord_gossip (s : Ctx) (k : Nat) (x : Word) : (s.setWord k x).gossip = s.gossip := rfl
@[simp] theorem Ctx.setWord_saving (s : Ctx) (k : Nat) (x : Word) : (s.setWord k x).saving = s.saving := rfl
@[simp] theorem Ctx.setWord_engines (s : Ctx) (k : Nat) (x : Word) : (s.setWord k x).engines = s.engines := rfl
@[simp] theorem Ctx.setWord_killCause (s : Ctx) (k : Nat) (x : Word) : (s.setWord k x).killCause = s.killCause := rfl
@[simp] theorem Ctx.setWord_killStatus (s : Ctx) (k : Nat) (x : Word) : (s.setWord k x).killStatus = s.killStatus := rfl
@[simp] theorem Ctx.setWord_killAt (s : Ctx) (k : Nat) (x : Word) : (s.setWord k x).killAt = s.killAt := rfl
@[simp] theorem Ctx.setWord_ran (s : Ctx) (k : Nat) (x : Word) : (s.setWord k x).ran = s.ran := rfl
@[simp] theorem Ctx.setWord_sliceEnd (s : Ctx) (k : Nat) (x : Word) : (s.setWord k x).sliceEnd = s.sliceEnd := rfl
@[simp] theorem Ctx.setWord_half (s : Ctx) (k : Nat) (x : Word) : (s.setWord k x).half = s.half := rfl

/-! ### Ring.addRec -/

@[simp] theorem Ring.addRec_wc (s : Ring) (x : Rec) : (s.addRec x).wc = s.wc := rfl
@[simp] theorem Ring.addRec_rc (s : Ring) (x : Rec) : (s.addRec x).rc = s.rc := rfl
@[simp] theorem Ring.addRec_stopped (s : Ring) (x : Rec) : (s.addRec x).stopped = s.stopped := rfl
@[simp] theorem Ring.addRec_dead (s : Ring) (x : Rec) : (s.addRec x).dead = s.dead := rfl
@[simp] theorem Ring.addRec_seq (s : Ring) (x : Rec) : (s.addRec x).seq = s.seq := rfl
@[simp] theorem Ring.addRec_packet (s : Ring) (x : Rec) : (s.addRec x).packet = s.packet := rfl
@[simp] theorem Ring.addRec_recs (s : Ring) (x : Rec) : (s.addRec x).recs = s.recs ++ [x] := rfl

/-! ### Warp.setSlot -/

@[simp] theorem Warp.setSlot_v (s : Warp) (k : Nat) (p : PcSlot) : (s.setSlot k p).v = s.v := by
  unfold Warp.setSlot; split <;> rfl
@[simp] theorem Warp.setSlot_buf (s : Warp) (k : Nat) (p : PcSlot) : (s.setSlot k p).buf = s.buf := by
  unfold Warp.setSlot; split <;> rfl
@[simp] theorem Warp.setSlot_map (s : Warp) (k : Nat) (p : PcSlot) : (s.setSlot k p).map = s.map := by
  unfold Warp.setSlot; split <;> rfl
@[simp] theorem Warp.setSlot_deadV (s : Warp) (k : Nat) (p : PcSlot) : (s.setSlot k p).deadV = s.deadV := by
  unfold Warp.setSlot; split <;> rfl
@[simp] theorem Warp.setSlot_deadB (s : Warp) (k : Nat) (p : PcSlot) : (s.setSlot k p).deadB = s.deadB := by
  unfold Warp.setSlot; split <;> rfl
@[simp] theorem Warp.setSlot_h0 (s : Warp) (k : Nat) (p : PcSlot) : (s.setSlot k p).h0 = s.h0 := by
  unfold Warp.setSlot; split <;> rfl
@[simp] theorem Warp.setSlot_h1 (s : Warp) (k : Nat) (p : PcSlot) : (s.setSlot k p).h1 = s.h1 := by
  unfold Warp.setSlot; split <;> rfl
@[simp] theorem Warp.setSlot_preds (s : Warp) (k : Nat) (p : PcSlot) : (s.setSlot k p).preds = s.preds := by
  unfold Warp.setSlot; split <;> rfl
@[simp] theorem Warp.setSlot_turn (s : Warp) (k : Nat) (p : PcSlot) : (s.setSlot k p).turn = s.turn := by
  unfold Warp.setSlot; split <;> rfl
@[simp] theorem Warp.setSlot_nextFirst (s : Warp) (k : Nat) (p : PcSlot) : (s.setSlot k p).nextFirst = s.nextFirst := by
  unfold Warp.setSlot; split <;> rfl
@[simp] theorem Warp.setSlot_stack (s : Warp) (k : Nat) (p : PcSlot) : (s.setSlot k p).stack = s.stack := by
  unfold Warp.setSlot; split <;> rfl
@[simp] theorem Warp.setSlot_spilled (s : Warp) (k : Nat) (p : PcSlot) : (s.setSlot k p).spilled = s.spilled := by
  unfold Warp.setSlot; split <;> rfl
@[simp] theorem Warp.setSlot_counts (s : Warp) (k : Nat) (p : PcSlot) : (s.setSlot k p).counts = s.counts := by
  unfold Warp.setSlot; split <;> rfl
@[simp] theorem Warp.setSlot_bits (s : Warp) (k : Nat) (p : PcSlot) : (s.setSlot k p).bits = s.bits := by
  unfold Warp.setSlot; split <;> rfl
@[simp] theorem Warp.setSlot_batches (s : Warp) (k : Nat) (p : PcSlot) : (s.setSlot k p).batches = s.batches := by
  unfold Warp.setSlot; split <;> rfl
@[simp] theorem Warp.setSlot_flags (s : Warp) (k : Nat) (p : PcSlot) : (s.setSlot k p).flags = s.flags := by
  unfold Warp.setSlot; split <;> rfl
@[simp] theorem Warp.setSlot_pix (s : Warp) (k : Nat) (p : PcSlot) : (s.setSlot k p).pix = s.pix := by
  unfold Warp.setSlot; split <;> rfl
@[simp] theorem Warp.setSlot_wprio (s : Warp) (k : Nat) (p : PcSlot) : (s.setSlot k p).wprio = s.wprio := by
  unfold Warp.setSlot; split <;> rfl
@[simp] theorem Warp.setSlot_shash (s : Warp) (k : Nat) (p : PcSlot) : (s.setSlot k p).shash = s.shash := by
  unfold Warp.setSlot; split <;> rfl
@[simp] theorem Warp.setSlot_exm (s : Warp) (k : Nat) (p : PcSlot) : (s.setSlot k p).exm = s.exm := by
  unfold Warp.setSlot; split <;> rfl
@[simp] theorem Warp.setSlot_gang (s : Warp) (k : Nat) (p : PcSlot) : (s.setSlot k p).gang = s.gang := by
  unfold Warp.setSlot; split <;> rfl
@[simp] theorem Warp.setSlot_wake (s : Warp) (k : Nat) (p : PcSlot) : (s.setSlot k p).wake = s.wake := by
  unfold Warp.setSlot; split <;> rfl
@[simp] theorem Warp.setSlot_shadow (s : Warp) (k : Nat) (p : PcSlot) : (s.setSlot k p).shadow = s.shadow := by
  unfold Warp.setSlot; split <;> rfl
@[simp] theorem Warp.setSlot_clause (s : Warp) (k : Nat) (p : PcSlot) : (s.setSlot k p).clause = s.clause := by
  unfold Warp.setSlot; split <;> rfl
@[simp] theorem Warp.setSlot_free (s : Warp) (k : Nat) (p : PcSlot) : (s.setSlot k p).free = s.free := by
  unfold Warp.setSlot; split <;> rfl
@[simp] theorem Warp.setSlot_issuedTo (s : Warp) (k : Nat) (p : PcSlot) : (s.setSlot k p).issuedTo = s.issuedTo := by
  unfold Warp.setSlot; split <;> rfl
@[simp] theorem Warp.setSlot_pend (s : Warp) (k : Nat) (p : PcSlot) : (s.setSlot k p).pend = s.pend := by
  unfold Warp.setSlot; split <;> rfl
@[simp] theorem Warp.setSlot_fresh (s : Warp) (k : Nat) (p : PcSlot) : (s.setSlot k p).fresh = s.fresh := by
  unfold Warp.setSlot; split <;> rfl
@[simp] theorem Warp.setSlot_seq (s : Warp) (k : Nat) (p : PcSlot) : (s.setSlot k p).seq = s.seq := by
  unfold Warp.setSlot; split <;> rfl
@[simp] theorem Warp.setSlot_queue (s : Warp) (k : Nat) (p : PcSlot) : (s.setSlot k p).queue = s.queue := by
  unfold Warp.setSlot; split <;> rfl
@[simp] theorem Warp.setSlot_ops (s : Warp) (k : Nat) (p : PcSlot) : (s.setSlot k p).ops = s.ops := by
  unfold Warp.setSlot; split <;> rfl
@[simp] theorem Warp.setSlot_nextOp (s : Warp) (k : Nat) (p : PcSlot) : (s.setSlot k p).nextOp = s.nextOp := by
  unfold Warp.setSlot; split <;> rfl
@[simp] theorem Warp.setSlot_folds (s : Warp) (k : Nat) (p : PcSlot) : (s.setSlot k p).folds = s.folds := by
  unfold Warp.setSlot; split <;> rfl
@[simp] theorem Warp.setSlot_matQ (s : Warp) (k : Nat) (p : PcSlot) : (s.setSlot k p).matQ = s.matQ := by
  unfold Warp.setSlot; split <;> rfl
@[simp] theorem Warp.setSlot_fieldQ (s : Warp) (k : Nat) (p : PcSlot) : (s.setSlot k p).fieldQ = s.fieldQ := by
  unfold Warp.setSlot; split <;> rfl
@[simp] theorem Warp.setSlot_matFault (s : Warp) (k : Nat) (p : PcSlot) : (s.setSlot k p).matFault = s.matFault := by
  unfold Warp.setSlot; split <;> rfl
@[simp] theorem Warp.setSlot_sleeping (s : Warp) (k : Nat) (p : PcSlot) : (s.setSlot k p).sleeping = s.sleeping := by
  unfold Warp.setSlot; split <;> rfl
@[simp] theorem Warp.setSlot_noFlag (s : Warp) (k : Nat) (p : PcSlot) : (s.setSlot k p).noFlag = s.noFlag := by
  unfold Warp.setSlot; split <;> rfl
@[simp] theorem Warp.setSlot_prioAt (s : Warp) (k : Nat) (p : PcSlot) : (s.setSlot k p).prioAt = s.prioAt := by
  unfold Warp.setSlot; split <;> rfl
@[simp] theorem Warp.setSlot_ended (s : Warp) (k : Nat) (p : PcSlot) : (s.setSlot k p).ended = s.ended := by
  unfold Warp.setSlot; split <;> rfl
@[simp] theorem Warp.setSlot_freed (s : Warp) (k : Nat) (p : PcSlot) : (s.setSlot k p).freed = s.freed := by
  unfold Warp.setSlot; split <;> rfl
@[simp] theorem Warp.setSlot_stop (s : Warp) (k : Nat) (p : PcSlot) : (s.setSlot k p).stop = s.stop := by
  unfold Warp.setSlot; split <;> rfl
@[simp] theorem Warp.setSlot_skid (s : Warp) (k : Nat) (p : PcSlot) : (s.setSlot k p).skid = s.skid := by
  unfold Warp.setSlot; split <;> rfl
@[simp] theorem Warp.setSlot_yp (s : Warp) (k : Nat) (p : PcSlot) : (s.setSlot k p).yp = s.yp := by
  unfold Warp.setSlot; split <;> rfl
@[simp] theorem Warp.setSlot_yield_ (s : Warp) (k : Nat) (p : PcSlot) : (s.setSlot k p).yield_ = s.yield_ := by
  unfold Warp.setSlot; split <;> rfl
@[simp] theorem Warp.setSlot_readyFor (s : Warp) (k : Nat) (p : PcSlot) : (s.setSlot k p).readyFor = s.readyFor := by
  unfold Warp.setSlot; split <;> rfl
@[simp] theorem Warp.setSlot_urgent (s : Warp) (k : Nat) (p : PcSlot) : (s.setSlot k p).urgent = s.urgent := by
  unfold Warp.setSlot; split <;> rfl
@[simp] theorem Warp.setSlot_gangs (s : Warp) (k : Nat) (p : PcSlot) : (s.setSlot k p).gangs = s.gangs := by
  unfold Warp.setSlot; split <;> rfl
@[simp] theorem Warp.setSlot_s0 (s : Warp) (k : Nat) (p : PcSlot) : (s.setSlot k p).s0 = if k = 0 then p else s.s0 := by
  unfold Warp.setSlot; split <;> rfl
@[simp] theorem Warp.setSlot_s1 (s : Warp) (k : Nat) (p : PcSlot) : (s.setSlot k p).s1 = if k = 0 then s.s1 else p := by
  unfold Warp.setSlot; split <;> rfl

end Sys2Proof.Machine
end

