-- ==== Sys2Proof/Laws/Store.lean ====
section
/-! SUPPORT. The laws of the finite maps and the tables: reading after a write, and the canonical form, which every write
keeps. -/
namespace Sys2Proof

variable {n : Nat}

theorem FMap.wfFrom_cons {lo a : Nat} {v : BitVec n} {r : FMap n} :
    FMap.wfFrom lo ((a, v) :: r) = true ↔ lo ≤ a ∧ v ≠ 0#n ∧ FMap.wfFrom (a + 1) r = true := by
  simp [FMap.wfFrom, and_assoc]

theorem FMap.wfFrom_mono {m : FMap n} {lo hi : Nat} (h : lo ≤ hi) (hm : FMap.wfFrom hi m = true) : FMap.wfFrom lo m = true := by
  cases m with
  | nil => rfl
  | cons e r => rw [FMap.wfFrom_cons] at *; exact ⟨by omega, hm.2⟩

theorem FMap.get_of_wfFrom {m : FMap n} {lo k : Nat} (hm : FMap.wfFrom lo m = true) (h : k < lo) : m.get k = 0#n := by
  induction m generalizing lo with
  | nil => rfl
  | cons e r ih =>
    obtain ⟨h1, -, h3⟩ := FMap.wfFrom_cons.1 hm
    simp only [FMap.get]
    split
    · omega
    · exact ih h3 (by omega)

theorem FMap.drop_wfFrom {m : FMap n} {lo : Nat} (p : Nat → Bool) (hm : FMap.wfFrom lo m = true) :
    FMap.wfFrom lo (m.drop p) = true := by
  induction m generalizing lo with
  | nil => rfl
  | cons e r ih =>
    obtain ⟨a, x⟩ := e
    obtain ⟨h1, h2, h3⟩ := FMap.wfFrom_cons.1 hm
    simp only [FMap.drop, List.filter_cons]
    split
    · exact FMap.wfFrom_cons.2 ⟨h1, h2, ih h3⟩
    · exact FMap.wfFrom_mono (by omega) (ih h3)

theorem FMap.drop_wf {m : FMap n} (p : Nat → Bool) (hm : m.wf = true) : (m.drop p).wf = true := FMap.drop_wfFrom p hm

theorem FMap.get_drop (m : FMap n) (p : Nat → Bool) (k : Nat) : (m.drop p).get k = if p k then 0#n else m.get k := by
  induction m with
  | nil => simp [FMap.drop, FMap.get]
  | cons e r ih =>
    obtain ⟨a, x⟩ := e
    have h : FMap.drop p ((a, x) :: r) = if p a then FMap.drop p r else (a, x) :: FMap.drop p r := by
      simp only [FMap.drop, List.filter_cons]; cases p a <;> rfl
    rw [h]
    by_cases hk : k = a
    · subst hk; cases hp : p k <;> simp [FMap.get, ih, hp]
    · cases hp : p a <;> simp [FMap.get, ih, hk]

theorem FMap.get_ins (m : FMap n) (k j : Nat) (v : BitVec n) : (m.ins k v).get j = if j = k then v else m.get j := by
  induction m with
  | nil => simp [FMap.ins, FMap.get]
  | cons e r ih =>
    obtain ⟨a, x⟩ := e
    simp only [FMap.ins]
    split
    · rfl
    · split
      · subst k; by_cases h : j = a <;> simp [FMap.get, h]
      · simp only [FMap.get, ih]
        by_cases h : j = a
        · subst h; simp [Ne.symm ‹¬k = j›]
        · simp [h]

/-- Reading after a write, whatever the map's form. -/
theorem FMap.get_set (m : FMap n) (k j : Nat) (v : BitVec n) : (m.set k v).get j = if j = k then v else m.get j := by
  unfold FMap.set
  split
  · subst v; simp [FMap.get_drop]
  · exact FMap.get_ins m k j v

/-- A write leaves every other place alone. -/
theorem FMap.get_set_ne {m : FMap n} {k j : Nat} (v : BitVec n) (h : j ≠ k) : (m.set k v).get j = m.get j := by
  rw [FMap.get_set, if_neg h]

/-- A read after a write to the same place gives the value written. -/
theorem FMap.get_set_eq (m : FMap n) (k : Nat) (v : BitVec n) : (m.set k v).get k = v := by rw [FMap.get_set, if_pos rfl]

theorem FMap.ins_wfFrom {m : FMap n} {lo k : Nat} {v : BitVec n} (hv : v ≠ 0#n) (hm : FMap.wfFrom lo m = true) (h : lo ≤ k) :
    FMap.wfFrom lo (m.ins k v) = true := by
  induction m generalizing lo with
  | nil => exact FMap.wfFrom_cons.2 ⟨h, hv, rfl⟩
  | cons e r ih =>
    obtain ⟨a, x⟩ := e
    obtain ⟨h1, h2, h3⟩ := FMap.wfFrom_cons.1 hm
    simp only [FMap.ins]
    split
    · exact FMap.wfFrom_cons.2 ⟨h, hv, FMap.wfFrom_cons.2 ⟨by omega, h2, h3⟩⟩
    · split
      · exact FMap.wfFrom_cons.2 ⟨h1, hv, h3⟩
      · exact FMap.wfFrom_cons.2 ⟨h1, h2, ih h3 (by omega)⟩

/-- A write keeps the canonical form. -/
theorem FMap.set_wf {m : FMap n} (k : Nat) (v : BitVec n) (hm : m.wf = true) : (m.set k v).wf = true := by
  unfold FMap.set
  split
  · exact FMap.drop_wf _ hm
  · exact FMap.ins_wfFrom ‹_› hm (Nat.zero_le k)

theorem FMap.setList_wf {m : FMap n} (k : Nat) (vs : List (BitVec n)) (hm : m.wf = true) : (m.setList k vs).wf = true := by
  induction vs generalizing m k with
  | nil => exact hm
  | cons v vs ih => exact ih (k + 1) (FMap.set_wf k v hm)

/-- Two maps in canonical form that read alike are equal. -/
theorem FMap.ext_get {a b : FMap n} (ha : a.wf = true) (hb : b.wf = true) (h : ∀ k, a.get k = b.get k) : a = b := by
  suffices H : ∀ lo, FMap.wfFrom lo a = true → FMap.wfFrom lo b = true → a = b from H 0 ha hb
  clear ha hb
  induction a generalizing b with
  | nil =>
    intro lo _ hb
    cases b with
    | nil => rfl
    | cons e r =>
      obtain ⟨k, x⟩ := e
      have := h k
      simp only [FMap.get, if_true] at this
      exact absurd this.symm (FMap.wfFrom_cons.1 hb).2.1
  | cons e r ih =>
    obtain ⟨k, x⟩ := e
    intro lo ha hb
    obtain ⟨a1, a2, a3⟩ := FMap.wfFrom_cons.1 ha
    cases b with
    | nil => have := h k; simp only [FMap.get, if_true] at this; exact absurd this a2
    | cons e' r' =>
      obtain ⟨k', x'⟩ := e'
      obtain ⟨b1, b2, b3⟩ := FMap.wfFrom_cons.1 hb
      have hk : k = k' := by
        rcases Nat.lt_trichotomy k k' with hlt | heq | hgt
        · have := h k
          simp only [FMap.get, if_true] at this
          rw [if_neg (by omega), FMap.get_of_wfFrom b3 (by omega)] at this
          exact absurd this a2
        · exact heq
        · have := h k'
          simp only [FMap.get, if_true] at this
          rw [if_neg (by omega), FMap.get_of_wfFrom a3 (by omega)] at this
          exact absurd this.symm b2
      subst hk
      have hx : x = x' := by have := h k; simpa [FMap.get] using this
      subst hx
      congr 1
      refine ih (fun j => ?_) (k + 1) a3 b3
      by_cases hj : j = k
      · subst hj; rw [FMap.get_of_wfFrom a3 (by omega), FMap.get_of_wfFrom b3 (by omega)]
      · have := h j; simpa [FMap.get, hj] using this

/-- The record put at a number is found there. -/
theorem Tbl.find_put_eq {α : Type} (t : Tbl α) (k : Nat) (v : α) : (Tbl.put t k v).find k = some v := by
  induction t with
  | nil => simp [Tbl.put, Tbl.find]
  | cons e r ih =>
    obtain ⟨a, x⟩ := e
    simp only [Tbl.put]
    split
    · simp [Tbl.find]
    · split
      · subst a; simp [Tbl.find]
      · simp only [Tbl.find]; rw [if_neg ‹_›]; exact ih

/-- A record that is put leaves the others alone. -/
theorem Tbl.find_put_ne {α : Type} (t : Tbl α) {k j : Nat} (v : α) (h : j ≠ k) : (Tbl.put t k v).find j = Tbl.find t j := by
  induction t with
  | nil => simp [Tbl.put, Tbl.find, h]
  | cons e r ih =>
    obtain ⟨a, x⟩ := e
    simp only [Tbl.put]
    split
    · simp [Tbl.find, h]
    · split
      · subst a; simp [Tbl.find, h]
      · simp only [Tbl.find, ih]

/-- The later of two records at one number stands. -/
theorem Tbl.put_put {α : Type} (t : Tbl α) (k : Nat) (u v : α) : Tbl.put (Tbl.put t k u) k v = Tbl.put t k v := by
  induction t with
  | nil => simp [Tbl.put]
  | cons e r ih =>
    obtain ⟨a, x⟩ := e
    simp only [Tbl.put]
    split
    · rename_i h; simp [Tbl.put]
    · split
      · subst a; simp [Tbl.put]
      · rename_i h1 h2; simp only [Tbl.put]; rw [if_neg h1, if_neg h2, ih]

theorem Tbl.upd_of_find {α : Type} {t : Tbl α} {k : Nat} {v : α} (f : α → α) (h : Tbl.find t k = some v) :
    Tbl.upd t k f = Tbl.put t k (f v) := by simp [Tbl.upd, h]

theorem Tbl.find_upd {α : Type} (t : Tbl α) (k j : Nat) (f : α → α) :
    (Tbl.upd t k f).find j = if j = k then (Tbl.find t j).map f else Tbl.find t j := by
  unfold Tbl.upd
  split
  · rename_i v h
    split
    · subst j; rw [Tbl.find_put_eq, h]; rfl
    · exact Tbl.find_put_ne t _ ‹_›
  · rename_i h
    split
    · subst j; simp [h]
    · rfl

end Sys2Proof
end

