-- ==== Sys2Proof/Laws/Memory.lean ====
section
/-! SUPPORT. What the operations on memory leave: each keeps the canonical form, and a write reaches the bytes that it names and
no other. -/
namespace Sys2Proof.Machine
open Sys2Proof

/-- Memory after reset is in canonical form. -/
theorem reset_mem_wf : State.reset.m.mem.wf = true := rfl

/-- Writes at scattered places keep the canonical form. -/
theorem foldl_set_wf (es : List (Nat × Byte)) : ∀ {f : FMap 8}, f.wf = true → (es.foldl (fun f e => f.set e.1 e.2) f).wf = true := by
  induction es with
  | nil => exact fun h => h
  | cons e es ih => exact fun h => ih (FMap.set_wf e.1 e.2 h)

/-- A byte that no write of a list names reads as before. -/
theorem foldl_set_get_ne (es : List (Nat × Byte)) (a : Nat) (h : ∀ e ∈ es, e.1 ≠ a) :
    ∀ f : FMap 8, (es.foldl (fun f e => f.set e.1 e.2) f).get a = f.get a := by
  induction es with
  | nil => exact fun _ => rfl
  | cons e es ih =>
    intro f
    rw [List.foldl_cons, ih (fun x hx => h x (List.mem_cons_of_mem _ hx)),
      FMap.get_set_ne _ (Ne.symm (h e List.mem_cons_self))]

/-- Making room in a home slice, and claiming a line, change nothing but the marks of dirty lines and the count of free values. -/
theorem makeRoom_eq (m : Mach) (line : Nat) : ∃ d n, m.makeRoom line = { m with dirty := d, free := n } := by
  unfold Mach.makeRoom
  dsimp only
  split
  · exact ⟨m.dirty, m.free, rfl⟩
  · split
    · exact ⟨m.dirty, m.free, rfl⟩
    · exact ⟨_, _, rfl⟩

theorem claimLine_eq (m : Mach) (ctx line : Nat) : ∃ d, m.claimLine ctx line = { m with dirty := d } := by
  unfold Mach.claimLine
  split
  · split
    · exact ⟨m.dirty, rfl⟩
    · exact ⟨_, rfl⟩
  · exact ⟨m.dirty, rfl⟩

/-- Steps that change nothing but the marks of dirty lines change nothing else together. -/
theorem foldl_dirty {α : Type} (f : Mach → α → Mach) (h : ∀ m x, ∃ d, f m x = { m with dirty := d }) (l : List α) :
    ∀ m, ∃ d, l.foldl f m = { m with dirty := d } := by
  induction l with
  | nil => exact fun m => ⟨m.dirty, rfl⟩
  | cons x l ih =>
    intro m
    obtain ⟨d, hd⟩ := h m x
    obtain ⟨d', h'⟩ := ih { m with dirty := d }
    exact ⟨d', by rw [List.foldl_cons, hd, h']⟩

/-- Looking lines up, on a walk and for an engine's access, changes nothing but the marks of dirty lines. -/
theorem claim_eq (m : Mach) (ctx : Nat) (keys : List Nat) : ∃ d, m.claim ctx keys = { m with dirty := d } := by
  unfold Mach.claim
  split
  · exact ⟨m.dirty, rfl⟩
  · exact foldl_dirty _ (fun m k => claimLine_eq m ctx (k / 128)) keys m

theorem walked_eq (m : Mach) (ctx va : Nat) : ∃ d, m.walked ctx va = { m with dirty := d } := by
  unfold Mach.walked
  split
  · exact ⟨m.dirty, rfl⟩
  · exact foldl_dirty _ (fun m ks => claim_eq m ctx ks) _ m

theorem brought_eq (m : Mach) (ctx va n : Nat) (keys : List Nat) : ∃ d, m.brought ctx va n keys = { m with dirty := d } := by
  unfold Mach.brought
  split
  · exact ⟨m.dirty, rfl⟩
  · obtain ⟨d, hd⟩ := foldl_dirty _ (fun m (c : Nat × Nat) => walked_eq m ctx c.1) (granuleChunks (n / 2 ^ 16 + 2) va n) m
    obtain ⟨d', h'⟩ := claim_eq { m with dirty := d } ctx keys
    exact ⟨d', by rw [hd, h']⟩

@[simp] theorem brought_mem (m : Mach) (ctx va n : Nat) (keys : List Nat) : (m.brought ctx va n keys).mem = m.mem := by
  obtain ⟨d, hd⟩ := brought_eq m ctx va n keys; rw [hd]
@[simp] theorem claim_mem (m : Mach) (ctx : Nat) (keys : List Nat) : (m.claim ctx keys).mem = m.mem := by
  obtain ⟨d, hd⟩ := claim_eq m ctx keys; rw [hd]

/-- Marking lines dirty changes nothing but the marks and the count of free values. -/
theorem touch_eq (m : Mach) (ctx : Nat) (keys : List Nat) : ∃ d n, m.touch ctx keys = { m with dirty := d, free := n } := by
  unfold Mach.touch
  induction keys generalizing m with
  | nil => exact ⟨m.dirty, m.free, rfl⟩
  | cons k ks ih =>
    rw [List.foldl_cons]
    obtain ⟨d, hd⟩ := claimLine_eq m ctx (k / 128)
    rw [hd]
    dsimp only
    split
    · exact ih { m with dirty := d }
    · obtain ⟨e, n, he⟩ := makeRoom_eq { m with dirty := d } (k / 128)
      rw [he]
      exact ih _

@[simp] theorem touch_mem (m : Mach) (ctx : Nat) (keys : List Nat) : (m.touch ctx keys).mem = m.mem := by
  obtain ⟨d, n, hd⟩ := touch_eq m ctx keys; rw [hd]

/-- A write leaves memory with its bytes set, and changes nothing else but the marks of dirty lines and of uncorrectable granules and
the count of free values. -/
theorem write_eq (m : Mach) (ctx : Nat) (keys : List Nat) (data : List Byte) : ∃ d n b b', m.write ctx keys data =
    { m with mem := (keys.zip data).foldl (fun f e => f.set e.1 e.2) m.mem, dirty := d, free := n, bad := b, badL2 := b' } := by
  obtain ⟨d, n, hd⟩ := touch_eq m ctx keys
  refine ⟨d, n, (m.write ctx keys data).bad, (m.write ctx keys data).badL2, ?_⟩
  simp only [Mach.write, hd]

/-- A write keeps the canonical form. -/
theorem write_wf {m : Mach} (ctx : Nat) (keys : List Nat) (data : List Byte) (h : m.mem.wf = true) : (m.write ctx keys data).mem.wf = true := by
  obtain ⟨d, n, b, b', e⟩ := write_eq m ctx keys data
  rw [e]; exact foldl_set_wf _ h

/-- A byte that a write does not name reads as before. -/
theorem write_get_ne {m : Mach} {keys : List Nat} (ctx : Nat) (data : List Byte) {a : Nat} (h : a ∉ keys) :
    (m.write ctx keys data).mem.get a = m.mem.get a := by
  obtain ⟨d, n, b, b', e⟩ := write_eq m ctx keys data
  rw [e]
  exact foldl_set_get_ne _ a (fun x hx hxa => h (hxa ▸ (List.of_mem_zip hx).1)) _

theorem writePA_wf {m : Mach} (ctx part pa : Nat) (data : List Byte) (h : m.mem.wf = true) :
    (m.writePA ctx part pa data).mem.wf = true := write_wf ctx _ data h

/-- Zeroing a channel keeps the canonical form and leaves the other channels alone. -/
theorem zeroChannel_wf {m : Mach} (ch : Nat) (h : m.mem.wf = true) : (m.zeroChannel ch).mem.wf = true := by
  unfold Mach.zeroChannel; exact FMap.drop_wf (fun k => decide (k / 2 ^ 31 = ch)) h

/-- A dirty line that is lost reads again as DRAM holds it; memory keeps its canonical form. -/
theorem loseLine_wf {m : Mach} (line : Nat) (h : m.mem.wf = true) : (m.loseLine line).mem.wf = true := by
  unfold Mach.loseLine
  split
  · exact h
  · exact FMap.setList_wf _ _ h

theorem zeroChannel_get (m : Mach) (ch k : Nat) : (m.zeroChannel ch).mem.get k = if k / 2 ^ 31 = ch then 0#8 else m.mem.get k := by
  simp [Mach.zeroChannel, FMap.get_drop]

end Sys2Proof.Machine
end

