-- ==== Sys2Proof/Laws/PerInstr.lean ====
section
/-! SUPPORT. Per instruction: the fields of a well-formed instruction's word name that instruction again, by its opcode, its FN
and its MOD (03_encoding.md R59). An event of the part has no word and is not well formed. -/
namespace Sys2Proof.Laws.Named
open Sys2Proof

/-- The fields of the word of `i`, where it is well formed, name `i`. -/
def Statement (i : Instr) : Prop := i.wf = true → ∃ r, i.raw = some r ∧ r.instr = some i

theorem named_event {i : Instr} (h : i.op = none) : Statement i := fun hw => absurd hw (by simp [not_wf_of_no_op h])

theorem bitsAt_eq_extract {n : Nat} (x : BitVec n) (lo k : Nat) : bitsAt x lo k = (x.extractLsb' lo k).toNat := by
  simp [bitsAt, BitVec.extractLsb', BitVec.toNat_ofNat]

theorem extract_eq_of_toNat {n lo k a : Nat} {x : BitVec n} (h : (x.extractLsb' lo k).toNat = a) :
    x.extractLsb' lo k = BitVec.ofNat k a := by
  apply BitVec.eq_of_toNat_eq; rw [BitVec.toNat_ofNat, ← h, Nat.mod_eq_of_lt (BitVec.isLt _)]

theorem bit4_of_mask {x : BitVec 20} (h : x &&& ~~~0xF#20 = 0#20) : x.getLsbD 4 = false := by
  have := congrArg (fun y : BitVec 20 => y.getLsbD 4) h
  simpa using this

end Sys2Proof.Laws.Named

theorem Sys2Proof.Laws.Named.nop (w : ZForm) : Sys2Proof.Laws.Named.Statement (.nop w) := fun _ => ⟨_, rfl, by simp [Raw.instr, Raw.op0]⟩
theorem Sys2Proof.Laws.Named.iadd (w : CForm) : Sys2Proof.Laws.Named.Statement (.iadd w) := fun _ => ⟨_, rfl, by simp [Raw.instr, Raw.op0]⟩
theorem Sys2Proof.Laws.Named.isub (w : CForm) : Sys2Proof.Laws.Named.Statement (.isub w) := fun _ => ⟨_, rfl, by simp [Raw.instr, Raw.op0]⟩
theorem Sys2Proof.Laws.Named.imul (w : CForm) : Sys2Proof.Laws.Named.Statement (.imul w) := fun _ => ⟨_, rfl, by simp [Raw.instr, Raw.op0]⟩
theorem Sys2Proof.Laws.Named.imad (w : CForm) : Sys2Proof.Laws.Named.Statement (.imad w) := fun _ => ⟨_, rfl, by simp [Raw.instr, Raw.op0]⟩
theorem Sys2Proof.Laws.Named.imadw (w : CForm) : Sys2Proof.Laws.Named.Statement (.imadw w) := fun _ => ⟨_, rfl, by simp [Raw.instr, Raw.op0]⟩
theorem Sys2Proof.Laws.Named.idiv (w : CForm) : Sys2Proof.Laws.Named.Statement (.idiv w) := fun _ => ⟨_, rfl, by simp [Raw.instr, Raw.op0]⟩
theorem Sys2Proof.Laws.Named.imnmx (w : CForm) : Sys2Proof.Laws.Named.Statement (.imnmx w) := fun _ => ⟨_, rfl, by simp [Raw.instr, Raw.op0]⟩
theorem Sys2Proof.Laws.Named.iabs (w : CForm) : Sys2Proof.Laws.Named.Statement (.iabs w) := fun _ => ⟨_, rfl, by simp [Raw.instr, Raw.op0]⟩
theorem Sys2Proof.Laws.Named.lop (w : CForm) : Sys2Proof.Laws.Named.Statement (.lop w) := fun _ => ⟨_, rfl, by simp [Raw.instr, Raw.op0]⟩
theorem Sys2Proof.Laws.Named.lop3 (w : CForm) : Sys2Proof.Laws.Named.Statement (.lop3 w) := fun _ => ⟨_, rfl, by simp [Raw.instr, Raw.op0]⟩
theorem Sys2Proof.Laws.Named.shl (w : CForm) : Sys2Proof.Laws.Named.Statement (.shl w) := fun _ => ⟨_, rfl, by simp [Raw.instr, Raw.op0]⟩
theorem Sys2Proof.Laws.Named.shr (w : CForm) : Sys2Proof.Laws.Named.Statement (.shr w) := fun _ => ⟨_, rfl, by simp [Raw.instr, Raw.op0]⟩
theorem Sys2Proof.Laws.Named.rot (w : CForm) : Sys2Proof.Laws.Named.Statement (.rot w) := fun _ => ⟨_, rfl, by simp [Raw.instr, Raw.op0]⟩
theorem Sys2Proof.Laws.Named.shf (w : CForm) : Sys2Proof.Laws.Named.Statement (.shf w) := fun _ => ⟨_, rfl, by simp [Raw.instr, Raw.op0]⟩
theorem Sys2Proof.Laws.Named.bfx (w : CForm) : Sys2Proof.Laws.Named.Statement (.bfx w) := fun _ => ⟨_, rfl, by simp [Raw.instr, Raw.op0]⟩
theorem Sys2Proof.Laws.Named.bfi (w : CForm) : Sys2Proof.Laws.Named.Statement (.bfi w) := fun _ => ⟨_, rfl, by simp [Raw.instr, Raw.op1]⟩
theorem Sys2Proof.Laws.Named.popc (w : CForm) : Sys2Proof.Laws.Named.Statement (.popc w) := fun _ => ⟨_, rfl, by simp [Raw.instr, Raw.op1]⟩
theorem Sys2Proof.Laws.Named.clz (w : CForm) : Sys2Proof.Laws.Named.Statement (.clz w) := fun _ => ⟨_, rfl, by simp [Raw.instr, Raw.op1]⟩
theorem Sys2Proof.Laws.Named.brev (w : CForm) : Sys2Proof.Laws.Named.Statement (.brev w) := fun _ => ⟨_, rfl, by simp [Raw.instr, Raw.op1]⟩
theorem Sys2Proof.Laws.Named.prmb (w : CForm) : Sys2Proof.Laws.Named.Statement (.prmb w) := fun _ => ⟨_, rfl, by simp [Raw.instr, Raw.op1]⟩
theorem Sys2Proof.Laws.Named.iadd64 (w : CForm) : Sys2Proof.Laws.Named.Statement (.iadd64 w) := fun _ => ⟨_, rfl, by simp [Raw.instr, Raw.op1]⟩
theorem Sys2Proof.Laws.Named.lea (w : CForm) : Sys2Proof.Laws.Named.Statement (.lea w) := fun _ => ⟨_, rfl, by simp [Raw.instr, Raw.op1]⟩
theorem Sys2Proof.Laws.Named.lea64 (w : CForm) : Sys2Proof.Laws.Named.Statement (.lea64 w) := fun _ => ⟨_, rfl, by simp [Raw.instr, Raw.op1]⟩
theorem Sys2Proof.Laws.Named.mov (w : CForm) : Sys2Proof.Laws.Named.Statement (.mov w) := fun _ => ⟨_, rfl, by simp [Raw.instr, Raw.op1]⟩
theorem Sys2Proof.Laws.Named.movi (w : IForm) : Sys2Proof.Laws.Named.Statement (.movi w) := fun _ => ⟨_, rfl, by simp [Raw.instr, Raw.op1]⟩
theorem Sys2Proof.Laws.Named.sel (w : CForm) : Sys2Proof.Laws.Named.Statement (.sel w) := fun _ => ⟨_, rfl, by simp [Raw.instr, Raw.op1]⟩
theorem Sys2Proof.Laws.Named.idp4 (w : CForm) : Sys2Proof.Laws.Named.Statement (.idp4 w) := fun _ => ⟨_, rfl, by simp [Raw.instr, Raw.op1]⟩
theorem Sys2Proof.Laws.Named.mix (w : CForm) : Sys2Proof.Laws.Named.Statement (.mix w) := fun _ => ⟨_, rfl, by simp [Raw.instr, Raw.op1]⟩
theorem Sys2Proof.Laws.Named.fadd (w : CForm) : Sys2Proof.Laws.Named.Statement (.fadd w) := fun _ => ⟨_, rfl, by simp [Raw.instr, Raw.op2]⟩
theorem Sys2Proof.Laws.Named.fmul (w : CForm) : Sys2Proof.Laws.Named.Statement (.fmul w) := fun _ => ⟨_, rfl, by simp [Raw.instr, Raw.op2]⟩
theorem Sys2Proof.Laws.Named.ffma (w : CForm) : Sys2Proof.Laws.Named.Statement (.ffma w) := fun _ => ⟨_, rfl, by simp [Raw.instr, Raw.op2]⟩
theorem Sys2Proof.Laws.Named.fdot2 (w : CForm) : Sys2Proof.Laws.Named.Statement (.fdot2 w) := fun _ => ⟨_, rfl, by simp [Raw.instr, Raw.op3]⟩
theorem Sys2Proof.Laws.Named.fmin (w : CForm) : Sys2Proof.Laws.Named.Statement (.fmin w) := fun _ => ⟨_, rfl, by simp [Raw.instr, Raw.op2]⟩
theorem Sys2Proof.Laws.Named.fmax (w : CForm) : Sys2Proof.Laws.Named.Statement (.fmax w) := fun _ => ⟨_, rfl, by simp [Raw.instr, Raw.op2]⟩
theorem Sys2Proof.Laws.Named.fdiv (w : CForm) : Sys2Proof.Laws.Named.Statement (.fdiv w) := fun _ => ⟨_, rfl, by simp [Raw.instr, Raw.op2]⟩
theorem Sys2Proof.Laws.Named.fsqrt (w : CForm) : Sys2Proof.Laws.Named.Statement (.fsqrt w) := fun _ => ⟨_, rfl, by simp [Raw.instr, Raw.op2]⟩
theorem Sys2Proof.Laws.Named.frcp (w : CForm) : Sys2Proof.Laws.Named.Statement (.frcp w) := fun _ => ⟨_, rfl, by simp [Raw.instr, Raw.op2]⟩
theorem Sys2Proof.Laws.Named.frsq (w : CForm) : Sys2Proof.Laws.Named.Statement (.frsq w) := fun _ => ⟨_, rfl, by simp [Raw.instr, Raw.op2]⟩
theorem Sys2Proof.Laws.Named.fex2 (w : CForm) : Sys2Proof.Laws.Named.Statement (.fex2 w) := fun _ => ⟨_, rfl, by simp [Raw.instr, Raw.op2]⟩
theorem Sys2Proof.Laws.Named.flg2 (w : CForm) : Sys2Proof.Laws.Named.Statement (.flg2 w) := fun _ => ⟨_, rfl, by simp [Raw.instr, Raw.op2]⟩
theorem Sys2Proof.Laws.Named.fsinp (w : CForm) : Sys2Proof.Laws.Named.Statement (.fsinp w) := fun _ => ⟨_, rfl, by simp [Raw.instr, Raw.op2]⟩
theorem Sys2Proof.Laws.Named.fcosp (w : CForm) : Sys2Proof.Laws.Named.Statement (.fcosp w) := fun _ => ⟨_, rfl, by simp [Raw.instr, Raw.op2]⟩
theorem Sys2Proof.Laws.Named.frnd (w : CForm) : Sys2Proof.Laws.Named.Statement (.frnd w) := fun _ => ⟨_, rfl, by simp [Raw.instr, Raw.op2]⟩
theorem Sys2Proof.Laws.Named.fscl (w : CForm) : Sys2Proof.Laws.Named.Statement (.fscl w) := fun _ => ⟨_, rfl, by simp [Raw.instr, Raw.op2]⟩
theorem Sys2Proof.Laws.Named.fxtr (w : CForm) : Sys2Proof.Laws.Named.Statement (.fxtr w) := fun _ => ⟨_, rfl, by simp [Raw.instr, Raw.op2]⟩
theorem Sys2Proof.Laws.Named.fcls (w : CForm) : Sys2Proof.Laws.Named.Statement (.fcls w) := fun _ => ⟨_, rfl, by simp [Raw.instr, Raw.op3]⟩
theorem Sys2Proof.Laws.Named.cvti (w : CForm) : Sys2Proof.Laws.Named.Statement (.cvti w) := fun _ => ⟨_, rfl, by simp [Raw.instr, Raw.op4]⟩
theorem Sys2Proof.Laws.Named.cvtf (w : CForm) : Sys2Proof.Laws.Named.Statement (.cvtf w) := fun _ => ⟨_, rfl, by simp [Raw.instr, Raw.op4]⟩
theorem Sys2Proof.Laws.Named.cvtif (w : CForm) : Sys2Proof.Laws.Named.Statement (.cvtif w) := fun _ => ⟨_, rfl, by simp [Raw.instr, Raw.op4]⟩
theorem Sys2Proof.Laws.Named.cvtfi (w : CForm) : Sys2Proof.Laws.Named.Statement (.cvtfi w) := fun _ => ⟨_, rfl, by simp [Raw.instr, Raw.op4]⟩
theorem Sys2Proof.Laws.Named.cvtnEnc (w : CForm) : Sys2Proof.Laws.Named.Statement (.cvtnEnc w) := by
  intro h
  have hf : w.fn = _ := fn_of_wf h rfl rfl
  exact ⟨_, rfl, by simp [Raw.instr, Raw.op4, hf]⟩
theorem Sys2Proof.Laws.Named.cvtnDec (w : CForm) : Sys2Proof.Laws.Named.Statement (.cvtnDec w) := by
  intro h
  have hf : w.fn = _ := fn_of_wf h rfl rfl
  exact ⟨_, rfl, by simp [Raw.instr, Raw.op4, hf]⟩
theorem Sys2Proof.Laws.Named.cvtwFx (w : CForm) : Sys2Proof.Laws.Named.Statement (.cvtwFx w) := by
  intro h
  have hf : w.fn = _ := fn_of_wf h rfl rfl
  exact ⟨_, rfl, by simp [Raw.instr, Raw.op4, hf]⟩
theorem Sys2Proof.Laws.Named.cvtwFp (w : CForm) : Sys2Proof.Laws.Named.Statement (.cvtwFp w) := by
  intro h
  have hf : w.fn = _ := fn_of_wf h rfl rfl
  exact ⟨_, rfl, by simp [Raw.instr, Raw.op4, hf]⟩
theorem Sys2Proof.Laws.Named.srnd (w : CForm) : Sys2Proof.Laws.Named.Statement (.srnd w) := fun _ => ⟨_, rfl, by simp [Raw.instr, Raw.op4]⟩
theorem Sys2Proof.Laws.Named.rand (w : CForm) : Sys2Proof.Laws.Named.Statement (.rand w) := fun _ => ⟨_, rfl, by simp [Raw.instr, Raw.op4]⟩
theorem Sys2Proof.Laws.Named.pack (w : CForm) : Sys2Proof.Laws.Named.Statement (.pack w) := fun _ => ⟨_, rfl, by simp [Raw.instr, Raw.op4]⟩
theorem Sys2Proof.Laws.Named.unpk (w : CForm) : Sys2Proof.Laws.Named.Statement (.unpk w) := fun _ => ⟨_, rfl, by simp [Raw.instr, Raw.op4]⟩
theorem Sys2Proof.Laws.Named.isetp (w : CForm) : Sys2Proof.Laws.Named.Statement (.isetp w) := fun _ => ⟨_, rfl, by simp [Raw.instr, Raw.op5]⟩
theorem Sys2Proof.Laws.Named.fsetp (w : CForm) : Sys2Proof.Laws.Named.Statement (.fsetp w) := fun _ => ⟨_, rfl, by simp [Raw.instr, Raw.op5]⟩
theorem Sys2Proof.Laws.Named.plop (w : CForm) : Sys2Proof.Laws.Named.Statement (.plop w) := fun _ => ⟨_, rfl, by simp [Raw.instr, Raw.op5]⟩
theorem Sys2Proof.Laws.Named.pmovP2v (w : CForm) : Sys2Proof.Laws.Named.Statement (.pmovP2v w) := by
  intro h
  have hf : w.fn = _ := fn_of_wf h rfl rfl
  exact ⟨_, rfl, by simp [Raw.instr, Raw.op5, hf]⟩
theorem Sys2Proof.Laws.Named.pmovV2p (w : CForm) : Sys2Proof.Laws.Named.Statement (.pmovV2p w) := by
  intro h
  have hf : w.fn = _ := fn_of_wf h rfl rfl
  exact ⟨_, rfl, by simp [Raw.instr, Raw.op5, hf]⟩
theorem Sys2Proof.Laws.Named.vote (w : CForm) : Sys2Proof.Laws.Named.Statement (.vote w) := fun _ => ⟨_, rfl, by simp [Raw.instr, Raw.op5]⟩
theorem Sys2Proof.Laws.Named.shfl (w : CForm) : Sys2Proof.Laws.Named.Statement (.shfl w) := fun _ => ⟨_, rfl, by simp [Raw.instr, Raw.op5]⟩
theorem Sys2Proof.Laws.Named.wred (w : CForm) : Sys2Proof.Laws.Named.Statement (.wred w) := fun _ => ⟨_, rfl, by simp [Raw.instr, Raw.op5]⟩
theorem Sys2Proof.Laws.Named.wscan (w : CForm) : Sys2Proof.Laws.Named.Statement (.wscan w) := fun _ => ⟨_, rfl, by simp [Raw.instr, Raw.op5]⟩
theorem Sys2Proof.Laws.Named.wfred (w : CForm) : Sys2Proof.Laws.Named.Statement (.wfred w) := fun _ => ⟨_, rfl, by simp [Raw.instr, Raw.op5]⟩
theorem Sys2Proof.Laws.Named.match (w : CForm) : Sys2Proof.Laws.Named.Statement (.match w) := fun _ => ⟨_, rfl, by simp [Raw.instr, Raw.op5]⟩
theorem Sys2Proof.Laws.Named.s2v (w : CForm) : Sys2Proof.Laws.Named.Statement (.s2v w) := fun _ => ⟨_, rfl, by simp [Raw.instr, Raw.op5]⟩
theorem Sys2Proof.Laws.Named.flagsRd (w : CForm) : Sys2Proof.Laws.Named.Statement (.flagsRd w) := by
  intro h
  have hf : w.fn = _ := fn_of_wf h rfl rfl
  exact ⟨_, rfl, by simp [Raw.instr, Raw.op5, hf]⟩
theorem Sys2Proof.Laws.Named.flagsClr (w : CForm) : Sys2Proof.Laws.Named.Statement (.flagsClr w) := by
  intro h
  have hf : w.fn = _ := fn_of_wf h rfl rfl
  exact ⟨_, rfl, by simp [Raw.instr, Raw.op5, hf]⟩
theorem Sys2Proof.Laws.Named.prio (w : CForm) : Sys2Proof.Laws.Named.Statement (.prio w) := fun _ => ⟨_, rfl, by simp [Raw.instr, Raw.op5]⟩
theorem Sys2Proof.Laws.Named.bra (w : TForm) : Sys2Proof.Laws.Named.Statement (.bra w) := fun _ => ⟨_, rfl, by simp [Raw.instr, Raw.op6]⟩
theorem Sys2Proof.Laws.Named.brx (w : CForm) : Sys2Proof.Laws.Named.Statement (.brx w) := fun _ => ⟨_, rfl, by simp [Raw.instr, Raw.op6]⟩
theorem Sys2Proof.Laws.Named.rcv (w : ZForm) : Sys2Proof.Laws.Named.Statement (.rcv w) := fun _ => ⟨_, rfl, by simp [Raw.instr, Raw.op6]⟩
theorem Sys2Proof.Laws.Named.call (w : TForm) : Sys2Proof.Laws.Named.Statement (.call w) := fun _ => ⟨_, rfl, by simp [Raw.instr, Raw.op6]⟩
theorem Sys2Proof.Laws.Named.ret (w : ZForm) : Sys2Proof.Laws.Named.Statement (.ret w) := fun _ => ⟨_, rfl, by simp [Raw.instr, Raw.op6]⟩
theorem Sys2Proof.Laws.Named.exit (w : ZForm) : Sys2Proof.Laws.Named.Statement (.exit w) := fun _ => ⟨_, rfl, by simp [Raw.instr, Raw.op6]⟩
theorem Sys2Proof.Laws.Named.loop (w : IForm) : Sys2Proof.Laws.Named.Statement (.loop w) := fun _ => ⟨_, rfl, by simp [Raw.instr, Raw.op6]⟩
theorem Sys2Proof.Laws.Named.bkpt (w : IForm) : Sys2Proof.Laws.Named.Statement (.bkpt w) := fun _ => ⟨_, rfl, by simp [Raw.instr, Raw.op6]⟩
theorem Sys2Proof.Laws.Named.ld (w : CForm) : Sys2Proof.Laws.Named.Statement (.ld w) := fun _ => ⟨_, rfl, by simp [Raw.instr, Raw.op7]⟩
theorem Sys2Proof.Laws.Named.st (w : CForm) : Sys2Proof.Laws.Named.Statement (.st w) := fun _ => ⟨_, rfl, by simp [Raw.instr, Raw.op7]⟩
theorem Sys2Proof.Laws.Named.prf (w : CForm) : Sys2Proof.Laws.Named.Statement (.prf w) := fun _ => ⟨_, rfl, by simp [Raw.instr, Raw.op7]⟩
theorem Sys2Proof.Laws.Named.opf (w : CForm) : Sys2Proof.Laws.Named.Statement (.opf w) := fun _ => ⟨_, rfl, by simp [Raw.instr, Raw.op7]⟩
theorem Sys2Proof.Laws.Named.cmnt (w : CForm) : Sys2Proof.Laws.Named.Statement (.cmnt w) := fun _ => ⟨_, rfl, by simp [Raw.instr, Raw.op7]⟩
theorem Sys2Proof.Laws.Named.fence (w : CForm) : Sys2Proof.Laws.Named.Statement (.fence w) := fun _ => ⟨_, rfl, by simp [Raw.instr, Raw.op7]⟩
theorem Sys2Proof.Laws.Named.axch (w : CForm) : Sys2Proof.Laws.Named.Statement (.axch w) := fun _ => ⟨_, rfl, by simp [Raw.instr, Raw.op8]⟩
theorem Sys2Proof.Laws.Named.acas (w : CForm) : Sys2Proof.Laws.Named.Statement (.acas w) := fun _ => ⟨_, rfl, by simp [Raw.instr, Raw.op8]⟩
theorem Sys2Proof.Laws.Named.aadd (w : CForm) : Sys2Proof.Laws.Named.Statement (.aadd w) := fun _ => ⟨_, rfl, by simp [Raw.instr, Raw.op8]⟩
theorem Sys2Proof.Laws.Named.amnmx (w : CForm) : Sys2Proof.Laws.Named.Statement (.amnmx w) := fun _ => ⟨_, rfl, by simp [Raw.instr, Raw.op8]⟩
theorem Sys2Proof.Laws.Named.alop (w : CForm) : Sys2Proof.Laws.Named.Statement (.alop w) := fun _ => ⟨_, rfl, by simp [Raw.instr, Raw.op8]⟩
theorem Sys2Proof.Laws.Named.agadd (w : CForm) : Sys2Proof.Laws.Named.Statement (.agadd w) := fun _ => ⟨_, rfl, by simp [Raw.instr, Raw.op8]⟩
theorem Sys2Proof.Laws.Named.ainc (w : CForm) : Sys2Proof.Laws.Named.Statement (.ainc w) := fun _ => ⟨_, rfl, by simp [Raw.instr, Raw.op8]⟩
theorem Sys2Proof.Laws.Named.fbind (w : CForm) : Sys2Proof.Laws.Named.Statement (.fbind w) := fun _ => ⟨_, rfl, by simp [Raw.instr, Raw.op9]⟩
theorem Sys2Proof.Laws.Named.fld (w : CForm) : Sys2Proof.Laws.Named.Statement (.fld w) := fun _ => ⟨_, rfl, by simp [Raw.instr, Raw.op9]⟩
theorem Sys2Proof.Laws.Named.fldg (w : CForm) : Sys2Proof.Laws.Named.Statement (.fldg w) := fun _ => ⟨_, rfl, by simp [Raw.instr, Raw.op9]⟩
theorem Sys2Proof.Laws.Named.fst (w : CForm) : Sys2Proof.Laws.Named.Statement (.fst w) := fun _ => ⟨_, rfl, by simp [Raw.instr, Raw.op9]⟩
theorem Sys2Proof.Laws.Named.fstg (w : CForm) : Sys2Proof.Laws.Named.Statement (.fstg w) := fun _ => ⟨_, rfl, by simp [Raw.instr, Raw.op9]⟩
theorem Sys2Proof.Laws.Named.fwt (w : CForm) : Sys2Proof.Laws.Named.Statement (.fwt w) := fun _ => ⟨_, rfl, by simp [Raw.instr, Raw.op9]⟩
theorem Sys2Proof.Laws.Named.fdrn (w : CForm) : Sys2Proof.Laws.Named.Statement (.fdrn w) := fun _ => ⟨_, rfl, by simp [Raw.instr, Raw.op9]⟩
theorem Sys2Proof.Laws.Named.fclr (w : CForm) : Sys2Proof.Laws.Named.Statement (.fclr w) := fun _ => ⟨_, rfl, by simp [Raw.instr, Raw.op9]⟩
theorem Sys2Proof.Laws.Named.gang (w : CForm) : Sys2Proof.Laws.Named.Statement (.gang w) := fun _ => ⟨_, rfl, by simp [Raw.instr, Raw.opA]⟩
theorem Sys2Proof.Laws.Named.mma (w : CForm) : Sys2Proof.Laws.Named.Statement (.mma w) := fun _ => ⟨_, rfl, by simp [Raw.instr, Raw.opA]⟩
theorem Sys2Proof.Laws.Named.mldb (w : CForm) : Sys2Proof.Laws.Named.Statement (.mldb w) := fun _ => ⟨_, rfl, by simp [Raw.instr, Raw.opA]⟩
theorem Sys2Proof.Laws.Named.mldc (w : CForm) : Sys2Proof.Laws.Named.Statement (.mldc w) := fun _ => ⟨_, rfl, by simp [Raw.instr, Raw.opA]⟩
theorem Sys2Proof.Laws.Named.mclr (w : CForm) : Sys2Proof.Laws.Named.Statement (.mclr w) := fun _ => ⟨_, rfl, by simp [Raw.instr, Raw.opA]⟩
theorem Sys2Proof.Laws.Named.mdrn (w : CForm) : Sys2Proof.Laws.Named.Statement (.mdrn w) := fun _ => ⟨_, rfl, by simp [Raw.instr, Raw.opA]⟩
theorem Sys2Proof.Laws.Named.mstp (w : CForm) : Sys2Proof.Laws.Named.Statement (.mstp w) := fun _ => ⟨_, rfl, by simp [Raw.instr, Raw.opA]⟩
theorem Sys2Proof.Laws.Named.mperm (w : CForm) : Sys2Proof.Laws.Named.Statement (.mperm w) := fun _ => ⟨_, rfl, by simp [Raw.instr, Raw.opA]⟩
theorem Sys2Proof.Laws.Named.mred (w : CForm) : Sys2Proof.Laws.Named.Statement (.mred w) := fun _ => ⟨_, rfl, by simp [Raw.instr, Raw.opA]⟩
theorem Sys2Proof.Laws.Named.mtrn (w : CForm) : Sys2Proof.Laws.Named.Statement (.mtrn w) := fun _ => ⟨_, rfl, by simp [Raw.instr, Raw.opA]⟩
theorem Sys2Proof.Laws.Named.mhist (w : CForm) : Sys2Proof.Laws.Named.Statement (.mhist w) := fun _ => ⟨_, rfl, by simp [Raw.instr, Raw.opA]⟩
theorem Sys2Proof.Laws.Named.cpy (w : CForm) : Sys2Proof.Laws.Named.Statement (.cpy w) := fun _ => ⟨_, rfl, by simp [Raw.instr, Raw.opB]⟩
theorem Sys2Proof.Laws.Named.cpyb (w : CForm) : Sys2Proof.Laws.Named.Statement (.cpyb w) := fun _ => ⟨_, rfl, by simp [Raw.instr, Raw.opB]⟩
theorem Sys2Proof.Laws.Named.bclose (w : CForm) : Sys2Proof.Laws.Named.Statement (.bclose w) := fun _ => ⟨_, rfl, by simp [Raw.instr, Raw.opB]⟩
theorem Sys2Proof.Laws.Named.bwait (w : CForm) : Sys2Proof.Laws.Named.Statement (.bwait w) := fun _ => ⟨_, rfl, by simp [Raw.instr, Raw.opB]⟩
theorem Sys2Proof.Laws.Named.barArrive (w : CForm) : Sys2Proof.Laws.Named.Statement (.barArrive w) := by
  intro h
  have hf : w.fn = _ := fn_of_wf h rfl rfl
  exact ⟨_, rfl, by simp [Raw.instr, Raw.opB, hf]⟩
theorem Sys2Proof.Laws.Named.barWait (w : CForm) : Sys2Proof.Laws.Named.Statement (.barWait w) := by
  intro h
  have hf : w.fn = _ := fn_of_wf h rfl rfl
  exact ⟨_, rfl, by simp [Raw.instr, Raw.opB, hf]⟩
theorem Sys2Proof.Laws.Named.barSync (w : CForm) : Sys2Proof.Laws.Named.Statement (.barSync w) := by
  intro h
  have hf : w.fn = _ := fn_of_wf h rfl rfl
  exact ⟨_, rfl, by simp [Raw.instr, Raw.opB, hf]⟩
theorem Sys2Proof.Laws.Named.barx (w : CForm) : Sys2Proof.Laws.Named.Statement (.barx w) := fun _ => ⟨_, rfl, by simp [Raw.instr, Raw.opB]⟩
theorem Sys2Proof.Laws.Named.sleep (w : CForm) : Sys2Proof.Laws.Named.Statement (.sleep w) := fun _ => ⟨_, rfl, by simp [Raw.instr, Raw.opB]⟩
theorem Sys2Proof.Laws.Named.wake (w : CForm) : Sys2Proof.Laws.Named.Statement (.wake w) := fun _ => ⟨_, rfl, by simp [Raw.instr, Raw.opB]⟩
theorem Sys2Proof.Laws.Named.smov (w : CForm) : Sys2Proof.Laws.Named.Statement (.smov w) := fun _ => ⟨_, rfl, by simp [Raw.instr, Raw.opC]⟩
theorem Sys2Proof.Laws.Named.salu (w : CForm) : Sys2Proof.Laws.Named.Statement (.salu w) := fun _ => ⟨_, rfl, by simp [Raw.instr, Raw.opC]⟩
theorem Sys2Proof.Laws.Named.ssetp (w : CForm) : Sys2Proof.Laws.Named.Statement (.ssetp w) := fun _ => ⟨_, rfl, by simp [Raw.instr, Raw.opC]⟩
theorem Sys2Proof.Laws.Named.sld (w : CForm) : Sys2Proof.Laws.Named.Statement (.sld w) := fun _ => ⟨_, rfl, by simp [Raw.instr, Raw.opC]⟩
theorem Sys2Proof.Laws.Named.sst (w : CForm) : Sys2Proof.Laws.Named.Statement (.sst w) := fun _ => ⟨_, rfl, by simp [Raw.instr, Raw.opC]⟩
theorem Sys2Proof.Laws.Named.sbr (w : CForm) : Sys2Proof.Laws.Named.Statement (.sbr w) := fun _ => ⟨_, rfl, by simp [Raw.instr, Raw.opC]⟩
theorem Sys2Proof.Laws.Named.v2s (w : CForm) : Sys2Proof.Laws.Named.Statement (.v2s w) := fun _ => ⟨_, rfl, by simp [Raw.instr, Raw.opC]⟩
theorem Sys2Proof.Laws.Named.shpwWr (w : CForm) : Sys2Proof.Laws.Named.Statement (.shpwWr w) := by
  intro h
  have hm := (shape_ok_of_wf h rfl rfl).2
  have hx : (w.raw 0xC8#8).x.getLsbD 4 = false := (w.raw_bit _ 4 (by decide)).trans (bit4_of_mask hm)
  exact ⟨_, rfl, by rw [Raw.instr]; simp [Raw.opC, -BitVec.getLsbD_eq_getElem, hx]⟩
theorem Sys2Proof.Laws.Named.shpwMk (w : CForm) : Sys2Proof.Laws.Named.Statement (.shpwMk w) := by
  intro h
  have hm := (shape_ok_of_wf h rfl rfl).1
  have hx : (w.raw 0xC8#8).x.getLsbD 4 = true := (w.raw_bit _ 4 (by decide)).trans (of_decide_eq_true hm)
  exact ⟨_, rfl, by rw [Raw.instr]; simp [Raw.opC, -BitVec.getLsbD_eq_getElem, hx]⟩
theorem Sys2Proof.Laws.Named.lsclRd (w : CForm) : Sys2Proof.Laws.Named.Statement (.lsclRd w) := by
  intro h
  have hm := (shape_ok_of_wf h rfl rfl).1
  simp only [bitsAt_eq_extract, decide_eq_true_eq] at hm
  exact ⟨_, rfl, by simp [Raw.instr, Raw.opC, CForm.raw_low, extract_eq_of_toNat hm]⟩
theorem Sys2Proof.Laws.Named.lsclSet (w : CForm) : Sys2Proof.Laws.Named.Statement (.lsclSet w) := by
  intro h
  have hm := (shape_ok_of_wf h rfl rfl).1
  simp only [bitsAt_eq_extract, decide_eq_true_eq] at hm
  exact ⟨_, rfl, by simp [Raw.instr, Raw.opC, CForm.raw_low, extract_eq_of_toNat hm]⟩
theorem Sys2Proof.Laws.Named.lsclUpd (w : CForm) : Sys2Proof.Laws.Named.Statement (.lsclUpd w) := by
  intro h
  have hm := (shape_ok_of_wf h rfl rfl).1
  simp only [bitsAt_eq_extract, decide_eq_true_eq] at hm
  exact ⟨_, rfl, by simp [Raw.instr, Raw.opC, CForm.raw_low, extract_eq_of_toNat hm]⟩
theorem Sys2Proof.Laws.Named.sclaimClaim (w : CForm) : Sys2Proof.Laws.Named.Statement (.sclaimClaim w) := by
  intro h
  have hf : w.fn = _ := fn_of_wf h rfl rfl
  exact ⟨_, rfl, by simp [Raw.instr, Raw.opC, hf]⟩
theorem Sys2Proof.Laws.Named.sclaimRel (w : CForm) : Sys2Proof.Laws.Named.Statement (.sclaimRel w) := by
  intro h
  have hf : w.fn = _ := fn_of_wf h rfl rfl
  exact ⟨_, rfl, by simp [Raw.instr, Raw.opC, hf]⟩
theorem Sys2Proof.Laws.Named.ovftRd (w : CForm) : Sys2Proof.Laws.Named.Statement (.ovftRd w) := by
  intro h
  have hf : w.fn = _ := fn_of_wf h rfl rfl
  exact ⟨_, rfl, by simp [Raw.instr, Raw.opC, hf]⟩
theorem Sys2Proof.Laws.Named.ovftClr (w : CForm) : Sys2Proof.Laws.Named.Statement (.ovftClr w) := by
  intro h
  have hf : w.fn = _ := fn_of_wf h rfl rfl
  exact ⟨_, rfl, by simp [Raw.instr, Raw.opC, hf]⟩
theorem Sys2Proof.Laws.Named.cbarArrive (w : CForm) : Sys2Proof.Laws.Named.Statement (.cbarArrive w) := by
  intro h
  have hf : w.fn = _ := fn_of_wf h rfl rfl
  exact ⟨_, rfl, by simp [Raw.instr, Raw.opB, hf]⟩
theorem Sys2Proof.Laws.Named.cbarWait (w : CForm) : Sys2Proof.Laws.Named.Statement (.cbarWait w) := by
  intro h
  have hf : w.fn = _ := fn_of_wf h rfl rfl
  exact ⟨_, rfl, by simp [Raw.instr, Raw.opB, hf]⟩
theorem Sys2Proof.Laws.Named.cbarSync (w : CForm) : Sys2Proof.Laws.Named.Statement (.cbarSync w) := by
  intro h
  have hf : w.fn = _ := fn_of_wf h rfl rfl
  exact ⟨_, rfl, by simp [Raw.instr, Raw.opB, hf]⟩
theorem Sys2Proof.Laws.Named.gadd (w : CForm) : Sys2Proof.Laws.Named.Statement (.gadd w) := fun _ => ⟨_, rfl, by simp [Raw.instr, Raw.opD]⟩
theorem Sys2Proof.Laws.Named.grd (w : CForm) : Sys2Proof.Laws.Named.Statement (.grd w) := fun _ => ⟨_, rfl, by simp [Raw.instr, Raw.opD]⟩
theorem Sys2Proof.Laws.Named.gsprd (w : CForm) : Sys2Proof.Laws.Named.Statement (.gsprd w) := fun _ => ⟨_, rfl, by simp [Raw.instr, Raw.opD]⟩
theorem Sys2Proof.Laws.Named.gsync (w : CForm) : Sys2Proof.Laws.Named.Statement (.gsync w) := fun _ => ⟨_, rfl, by simp [Raw.instr, Raw.opD]⟩
theorem Sys2Proof.Laws.Named.gctlStart (w : CForm) : Sys2Proof.Laws.Named.Statement (.gctlStart w) := by
  intro h
  have hf : w.fn = _ := fn_of_wf h rfl rfl
  exact ⟨_, rfl, by simp [Raw.instr, Raw.opD, hf]⟩
theorem Sys2Proof.Laws.Named.gctlStop (w : CForm) : Sys2Proof.Laws.Named.Statement (.gctlStop w) := by
  intro h
  have hf : w.fn = _ := fn_of_wf h rfl rfl
  exact ⟨_, rfl, by simp [Raw.instr, Raw.opD, hf]⟩
theorem Sys2Proof.Laws.Named.gctlRate (w : CForm) : Sys2Proof.Laws.Named.Statement (.gctlRate w) := by
  intro h
  have hf : w.fn = _ := fn_of_wf h rfl rfl
  exact ⟨_, rfl, by simp [Raw.instr, Raw.opD, hf]⟩
theorem Sys2Proof.Laws.Named.gctlStep (w : CForm) : Sys2Proof.Laws.Named.Statement (.gctlStep w) := by
  intro h
  have hf : w.fn = _ := fn_of_wf h rfl rfl
  exact ⟨_, rfl, by simp [Raw.instr, Raw.opD, hf]⟩
theorem Sys2Proof.Laws.Named.gmass (w : CForm) : Sys2Proof.Laws.Named.Statement (.gmass w) := fun _ => ⟨_, rfl, by simp [Raw.instr, Raw.opD]⟩
theorem Sys2Proof.Laws.Named.coll (w : CForm) : Sys2Proof.Laws.Named.Statement (.coll w) := fun _ => ⟨_, rfl, by simp [Raw.instr, Raw.opD]⟩
theorem Sys2Proof.Laws.Named.trap (w : IForm) : Sys2Proof.Laws.Named.Statement (.trap w) := fun _ => ⟨_, rfl, by simp [Raw.instr, Raw.opE]⟩
theorem Sys2Proof.Laws.Named.eret (w : ZForm) : Sys2Proof.Laws.Named.Statement (.eret w) := fun _ => ⟨_, rfl, by simp [Raw.instr, Raw.opE]⟩
theorem Sys2Proof.Laws.Named.halt (w : ZForm) : Sys2Proof.Laws.Named.Statement (.halt w) := fun _ => ⟨_, rfl, by simp [Raw.instr, Raw.opE]⟩
theorem Sys2Proof.Laws.Named.mqchk (w : CForm) : Sys2Proof.Laws.Named.Statement (.mqchk w) := fun _ => ⟨_, rfl, by simp [Raw.instr, Raw.opE]⟩
theorem Sys2Proof.Laws.Named.shashSet (w : CForm) : Sys2Proof.Laws.Named.Statement (.shashSet w) := by
  intro h
  have hf : w.fn = _ := fn_of_wf h rfl rfl
  exact ⟨_, rfl, by simp [Raw.instr, Raw.opE, hf]⟩
theorem Sys2Proof.Laws.Named.shashClr (w : CForm) : Sys2Proof.Laws.Named.Statement (.shashClr w) := by
  intro h
  have hf : w.fn = _ := fn_of_wf h rfl rfl
  exact ⟨_, rfl, by simp [Raw.instr, Raw.opE, hf]⟩
theorem Sys2Proof.Laws.Named.sysr (w : CForm) : Sys2Proof.Laws.Named.Statement (.sysr w) := fun _ => ⟨_, rfl, by simp [Raw.instr, Raw.opE]⟩
theorem Sys2Proof.Laws.Named.sysw (w : CForm) : Sys2Proof.Laws.Named.Statement (.sysw w) := fun _ => ⟨_, rfl, by simp [Raw.instr, Raw.opE]⟩
theorem Sys2Proof.Laws.Named.ctxsvSave (w : CForm) : Sys2Proof.Laws.Named.Statement (.ctxsvSave w) := by
  intro h
  have hf : w.fn = _ := fn_of_wf h rfl rfl
  exact ⟨_, rfl, by simp [Raw.instr, Raw.opE, hf]⟩
theorem Sys2Proof.Laws.Named.ctxsvRest (w : CForm) : Sys2Proof.Laws.Named.Statement (.ctxsvRest w) := by
  intro h
  have hf : w.fn = _ := fn_of_wf h rfl rfl
  exact ⟨_, rfl, by simp [Raw.instr, Raw.opE, hf]⟩
theorem Sys2Proof.Laws.Named.clauseStart (core slot : Nat) : Sys2Proof.Laws.Named.Statement (.clauseStart core slot) := named_event rfl
theorem Sys2Proof.Laws.Named.deschedule (core slot : Nat) (pack : PackId) : Sys2Proof.Laws.Named.Statement (.deschedule core slot pack) := named_event rfl
theorem Sys2Proof.Laws.Named.packEnter (core slot : Nat) : Sys2Proof.Laws.Named.Statement (.packEnter core slot) := named_event rfl
theorem Sys2Proof.Laws.Named.warpUrgent (blk w : Nat) : Sys2Proof.Laws.Named.Statement (.warpUrgent blk w) := named_event rfl
theorem Sys2Proof.Laws.Named.varComplete (blk w op : Nat) : Sys2Proof.Laws.Named.Statement (.varComplete blk w op) := named_event rfl
theorem Sys2Proof.Laws.Named.operationFault (blk w op : Nat) : Sys2Proof.Laws.Named.Statement (.operationFault blk w op) := named_event rfl
theorem Sys2Proof.Laws.Named.storePerform (blk w : Nat) : Sys2Proof.Laws.Named.Statement (.storePerform blk w) := named_event rfl
theorem Sys2Proof.Laws.Named.atomicGroup (blk w slice : Nat) : Sys2Proof.Laws.Named.Statement (.atomicGroup blk w slice) := named_event rfl
theorem Sys2Proof.Laws.Named.mqGateAdmit (blk w slice : Nat) : Sys2Proof.Laws.Named.Statement (.mqGateAdmit blk w slice) := named_event rfl
theorem Sys2Proof.Laws.Named.l2Evict (line : Nat) : Sys2Proof.Laws.Named.Statement (.l2Evict line) := named_event rfl
theorem Sys2Proof.Laws.Named.pageWalk (core ctx : Nat) (va : DWord) (acc : Access) : Sys2Proof.Laws.Named.Statement (.pageWalk core ctx va acc) := named_event rfl
theorem Sys2Proof.Laws.Named.fieldPair (blk w : Nat) : Sys2Proof.Laws.Named.Statement (.fieldPair blk w) := named_event rfl
theorem Sys2Proof.Laws.Named.mmaEngineEntry (blk w : Nat) : Sys2Proof.Laws.Named.Statement (.mmaEngineEntry blk w) := named_event rfl
theorem Sys2Proof.Laws.Named.gangRendezvous (blk : Nat) (members : Mask) : Sys2Proof.Laws.Named.Statement (.gangRendezvous blk members) := named_event rfl
theorem Sys2Proof.Laws.Named.gangBroken (blk : Nat) (members : Mask) : Sys2Proof.Laws.Named.Statement (.gangBroken blk members) := named_event rfl
theorem Sys2Proof.Laws.Named.copyPieceLand (blk w op piece : Nat) : Sys2Proof.Laws.Named.Statement (.copyPieceLand blk w op piece) := named_event rfl
theorem Sys2Proof.Laws.Named.waitPollTimer (blk w op : Nat) : Sys2Proof.Laws.Named.Statement (.waitPollTimer blk w op) := named_event rfl
theorem Sys2Proof.Laws.Named.sleepTimeout (blk w op : Nat) : Sys2Proof.Laws.Named.Statement (.sleepTimeout blk w op) := named_event rfl
theorem Sys2Proof.Laws.Named.sleepComplete (blk w op : Nat) : Sys2Proof.Laws.Named.Statement (.sleepComplete blk w op) := named_event rfl
theorem Sys2Proof.Laws.Named.batchRetire (blk w cls : Nat) : Sys2Proof.Laws.Named.Statement (.batchRetire blk w cls) := named_event rfl
theorem Sys2Proof.Laws.Named.cpybFinish (x : Nat) (far : FarReply) : Sys2Proof.Laws.Named.Statement (.cpybFinish x far) := named_event rfl
theorem Sys2Proof.Laws.Named.cpybRecord (x : Nat) : Sys2Proof.Laws.Named.Statement (.cpybRecord x) := named_event rfl
theorem Sys2Proof.Laws.Named.remoteCpybArrive (m : BulkMsg) : Sys2Proof.Laws.Named.Statement (.remoteCpybArrive m) := named_event rfl
theorem Sys2Proof.Laws.Named.cpybNoRoute (x : Nat) : Sys2Proof.Laws.Named.Statement (.cpybNoRoute x) := named_event rfl
theorem Sys2Proof.Laws.Named.warpStop (blk w : Nat) : Sys2Proof.Laws.Named.Statement (.warpStop blk w) := named_event rfl
theorem Sys2Proof.Laws.Named.haltBroadcast (blk : Nat) : Sys2Proof.Laws.Named.Statement (.haltBroadcast blk) := named_event rfl
theorem Sys2Proof.Laws.Named.warpSlotFree (blk w : Nat) : Sys2Proof.Laws.Named.Statement (.warpSlotFree blk w) := named_event rfl
theorem Sys2Proof.Laws.Named.handlerEntry (blk w : Nat) : Sys2Proof.Laws.Named.Statement (.handlerEntry blk w) := named_event rfl
theorem Sys2Proof.Laws.Named.blockResume (blk : Nat) : Sys2Proof.Laws.Named.Statement (.blockResume blk) := named_event rfl
theorem Sys2Proof.Laws.Named.faultTimeout (blk : Nat) : Sys2Proof.Laws.Named.Statement (.faultTimeout blk) := named_event rfl
theorem Sys2Proof.Laws.Named.rmaWrite (key : Word) (off : Nat) (data : List Byte) : Sys2Proof.Laws.Named.Statement (.rmaWrite key off data) := named_event rfl
theorem Sys2Proof.Laws.Named.rmaRead (key : Word) (off len : Nat) : Sys2Proof.Laws.Named.Statement (.rmaRead key off len) := named_event rfl
theorem Sys2Proof.Laws.Named.ueAtomic (key : Word) (off : Nat) : Sys2Proof.Laws.Named.Statement (.ueAtomic key off) := named_event rfl
theorem Sys2Proof.Laws.Named.doorbellWrite (key : Word) (off : Nat) (wc : DWord) : Sys2Proof.Laws.Named.Statement (.doorbellWrite key off wc) := named_event rfl
theorem Sys2Proof.Laws.Named.packetFetch (ring : Nat) : Sys2Proof.Laws.Named.Statement (.packetFetch ring) := named_event rfl
theorem Sys2Proof.Laws.Named.launchPacket (ctx : Nat) : Sys2Proof.Laws.Named.Statement (.launchPacket ctx) := named_event rfl
theorem Sys2Proof.Laws.Named.tlbInvalidatePacket (ctx : Nat) : Sys2Proof.Laws.Named.Statement (.tlbInvalidatePacket ctx) := named_event rfl
theorem Sys2Proof.Laws.Named.codeMap (ctx : Nat) : Sys2Proof.Laws.Named.Statement (.codeMap ctx) := named_event rfl
theorem Sys2Proof.Laws.Named.codeUnmap (ctx : Nat) : Sys2Proof.Laws.Named.Statement (.codeUnmap ctx) := named_event rfl
theorem Sys2Proof.Laws.Named.completionRecord (ring : Nat) : Sys2Proof.Laws.Named.Statement (.completionRecord ring) := named_event rfl
theorem Sys2Proof.Laws.Named.blockPlace (launch : Nat) : Sys2Proof.Laws.Named.Statement (.blockPlace launch) := named_event rfl
theorem Sys2Proof.Laws.Named.launchComplete (launch : Nat) : Sys2Proof.Laws.Named.Statement (.launchComplete launch) := named_event rfl
theorem Sys2Proof.Laws.Named.partSet : Sys2Proof.Laws.Named.Statement .partSet := named_event rfl
theorem Sys2Proof.Laws.Named.partClear : Sys2Proof.Laws.Named.Statement .partClear := named_event rfl
theorem Sys2Proof.Laws.Named.zeroisation (part : Nat) : Sys2Proof.Laws.Named.Statement (.zeroisation part) := named_event rfl
theorem Sys2Proof.Laws.Named.ctxSet : Sys2Proof.Laws.Named.Statement .ctxSet := named_event rfl
theorem Sys2Proof.Laws.Named.runlistWrite : Sys2Proof.Laws.Named.Statement .runlistWrite := named_event rfl
theorem Sys2Proof.Laws.Named.ringRestart : Sys2Proof.Laws.Named.Statement .ringRestart := named_event rfl
theorem Sys2Proof.Laws.Named.kill : Sys2Proof.Laws.Named.Statement .kill := named_event rfl
theorem Sys2Proof.Laws.Named.tlbinv : Sys2Proof.Laws.Named.Statement .tlbinv := named_event rfl
theorem Sys2Proof.Laws.Named.fwLoad : Sys2Proof.Laws.Named.Statement .fwLoad := named_event rfl
theorem Sys2Proof.Laws.Named.attest : Sys2Proof.Laws.Named.Statement .attest := named_event rfl
theorem Sys2Proof.Laws.Named.mcReset : Sys2Proof.Laws.Named.Statement .mcReset := named_event rfl
theorem Sys2Proof.Laws.Named.sliceExpiry (ctx : Nat) : Sys2Proof.Laws.Named.Statement (.sliceExpiry ctx) := named_event rfl
theorem Sys2Proof.Laws.Named.higherClassReady (ctx : Nat) : Sys2Proof.Laws.Named.Statement (.higherClassReady ctx) := named_event rfl
theorem Sys2Proof.Laws.Named.graceExpiry (ctx die : Nat) : Sys2Proof.Laws.Named.Statement (.graceExpiry ctx die) := named_event rfl
theorem Sys2Proof.Laws.Named.killtExpiry (ctx die : Nat) : Sys2Proof.Laws.Named.Statement (.killtExpiry ctx die) := named_event rfl
theorem Sys2Proof.Laws.Named.contextSave (ctx : Nat) : Sys2Proof.Laws.Named.Statement (.contextSave ctx) := named_event rfl
theorem Sys2Proof.Laws.Named.contextRestore (ctx : Nat) : Sys2Proof.Laws.Named.Statement (.contextRestore ctx) := named_event rfl
theorem Sys2Proof.Laws.Named.engineDrained (ctx engine : Nat) : Sys2Proof.Laws.Named.Statement (.engineDrained ctx engine) := named_event rfl
theorem Sys2Proof.Laws.Named.killComplete (ctx : Nat) : Sys2Proof.Laws.Named.Statement (.killComplete ctx) := named_event rfl
theorem Sys2Proof.Laws.Named.softErrorCorrected (die : Nat) : Sys2Proof.Laws.Named.Statement (.softErrorCorrected die) := named_event rfl
theorem Sys2Proof.Laws.Named.uncorrectableError (loc : ErrLoc) (ctx : Nat) : Sys2Proof.Laws.Named.Statement (.uncorrectableError loc ctx) := named_event rfl
theorem Sys2Proof.Laws.Named.l1TagError (core line : Nat) (tag : Bool) : Sys2Proof.Laws.Named.Statement (.l1TagError core line tag) := named_event rfl
theorem Sys2Proof.Laws.Named.l2TagOrEvictError (line : Nat) (tag : Bool) : Sys2Proof.Laws.Named.Statement (.l2TagOrEvictError line tag) := named_event rfl
theorem Sys2Proof.Laws.Named.scrub (line : Nat) : Sys2Proof.Laws.Named.Statement (.scrub line) := named_event rfl
theorem Sys2Proof.Laws.Named.flitReceive (link : Nat) (seq : Nat) (crcOk : Bool) : Sys2Proof.Laws.Named.Statement (.flitReceive link seq crcOk) := named_event rfl
theorem Sys2Proof.Laws.Named.linkDown (link far : Nat) : Sys2Proof.Laws.Named.Statement (.linkDown link far) := named_event rfl
theorem Sys2Proof.Laws.Named.linkUp (link far : Nat) : Sys2Proof.Laws.Named.Statement (.linkUp link far) := named_event rfl
theorem Sys2Proof.Laws.Named.congestionMark (ctl : Nat) : Sys2Proof.Laws.Named.Statement (.congestionMark ctl) := named_event rfl
theorem Sys2Proof.Laws.Named.rateRecovery (ctl : Nat) : Sys2Proof.Laws.Named.Statement (.rateRecovery ctl) := named_event rfl
theorem Sys2Proof.Laws.Named.collInstanceRun (blk w op : Nat) (others : List CollMember) : Sys2Proof.Laws.Named.Statement (.collInstanceRun blk w op others) := named_event rfl
theorem Sys2Proof.Laws.Named.collAbort (blk w op : Nat) : Sys2Proof.Laws.Named.Statement (.collAbort blk w op) := named_event rfl
theorem Sys2Proof.Laws.Named.gossipSnapshot (ctx rgn chunk nbr : Nat) : Sys2Proof.Laws.Named.Statement (.gossipSnapshot ctx rgn chunk nbr) := named_event rfl
theorem Sys2Proof.Laws.Named.freeRunTick (ctx rgn : Nat) : Sys2Proof.Laws.Named.Statement (.freeRunTick ctx rgn) := named_event rfl
theorem Sys2Proof.Laws.Named.gossipMessageArrive (m : GossipMsg) : Sys2Proof.Laws.Named.Statement (.gossipMessageArrive m) := named_event rfl
theorem Sys2Proof.Laws.Named.gossipEnquiry (msg : Nat) : Sys2Proof.Laws.Named.Statement (.gossipEnquiry msg) := named_event rfl
theorem Sys2Proof.Laws.Named.gossipDecisionLearned (msg : Nat) (applied : Bool) : Sys2Proof.Laws.Named.Statement (.gossipDecisionLearned msg applied) := named_event rfl
theorem Sys2Proof.Laws.Named.thermalSustained (die : Nat) : Sys2Proof.Laws.Named.Statement (.thermalSustained die) := named_event rfl
theorem Sys2Proof.Laws.Named.powerOn : Sys2Proof.Laws.Named.Statement .powerOn := named_event rfl
theorem Sys2Proof.Laws.Named.railTimeout (rail : Nat) : Sys2Proof.Laws.Named.Statement (.railTimeout rail) := named_event rfl
theorem Sys2Proof.Laws.Named.powerOff : Sys2Proof.Laws.Named.Statement .powerOff := named_event rfl
theorem Sys2Proof.Laws.Named.bootStage (digest signature : List Byte) (pkg : BitVec 12) : Sys2Proof.Laws.Named.Statement (.bootStage digest signature pkg) := named_event rfl
theorem Sys2Proof.Laws.Named.currentSample (die amps : Nat) (tj : BitVec 8) : Sys2Proof.Laws.Named.Statement (.currentSample die amps tj) := named_event rfl
theorem Sys2Proof.Laws.Named.thermalShutdown (die : Nat) : Sys2Proof.Laws.Named.Statement (.thermalShutdown die) := named_event rfl
theorem Sys2Proof.Laws.Named.reset : Sys2Proof.Laws.Named.Statement .reset := named_event rfl
theorem Sys2Proof.Laws.Named.junctionAt105 (die : Nat) : Sys2Proof.Laws.Named.Statement (.junctionAt105 die) := named_event rfl
theorem Sys2Proof.Laws.Named.junctionBelow100 (die : Nat) (tj : BitVec 8) : Sys2Proof.Laws.Named.Statement (.junctionBelow100 die tj) := named_event rfl
theorem Sys2Proof.Laws.Named.hostRmaCompletion (id : Nat) (data : List Byte) : Sys2Proof.Laws.Named.Statement (.hostRmaCompletion id data) := named_event rfl
end

