-- ==== Sys2Proof/Laws/Results.lean ====
section
/-! SUPPORT. What the values of a result and of a captured operand read as. -/
namespace Sys2Proof.Machine
open Sys2Proof

theorem lanesOf_lt {w n l : Nat} {m : BitVec w} (h : l ∈ lanesOf m n) : l < n := by
  simp [lanesOf] at h; exact h.1

theorem mem_lanesOf {w n l : Nat} {m : BitVec w} : l ∈ lanesOf m n ↔ l < n ∧ m.getLsbD l = true := by
  simp [lanesOf]

/-- One lane's registers of a result. -/
theorem valsOf_lane (n l : Nat) (g : Nat → Word) (m : FMap 32) (hm : m.wf = true) (hl : l < 64) :
    ((List.range n).foldl (fun m o => FMap.set m (64 * o + l) (g o)) m).wf = true ∧
    ∀ k, ((List.range n).foldl (fun m o => FMap.set m (64 * o + l) (g o)) m).get k =
      if k % 64 = l ∧ k / 64 < n then g (k / 64) else m.get k := by
  induction n with
  | zero => exact ⟨hm, fun k => by simp⟩
  | succ n ih =>
    simp only [List.range_succ, List.foldl_append, List.foldl_cons, List.foldl_nil]
    refine ⟨FMap.set_wf _ _ ih.1, fun k => ?_⟩
    rw [FMap.get_set, ih.2 k]
    by_cases hk : k = 64 * n + l
    · have h1 : k % 64 = l := by omega
      have h2 : k / 64 = n := by omega
      simp [hk ▸ h1, hk ▸ h2, hk]
    · by_cases h1 : k % 64 = l ∧ k / 64 < n
      · rw [if_neg hk, if_pos h1, if_pos ⟨h1.1, by omega⟩]
      · rw [if_neg hk, if_neg h1, if_neg (by omega)]

/-- The values of a result: every lane's registers, and nothing else. -/
theorem valsOf_spec (n : Nat) (lanes : List Nat) (f : Nat → Nat → Word) (hl : ∀ l ∈ lanes, l < 64) :
    (valsOf n lanes f).wf = true ∧
      ∀ k, (valsOf n lanes f).get k = if k % 64 ∈ lanes ∧ k / 64 < n then f (k % 64) (k / 64) else 0 := by
  suffices H : ∀ m : FMap 32, m.wf = true →
      (lanes.foldl (fun m l => (List.range n).foldl (fun m o => FMap.set m (64 * o + l) (f l o)) m) m).wf = true ∧
      ∀ k, (lanes.foldl (fun m l => (List.range n).foldl (fun m o => FMap.set m (64 * o + l) (f l o)) m) m).get k =
        if k % 64 ∈ lanes ∧ k / 64 < n then f (k % 64) (k / 64) else m.get k from H [] rfl
  induction lanes with
  | nil => intro m hm; exact ⟨hm, fun k => by simp⟩
  | cons a r ih =>
    intro m hm
    have h1 := valsOf_lane n a (f a) m hm (hl a (by simp))
    have h2 := ih (fun l h => hl l (by simp [h])) _ h1.1
    refine ⟨h2.1, fun k => ?_⟩
    rw [List.foldl_cons, h2.2 k, h1.2 k]
    by_cases hk : k / 64 < n <;> by_cases hr : k % 64 ∈ r <;> by_cases ha : k % 64 = a <;> simp [hk, hr, ha]

theorem valsOf_get {n l o : Nat} {lanes : List Nat} {f : Nat → Nat → Word} (hl : ∀ x ∈ lanes, x < 64) (h : l ∈ lanes)
    (ho : o < n) : (valsOf n lanes f).get (resKey o l) = f l o := by
  have h64 := hl l h
  have h1 : (64 * o + l) % 64 = l := by omega
  have h2 : (64 * o + l) / 64 = o := by omega
  rw [(valsOf_spec n lanes f hl).2]
  simp [resKey, h1, h2, h, ho]

theorem valsOf_zero (lanes : List Nat) (f : Nat → Nat → Word) : valsOf 0 lanes f = [] := by
  unfold valsOf
  induction lanes with
  | nil => rfl
  | cons a r ih => simp

/-- Two results' values are equal where their words are. -/
theorem valsOf_congr {n : Nat} {lanes : List Nat} {f g : Nat → Nat → Word} (h : ∀ l ∈ lanes, ∀ o < n, f l o = g l o) :
    valsOf n lanes f = valsOf n lanes g := by
  unfold valsOf
  suffices H : ∀ (m : FMap 32) (ls : List Nat), (∀ l ∈ ls, l ∈ lanes) →
      ls.foldl (fun m l => (List.range n).foldl (fun m o => m.set (resKey o l) (f l o)) m) m =
      ls.foldl (fun m l => (List.range n).foldl (fun m o => m.set (resKey o l) (g l o)) m) m from H [] lanes (fun _ h => h)
  intro m ls
  induction ls generalizing m with
  | nil => intro _; rfl
  | cons a r ih =>
    intro hs
    simp only [List.foldl_cons]
    have ha := hs a (by simp)
    have : ∀ (k : Nat) (m : FMap 32), k ≤ n → (List.range k).foldl (fun m o => m.set (resKey o a) (f a o)) m =
        (List.range k).foldl (fun m o => m.set (resKey o a) (g a o)) m := by
      intro k
      induction k with
      | zero => intros; rfl
      | succ k ihk =>
        intro m hk
        simp only [List.range_succ, List.foldl_append, List.foldl_cons, List.foldl_nil]
        rw [ihk m (by omega), h a ha k (by omega)]
    rw [this n m (Nat.le_refl n)]
    exact ih _ (fun l hl => hs l (by simp [hl]))

theorem Cx.lanes_lt {c : Cx} {l : Nat} (h : l ∈ c.lanes) : l < 64 := lanesOf_lt h

/-- The lowest admitted lane is an admitted lane. -/
theorem Cx.lane_mem {c : Cx} (h : c.adm ≠ 0) : c.lane ∈ c.lanes := by
  have : c.lanes ≠ [] := by
    intro hn
    apply h
    apply BitVec.eq_of_getLsbD_eq
    intro i hi
    by_contra hx
    have : i ∈ c.lanes := mem_lanesOf.2 ⟨hi, by simpa using hx⟩
    rw [hn] at this
    cases this
  unfold Cx.lane
  cases hl : c.lanes with
  | nil => exact absurd hl this
  | cons a r => simp

end Sys2Proof.Machine
end

