-- ==== Sys2Proof/Tests/Slice0.lean ====
section
/-! SUPPORT. Tests: words written out from the encoding tables and what they decode to; a term for every check of
well-formedness; and, for the statements that have hypotheses, concrete states and operands that meet them together. -/
namespace Sys2Proof.Tests
open Sys2Proof Sys2Proof.Machine Sys2Proof.Spec

set_option maxRecDepth 100000
set_option Elab.async false

/-! ### Helpers -/

/-- A machine in which a warp stands before the word `w`. -/
def placed (w : IWord) : State := State.reset.place w

/-- The same with a change of its machine. -/
def changed (s : State) (f : Mach → Mach) : State := { s with m := f s.m }

/-- Changes of the placed warp, its block, its launch and its context. -/
def onWarp (f : Warp → Warp) (m : Mach) : Mach := { m with blocks := m.blocks.upd 0 (fun b => { b with warps := b.warps.upd 0 f }) }
def onBlock (f : Block → Block) (m : Mach) : Mach := { m with blocks := m.blocks.upd 0 f }
def onLaunch (f : Launch → Launch) (m : Mach) : Mach := { m with launches := m.launches.upd 0 f }
def onCtx (f : Ctx → Ctx) (m : Mach) : Mach := { m with ctxs := m.ctxs.upd 0 f }
def onPart (f : Part → Part) (m : Mach) : Mach := { m with parts := m.parts.upd 0 f }

/-- Register `r` of lane 0. -/
def reg (r : Nat) (x : Word) (m : Mach) : Mach := onWarp (fun w => { w with v := w.v.set (regKey r 0) x }) m

/-- A second 64 KiB page, writable, at its own address. -/
def page (m : Mach) : Mach :=
  let e : TlbEntry := { ctx := 0, va := 0x10000, size := 2 ^ 16, pa := 0x10000, w := true, x := false }
  { m with utlb := m.utlb.upd 0 (fun l => e :: l), ctlb := m.ctlb.upd 0 (fun l => e :: l) }

/-- Whether `i` issues in `s` with a view of which `P` holds. -/
def meets (s : State) (i : Instr) (P : Cx → Bool) : Bool :=
  i.wf && match openCx i s with
    | some c => !c.unitAbsent && !(modeDchk c.mode && c.adm != 0 && c.sh.cls != .opf && c.w.readsDead c.sh c.f) && P c
    | none => false

theorem meets_of {s : State} {i : Instr} {P : Cx → Prop} [DecidablePred P]
    (h : meets s i (fun c => decide (P c)) = true) : ∃ c, Issues s i c ∧ P c := by
  unfold meets at h
  cases ho : openCx i s with
  | none => rw [ho] at h; simp at h
  | some c =>
    rw [ho] at h
    simp only [Bool.and_eq_true, Bool.not_eq_true', decide_eq_true_eq] at h
    exact ⟨c, ⟨h.1, ho, h.2.1.1, by simpa using h.2.1.2⟩, h.2.2⟩

/-- Whether a word decodes and its instruction issues where it is placed. -/
def issues (w : IWord) : Bool :=
  match decode w with
  | some i => meets (placed w) i (fun _ => true)
  | none => false

theorem issues_of {w : IWord} (h : issues w = true) : ∃ i c, decode w = some i ∧ Issues (placed w) i c := by
  unfold issues at h
  split at h
  · rename_i i hd
    obtain ⟨c, hc, -⟩ := meets_of (P := fun _ => True) (by simpa using h)
    exact ⟨i, c, hd, hc⟩
  · cases h

/-- What an optional value holds. -/
theorem some_of {α : Type} {o : Option α} {P : α → Prop} [DecidablePred P]
    (h : (match o with | some a => decide (P a) | none => false) = true) : ∃ a, o = some a ∧ P a := by
  cases o with
  | none => cases h
  | some a => exact ⟨a, rfl, by simpa using h⟩

/-- Whether an outcome is a next state of which `P` holds. -/
def ends (r : Host.Outcome State Fault Refusal) (P : State → Bool) : Bool :=
  match r with
  | .next t => P t
  | _ => false

/-! ### Well-formedness: one term that each check refuses -/

/-- A word of no operands, unguarded. -/
def blank (fn : BitVec 4) (d a b c : Operand) (mod : BitVec 20) : CForm :=
  { g := ⟨false, 7⟩, hint := ⟨false, 0, false, false, false, false⟩, fn := fn, d := d, a := a, b := b, c := c, mod := mod }

theorem refuses_fn : (Instr.iadd (blank 4 (.v 1) (.v 2) (.v 3) (.v 0) 0)).reject = some .fnReserved := by decide
theorem refuses_mod_bit : (Instr.iadd (blank 0 (.v 1) (.v 2) (.v 3) (.v 0) 1)).reject = some .mbz := by decide
theorem refuses_unused_field : (Instr.iadd (blank 0 (.v 1) (.v 2) (.v 3) (.v 4) 0)).reject = some .mbz := by decide
theorem refuses_mod_value : (Instr.isetp (blank 0 (.v 0) (.v 2) (.v 3) (.v 0) 6)).reject = some .mbz := by decide
theorem refuses_flag_select : (Instr.idiv (blank 0 (.v 1) (.v 2) (.v 3) (.v 0) 0xC0000)).reject = some .mbz := by decide
theorem refuses_call_x :
    (Instr.call { g := ⟨false, 7⟩, hint := ⟨false, 0, false, false, false, false⟩, target := 0, x := 4 }).reject = some .mbz := by
  decide
theorem refuses_uniform_destination : (Instr.iadd (blank 0 (.s 1) (.v 2) (.v 3) (.v 0) 0)).reject = some .operand := by decide
theorem refuses_latch_of_an_operation : (Instr.idiv (blank 0 (.h 0) (.v 2) (.v 3) (.v 0) 0)).reject = some .operand := by decide
theorem refuses_reserved_special : (Instr.iadd (blank 0 (.v 1) (.special 0x14) (.v 3) (.v 0) 0)).reject = some .operand := by decide
theorem refuses_dead_hint :
    (Instr.iadd { blank 0 (.v 1) (.v 2) (.v 3) (.v 0) 0 with hint := ⟨false, 0, false, false, true, false⟩ }).reject = some .hint := by
  decide
theorem refuses_write_through :
    (Instr.iadd { blank 0 (.v 1) (.v 2) (.v 3) (.v 0) 0 with hint := ⟨false, 0, false, false, false, true⟩ }).reject = some .hint := by
  decide
theorem refuses_events : (Instr.reset).wf = false := by decide
/-- Words that decode by no rule: a reserved opcode, a header, an operand of level 3, HINT[0] set (03_encoding.md R50, R54, R61). -/
theorem rejects_words :
    decodeWord 0x1D0700000000000000000000#96 = .error .opReserved ∧ decodeWord 0xF83000000000000000000000#96 = .error .frame ∧
    decodeWord 0x0107001C0100300000000000#96 = .error .operand ∧ decodeWord 0x010700100200300100000000#96 = .error .mbz := by
  refine ⟨?_, ?_, ?_, ?_⟩ <;> rfl

/-! ### Words written out from the encoding tables -/

theorem decodes_integer :
    decode 0x000B00000000010000000000#96 = some (.nop { g := ⟨true, 3⟩, hint := ⟨false, 1, false, false, false, false⟩ }) ∧
    decode 0x0135013005811200000000B9#96 = some (.iadd { g := ⟨false, 5⟩, hint := ⟨false, 2, false, false, false, false⟩, fn := 3, d := .v 19, a := .v 5, b := .const 17, c := .v 0, mod := 0xB9 }) ∧
    decode 0x02384030C8607300000000E2#96 = some (.isub { g := ⟨true, 0⟩, hint := ⟨false, 3, false, false, false, false⟩, fn := 3, d := .b 3, a := .v 200, b := .s 7, c := .v 0, mod := 0xE2 }) ∧
    decode 0x032204D50104240000000000#96 = some (.imul { g := ⟨false, 2⟩, hint := ⟨false, 4, false, false, false, false⟩, fn := 2, d := .v 77, a := .h 1, b := .v 66, c := .v 0, mod := 0x0 }) ∧
    decode 0x041740400260350070200000#96 = some (.imad { g := ⟨false, 7⟩, hint := ⟨false, 5, false, false, false, false⟩, fn := 1, d := .b 4, a := .v 2, b := .s 3, c := .special 2, mod := 0x0 }) ∧
    decode 0x051B01E00300460000A00000#96 = some (.imadw { g := ⟨true, 3⟩, hint := ⟨false, 6, false, false, false, false⟩, fn := 1, d := .v 30, a := .v 3, b := .v 4, c := .v 10, mod := 0x0 }) ∧
    decode 0x062500300500670000040000#96 = some (.idiv { g := ⟨false, 5⟩, hint := ⟨false, 7, false, false, false, false⟩, fn := 2, d := .v 3, a := .v 5, b := .v 6, c := .v 0, mod := 0x40000 }) ∧
    decode 0x07380FF0FE0FD00000000000#96 = some (.imnmx { g := ⟨true, 0⟩, hint := ⟨false, 0, false, false, false, false⟩, fn := 3, d := .v 255, a := .v 254, b := .v 253, c := .v 0, mod := 0x0 }) ∧
    decode 0x081200100200010000000001#96 = some (.iabs { g := ⟨false, 2⟩, hint := ⟨false, 1, false, false, false, false⟩, fn := 1, d := .v 1, a := .v 2, b := .v 0, c := .v 0, mod := 0x1 }) ∧
    decode 0x095700900800720000000000#96 = some (.lop { g := ⟨false, 7⟩, hint := ⟨false, 2, false, false, false, false⟩, fn := 5, d := .v 9, a := .v 8, b := .v 7, c := .v 0, mod := 0x0 }) ∧
    decode 0x0A0B00900800730000600096#96 = some (.lop3 { g := ⟨true, 3⟩, hint := ⟨false, 3, false, false, false, false⟩, fn := 0, d := .v 9, a := .v 8, b := .v 7, c := .v 6, mod := 0x96 }) ∧
    decode 0x0B0501F02080540000000000#96 = some (.shl { g := ⟨false, 5⟩, hint := ⟨false, 4, false, false, false, false⟩, fn := 0, d := .v 31, a := .v 32, b := .const 5, c := .v 0, mod := 0x0 }) ∧
    decode 0x0C1802102202350000000000#96 = some (.shr { g := ⟨true, 0⟩, hint := ⟨false, 5, false, false, false, false⟩, fn := 1, d := .v 33, a := .v 34, b := .v 35, c := .v 0, mod := 0x0 }) ∧
    decode 0x0D1202402502660000000000#96 = some (.rot { g := ⟨false, 2⟩, hint := ⟨false, 6, false, false, false, false⟩, fn := 1, d := .v 36, a := .v 37, b := .v 38, c := .v 0, mod := 0x0 }) ∧
    decode 0x0E1702702802970002A00000#96 = some (.shf { g := ⟨false, 7⟩, hint := ⟨false, 7, false, false, false, false⟩, fn := 1, d := .v 39, a := .v 40, b := .v 41, c := .v 42, mod := 0x0 }) ∧
    decode 0x0F1B02B02C02D00000000000#96 = some (.bfx { g := ⟨true, 3⟩, hint := ⟨false, 0, false, false, false, false⟩, fn := 1, d := .v 43, a := .v 44, b := .v 45, c := .v 0, mod := 0x0 }) ∧
    decode 0x100502E02F03010003100000#96 = some (.bfi { g := ⟨false, 5⟩, hint := ⟨false, 1, false, false, false, false⟩, fn := 0, d := .v 46, a := .v 47, b := .v 48, c := .v 49, mod := 0x0 }) ∧
    decode 0x110803203300020000000000#96 = some (.popc { g := ⟨true, 0⟩, hint := ⟨false, 2, false, false, false, false⟩, fn := 0, d := .v 50, a := .v 51, b := .v 0, c := .v 0, mod := 0x0 }) ∧
    decode 0x121203403500030000000000#96 = some (.clz { g := ⟨false, 2⟩, hint := ⟨false, 3, false, false, false, false⟩, fn := 1, d := .v 52, a := .v 53, b := .v 0, c := .v 0, mod := 0x0 }) ∧
    decode 0x130703603700040000000000#96 = some (.brev { g := ⟨false, 7⟩, hint := ⟨false, 4, false, false, false, false⟩, fn := 0, d := .v 54, a := .v 55, b := .v 0, c := .v 0, mod := 0x0 }) ∧
    decode 0x140B03803903A50003B00000#96 = some (.prmb { g := ⟨true, 3⟩, hint := ⟨false, 5, false, false, false, false⟩, fn := 0, d := .v 56, a := .v 57, b := .v 58, c := .v 59, mod := 0x0 }) ∧
    decode 0x152503C03E04060000000000#96 = some (.iadd64 { g := ⟨false, 5⟩, hint := ⟨false, 6, false, false, false, false⟩, fn := 2, d := .v 60, a := .v 62, b := .v 64, c := .v 0, mod := 0x0 }) ∧
    decode 0x16080460470487000000001D#96 = some (.lea { g := ⟨true, 0⟩, hint := ⟨false, 7, false, false, false, false⟩, fn := 0, d := .v 70, a := .v 71, b := .v 72, c := .v 0, mod := 0x1D }) ∧
    decode 0x17020500520540000000002B#96 = some (.lea64 { g := ⟨false, 2⟩, hint := ⟨false, 0, false, false, false, false⟩, fn := 0, d := .v 80, a := .v 82, b := .v 84, c := .v 0, mod := 0x2B }) ∧
    decode 0x182705805C00010000000000#96 = some (.mov { g := ⟨false, 7⟩, hint := ⟨false, 1, false, false, false, false⟩, fn := 2, d := .v 88, a := .v 92, b := .v 0, c := .v 0, mod := 0x0 }) ∧
    decode 0x1A0B0640660682000000001E#96 = some (.sel { g := ⟨true, 3⟩, hint := ⟨false, 2, false, false, false, false⟩, fn := 0, d := .v 100, a := .v 102, b := .v 104, c := .v 0, mod := 0x1E }) ∧
    decode 0x1B1506E06F07030007100000#96 = some (.idp4 { g := ⟨false, 5⟩, hint := ⟨false, 3, false, false, false, false⟩, fn := 1, d := .v 110, a := .v 111, b := .v 112, c := .v 113, mod := 0x0 }) ∧
    decode 0x1C0807807907A40007B00003#96 = some (.mix { g := ⟨true, 0⟩, hint := ⟨false, 4, false, false, false, false⟩, fn := 0, d := .v 120, a := .v 121, b := .v 122, c := .v 123, mod := 0x3 }) ∧
    decode 0x1917006000000000FFFFFF85#96 = some (.movi { g := ⟨false, 7⟩, hint := ⟨false, 0, false, false, false, false⟩, fn := 1, d := .v 6, a := .v 0, b := .v 0, imm := 0xFFFFFF85 }) := by
  refine ⟨?_, ?_, ?_, ?_, ?_, ?_, ?_, ?_, ?_, ?_, ?_, ?_, ?_, ?_, ?_, ?_, ?_, ?_, ?_, ?_, ?_, ?_, ?_, ?_, ?_, ?_, ?_, ?_, ?_⟩ <;> rfl

theorem decodes_floating :
    decode 0x20020010020035000000000B#96 = some (.fadd { g := ⟨false, 2⟩, hint := ⟨false, 5, false, false, false, false⟩, fn := 0, d := .v 1, a := .v 2, b := .v 3, c := .v 0, mod := 0xB }) ∧
    decode 0x211700400500660000000002#96 = some (.fmul { g := ⟨false, 7⟩, hint := ⟨false, 6, false, false, false, false⟩, fn := 1, d := .v 4, a := .v 5, b := .v 6, c := .v 0, mod := 0x2 }) ∧
    decode 0x223B00800A00C70000E00001#96 = some (.ffma { g := ⟨true, 3⟩, hint := ⟨false, 7, false, false, false, false⟩, fn := 3, d := .v 8, a := .v 10, b := .v 12, c := .v 14, mod := 0x1 }) ∧
    decode 0x312501001101200001300004#96 = some (.fdot2 { g := ⟨false, 5⟩, hint := ⟨false, 0, false, false, false, false⟩, fn := 2, d := .v 16, a := .v 17, b := .v 18, c := .v 19, mod := 0x4 }) ∧
    decode 0x232801401501610000000000#96 = some (.fmin { g := ⟨true, 0⟩, hint := ⟨false, 1, false, false, false, false⟩, fn := 2, d := .v 20, a := .v 21, b := .v 22, c := .v 0, mod := 0x0 }) ∧
    decode 0x243201801A01C20000000000#96 = some (.fmax { g := ⟨false, 2⟩, hint := ⟨false, 2, false, false, false, false⟩, fn := 3, d := .v 24, a := .v 26, b := .v 28, c := .v 0, mod := 0x0 }) ∧
    decode 0x250701E01F0203000008000C#96 = some (.fdiv { g := ⟨false, 7⟩, hint := ⟨false, 3, false, false, false, false⟩, fn := 0, d := .v 30, a := .v 31, b := .v 32, c := .v 0, mod := 0x8000C }) ∧
    decode 0x261B02102200040000040003#96 = some (.fsqrt { g := ⟨true, 3⟩, hint := ⟨false, 4, false, false, false, false⟩, fn := 1, d := .v 33, a := .v 34, b := .v 0, c := .v 0, mod := 0x40003 }) ∧
    decode 0x272502302400050000040002#96 = some (.frcp { g := ⟨false, 5⟩, hint := ⟨false, 5, false, false, false, false⟩, fn := 2, d := .v 35, a := .v 36, b := .v 0, c := .v 0, mod := 0x40002 }) ∧
    decode 0x280802502600060002780005#96 = some (.frsq { g := ⟨true, 0⟩, hint := ⟨false, 6, false, false, false, false⟩, fn := 0, d := .v 37, a := .v 38, b := .v 0, c := .v 39, mod := 0x80005 }) ∧
    decode 0x290202802900070000040001#96 = some (.fex2 { g := ⟨false, 2⟩, hint := ⟨false, 7, false, false, false, false⟩, fn := 0, d := .v 40, a := .v 41, b := .v 0, c := .v 0, mod := 0x40001 }) ∧
    decode 0x2A0702A02B00000000040000#96 = some (.flg2 { g := ⟨false, 7⟩, hint := ⟨false, 0, false, false, false, false⟩, fn := 0, d := .v 42, a := .v 43, b := .v 0, c := .v 0, mod := 0x40000 }) ∧
    decode 0x2B0B02C02D00010000080000#96 = some (.fsinp { g := ⟨true, 3⟩, hint := ⟨false, 1, false, false, false, false⟩, fn := 0, d := .v 44, a := .v 45, b := .v 0, c := .v 0, mod := 0x80000 }) ∧
    decode 0x2C0502E02F00020000080004#96 = some (.fcosp { g := ⟨false, 5⟩, hint := ⟨false, 2, false, false, false, false⟩, fn := 0, d := .v 46, a := .v 47, b := .v 0, c := .v 0, mod := 0x80004 }) ∧
    decode 0x2D3803003200030000000003#96 = some (.frnd { g := ⟨true, 0⟩, hint := ⟨false, 3, false, false, false, false⟩, fn := 3, d := .v 48, a := .v 50, b := .v 0, c := .v 0, mod := 0x3 }) ∧
    decode 0x2E0203403581840000000009#96 = some (.fscl { g := ⟨false, 2⟩, hint := ⟨false, 4, false, false, false, false⟩, fn := 0, d := .v 52, a := .v 53, b := .const 24, c := .v 0, mod := 0x9 }) ∧
    decode 0x2F0703603700050000000010#96 = some (.fxtr { g := ⟨false, 7⟩, hint := ⟨false, 5, false, false, false, false⟩, fn := 0, d := .v 54, a := .v 55, b := .v 0, c := .v 0, mod := 0x10 }) ∧
    decode 0x301B03803900060000000000#96 = some (.fcls { g := ⟨true, 3⟩, hint := ⟨false, 6, false, false, false, false⟩, fn := 1, d := .v 56, a := .v 57, b := .v 0, c := .v 0, mod := 0x0 }) := by
  refine ⟨?_, ?_, ?_, ?_, ?_, ?_, ?_, ?_, ?_, ?_, ?_, ?_, ?_, ?_, ?_, ?_, ?_, ?_⟩ <;> rfl

theorem decodes_conversion :
    decode 0x400500100200070000001150#96 = some (.cvti { g := ⟨false, 5⟩, hint := ⟨false, 7, false, false, false, false⟩, fn := 0, d := .v 1, a := .v 2, b := .v 0, c := .v 0, mod := 0x1150 }) ∧
    decode 0x410800400600000000000BA9#96 = some (.cvtf { g := ⟨true, 0⟩, hint := ⟨false, 0, false, false, false, false⟩, fn := 0, d := .v 4, a := .v 6, b := .v 0, c := .v 0, mod := 0xBA9 }) ∧
    decode 0x4202008009000100000006A2#96 = some (.cvtif { g := ⟨false, 2⟩, hint := ⟨false, 1, false, false, false, false⟩, fn := 0, d := .v 8, a := .v 9, b := .v 0, c := .v 0, mod := 0x6A2 }) ∧
    decode 0x430700300800020000000A62#96 = some (.cvtfi { g := ⟨false, 7⟩, hint := ⟨false, 2, false, false, false, false⟩, fn := 0, d := .v 3, a := .v 8, b := .v 0, c := .v 0, mod := 0xA62 }) ∧
    decode 0x440B00A00B0003000000EAC2#96 = some (.cvtnEnc { g := ⟨true, 3⟩, hint := ⟨false, 3, false, false, false, false⟩, fn := 0, d := .v 10, a := .v 11, b := .v 0, c := .v 0, mod := 0xEAC2 }) ∧
    decode 0x441500C00D00E40000016CA1#96 = some (.cvtnDec { g := ⟨false, 5⟩, hint := ⟨false, 4, false, false, false, false⟩, fn := 1, d := .v 12, a := .v 13, b := .v 14, c := .v 0, mod := 0x16CA1 }) ∧
    decode 0x45080100120005000000FFA0#96 = some (.cvtwFx { g := ⟨true, 0⟩, hint := ⟨false, 5, false, false, false, false⟩, fn := 0, d := .v 16, a := .v 18, b := .v 0, c := .v 0, mod := 0xFFA0 }) ∧
    decode 0x451201401600060000009FA4#96 = some (.cvtwFp { g := ⟨false, 2⟩, hint := ⟨false, 6, false, false, false, false⟩, fn := 1, d := .v 20, a := .v 22, b := .v 0, c := .v 0, mod := 0x9FA4 }) ∧
    decode 0x460701801901A70000000170#96 = some (.srnd { g := ⟨false, 7⟩, hint := ⟨false, 7, false, false, false, false⟩, fn := 0, d := .v 24, a := .v 25, b := .v 26, c := .v 0, mod := 0x170 }) ∧
    decode 0x470B00400170200060500000#96 = some (.rand { g := ⟨true, 3⟩, hint := ⟨false, 0, false, false, false, false⟩, fn := 0, d := .v 4, a := .v 1, b := .special 2, c := .s 5, mod := 0x0 }) ∧
    decode 0x481501C01D01E1000000000A#96 = some (.pack { g := ⟨false, 5⟩, hint := ⟨false, 1, false, false, false, false⟩, fn := 1, d := .v 28, a := .v 29, b := .v 30, c := .v 0, mod := 0xA }) ∧
    decode 0x490801F02000020000000018#96 = some (.unpk { g := ⟨true, 0⟩, hint := ⟨false, 2, false, false, false, false⟩, fn := 0, d := .v 31, a := .v 32, b := .v 0, c := .v 0, mod := 0x18 }) := by
  refine ⟨?_, ?_, ?_, ?_, ?_, ?_, ?_, ?_, ?_, ?_, ?_, ?_⟩ <;> rfl

theorem decodes_predicate :
    decode 0x50120000020043000000053B#96 = some (.isetp { g := ⟨false, 2⟩, hint := ⟨false, 3, false, false, false, false⟩, fn := 1, d := .v 0, a := .v 2, b := .v 4, c := .v 0, mod := 0x53B }) ∧
    decode 0x51070000050064000000062D#96 = some (.fsetp { g := ⟨false, 7⟩, hint := ⟨false, 4, false, false, false, false⟩, fn := 0, d := .v 0, a := .v 5, b := .v 6, c := .v 0, mod := 0x62D }) ∧
    decode 0x526B0000000005000000C91B#96 = some (.plop { g := ⟨true, 3⟩, hint := ⟨false, 5, false, false, false, false⟩, fn := 6, d := .v 0, a := .v 0, b := .v 0, c := .v 0, mod := 0xC91B }) ∧
    decode 0x5305007000000600000000A5#96 = some (.pmovP2v { g := ⟨false, 5⟩, hint := ⟨false, 6, false, false, false, false⟩, fn := 0, d := .v 7, a := .v 0, b := .v 0, c := .v 0, mod := 0xA5 }) ∧
    decode 0x53180000080007000000005B#96 = some (.pmovV2p { g := ⟨true, 0⟩, hint := ⟨false, 7, false, false, false, false⟩, fn := 1, d := .v 0, a := .v 8, b := .v 0, c := .v 0, mod := 0x5B }) ∧
    decode 0x54120000000000000000005C#96 = some (.vote { g := ⟨false, 2⟩, hint := ⟨false, 0, false, false, false, false⟩, fn := 1, d := .v 0, a := .v 0, b := .v 0, c := .v 0, mod := 0x5C }) ∧
    decode 0x553700A00C00E10000000DB0#96 = some (.shfl { g := ⟨false, 7⟩, hint := ⟨false, 1, false, false, false, false⟩, fn := 3, d := .v 10, a := .v 12, b := .v 14, c := .v 0, mod := 0xDB0 }) ∧
    decode 0x567B00F01000020000040030#96 = some (.wred { g := ⟨true, 3⟩, hint := ⟨false, 2, false, false, false, false⟩, fn := 7, d := .v 15, a := .v 16, b := .v 0, c := .v 0, mod := 0x40030 }) ∧
    decode 0x581501101200030000085020#96 = some (.wscan { g := ⟨false, 5⟩, hint := ⟨false, 3, false, false, false, false⟩, fn := 1, d := .v 17, a := .v 18, b := .v 0, c := .v 0, mod := 0x85020 }) ∧
    decode 0x573801401600040000040011#96 = some (.wfred { g := ⟨true, 0⟩, hint := ⟨false, 4, false, false, false, false⟩, fn := 3, d := .v 20, a := .v 22, b := .v 0, c := .v 0, mod := 0x40011 }) ∧
    decode 0x591201801A00050000080B90#96 = some (.match { g := ⟨false, 2⟩, hint := ⟨false, 5, false, false, false, false⟩, fn := 1, d := .v 24, a := .v 26, b := .v 0, c := .v 0, mod := 0x80B90 }) ∧
    decode 0x5A0701C00000060000000012#96 = some (.s2v { g := ⟨false, 7⟩, hint := ⟨false, 6, false, false, false, false⟩, fn := 0, d := .v 28, a := .v 0, b := .v 0, c := .v 0, mod := 0x12 }) ∧
    decode 0x5B0B01D00000070000000000#96 = some (.flagsRd { g := ⟨true, 3⟩, hint := ⟨false, 7, false, false, false, false⟩, fn := 0, d := .v 29, a := .v 0, b := .v 0, c := .v 0, mod := 0x0 }) ∧
    decode 0x5B1500000000000000000015#96 = some (.flagsClr { g := ⟨false, 5⟩, hint := ⟨false, 0, false, false, false, false⟩, fn := 1, d := .v 0, a := .v 0, b := .v 0, c := .v 0, mod := 0x15 }) ∧
    decode 0x5D0800060900010000000010#96 = some (.prio { g := ⟨true, 0⟩, hint := ⟨false, 1, false, false, false, false⟩, fn := 0, d := .v 0, a := .s 9, b := .v 0, c := .v 0, mod := 0x10 }) := by
  refine ⟨?_, ?_, ?_, ?_, ?_, ?_, ?_, ?_, ?_, ?_, ?_, ?_, ?_, ?_, ?_⟩ <;> rfl

theorem decodes_memory :
    decode 0x700200C0140162000005B3F5#96 = some (.ld { g := ⟨false, 2⟩, hint := ⟨false, 2, false, false, false, false⟩, fn := 0, d := .v 12, a := .v 20, b := .v 22, c := .v 0, mod := 0x5B3F5 }) ∧
    decode 0x7117000017018300019520A7#96 = some (.st { g := ⟨false, 7⟩, hint := ⟨false, 3, false, false, false, false⟩, fn := 1, d := .v 0, a := .v 23, b := .v 24, c := .v 25, mod := 0x520A7 }) ∧
    decode 0x730B00001A01C4000004210F#96 = some (.prf { g := ⟨true, 3⟩, hint := ⟨false, 4, false, false, false, false⟩, fn := 0, d := .v 0, a := .v 26, b := .v 28, c := .v 0, mod := 0x4210F }) ∧
    decode 0x720500300A01400001E02341#96 = some (.opf { g := ⟨false, 5⟩, hint := ⟨false, 0, false, false, false, false⟩, fn := 0, d := .v 3, a := .v 10, b := .v 20, c := .v 30, mod := 0x2341 }) ∧
    decode 0x740800002002260000080002#96 = some (.cmnt { g := ⟨true, 0⟩, hint := ⟨false, 6, false, false, false, false⟩, fn := 0, d := .v 0, a := .v 32, b := .v 34, c := .v 0, mod := 0x80002 }) ∧
    decode 0x752200000000070000040600#96 = some (.fence { g := ⟨false, 2⟩, hint := ⟨false, 7, false, false, false, false⟩, fn := 2, d := .v 0, a := .v 0, b := .v 0, c := .v 0, mod := 0x40600 }) ∧
    decode 0x800702402602800000060000#96 = some (.axch { g := ⟨false, 7⟩, hint := ⟨false, 0, false, false, false, false⟩, fn := 0, d := .v 36, a := .v 38, b := .v 40, c := .v 0, mod := 0x60000 }) ∧
    decode 0x810B02A02B02C10002D90000#96 = some (.acas { g := ⟨true, 3⟩, hint := ⟨false, 1, false, false, false, false⟩, fn := 0, d := .v 42, a := .v 43, b := .v 44, c := .v 45, mod := 0x90000 }) ∧
    decode 0x821500002E03020000040000#96 = some (.aadd { g := ⟨false, 5⟩, hint := ⟨false, 2, false, false, false, false⟩, fn := 1, d := .v 0, a := .v 46, b := .v 48, c := .v 0, mod := 0x40000 }) ∧
    decode 0x830803203403630000040300#96 = some (.amnmx { g := ⟨true, 0⟩, hint := ⟨false, 3, false, false, false, false⟩, fn := 0, d := .v 50, a := .v 52, b := .v 54, c := .v 0, mod := 0x40300 }) ∧
    decode 0x841200003803A40000080200#96 = some (.alop { g := ⟨false, 2⟩, hint := ⟨false, 4, false, false, false, false⟩, fn := 1, d := .v 0, a := .v 56, b := .v 58, c := .v 0, mod := 0x80200 }) ∧
    decode 0x850703C03E04050000060009#96 = some (.agadd { g := ⟨false, 7⟩, hint := ⟨false, 5, false, false, false, false⟩, fn := 0, d := .v 60, a := .v 62, b := .v 64, c := .v 0, mod := 0x60009 }) ∧
    decode 0x860B04204304460000050000#96 = some (.ainc { g := ⟨true, 3⟩, hint := ⟨false, 6, false, false, false, false⟩, fn := 0, d := .v 66, a := .v 67, b := .v 68, c := .v 0, mod := 0x50000 }) := by
  refine ⟨?_, ?_, ?_, ?_, ?_, ?_, ?_, ?_, ?_, ?_, ?_, ?_, ?_⟩ <;> rfl

theorem decodes_field :
    decode 0x90050000020007000004002B#96 = some (.fbind { g := ⟨false, 5⟩, hint := ⟨false, 7, false, false, false, false⟩, fn := 0, d := .v 0, a := .v 2, b := .v 0, c := .v 0, mod := 0x4002B }) ∧
    decode 0x91080040060000000008060D#96 = some (.fld { g := ⟨true, 0⟩, hint := ⟨false, 0, false, false, false, false⟩, fn := 0, d := .v 4, a := .v 6, b := .v 0, c := .v 0, mod := 0x8060D }) ∧
    decode 0x920200A01400010000040503#96 = some (.fldg { g := ⟨false, 2⟩, hint := ⟨false, 1, false, false, false, false⟩, fn := 0, d := .v 10, a := .v 20, b := .v 0, c := .v 0, mod := 0x40503 }) ∧
    decode 0x930700001E02020000040A17#96 = some (.fst { g := ⟨false, 7⟩, hint := ⟨false, 2, false, false, false, false⟩, fn := 0, d := .v 0, a := .v 30, b := .v 32, c := .v 0, mod := 0x40A17 }) ∧
    decode 0x940B00002202430000040502#96 = some (.fstg { g := ⟨true, 3⟩, hint := ⟨false, 3, false, false, false, false⟩, fn := 0, d := .v 0, a := .v 34, b := .v 36, c := .v 0, mod := 0x40502 }) ∧
    decode 0x950502802C02F40000080209#96 = some (.fwt { g := ⟨false, 5⟩, hint := ⟨false, 4, false, false, false, false⟩, fn := 0, d := .v 40, a := .v 44, b := .v 47, c := .v 0, mod := 0x80209 }) ∧
    decode 0x96080000000005000001500C#96 = some (.fdrn { g := ⟨true, 0⟩, hint := ⟨false, 5, false, false, false, false⟩, fn := 0, d := .v 0, a := .v 0, b := .v 0, c := .v 0, mod := 0x1500C }) ∧
    decode 0x97020000000006000000000B#96 = some (.fclr { g := ⟨false, 2⟩, hint := ⟨false, 6, false, false, false, false⟩, fn := 0, d := .v 0, a := .v 0, b := .v 0, c := .v 0, mod := 0xB }) := by
  refine ⟨?_, ?_, ?_, ?_, ?_, ?_, ?_, ?_⟩ <;> rfl

theorem decodes_matrix :
    decode 0xA00700000200070000040000#96 = some (.gang { g := ⟨false, 7⟩, hint := ⟨false, 7, false, false, false, false⟩, fn := 0, d := .v 0, a := .v 2, b := .v 0, c := .v 0, mod := 0x40000 }) ∧
    decode 0xA19B00000A00C00060E5A5C3#96 = some (.mma { g := ⟨true, 3⟩, hint := ⟨false, 0, false, false, false, false⟩, fn := 9, d := .v 0, a := .v 10, b := .v 12, c := .s 14, mod := 0x5A5C3 }) ∧
    decode 0xA20500001001210001380005#96 = some (.mldb { g := ⟨false, 5⟩, hint := ⟨false, 1, false, false, false, false⟩, fn := 0, d := .v 0, a := .v 16, b := .v 18, c := .v 19, mod := 0x80005 }) ∧
    decode 0xA30800001401620001740002#96 = some (.mldc { g := ⟨true, 0⟩, hint := ⟨false, 2, false, false, false, false⟩, fn := 0, d := .v 0, a := .v 20, b := .v 22, c := .v 23, mod := 0x40002 }) ∧
    decode 0xA60200001801930000080000#96 = some (.mclr { g := ⟨false, 2⟩, hint := ⟨false, 3, false, false, false, false⟩, fn := 0, d := .v 0, a := .v 24, b := .v 25, c := .v 0, mod := 0x80000 }) ∧
    decode 0xA40702000000040062460003#96 = some (.mdrn { g := ⟨false, 7⟩, hint := ⟨false, 4, false, false, false, false⟩, fn := 0, d := .v 32, a := .v 0, b := .v 0, c := .s 36, mod := 0x60003 }) ∧
    decode 0xA50B00002202450062840001#96 = some (.mstp { g := ⟨true, 3⟩, hint := ⟨false, 5, false, false, false, false⟩, fn := 0, d := .v 0, a := .v 34, b := .v 36, c := .s 40, mod := 0x40001 }) ∧
    decode 0xA70500002602860000090000#96 = some (.mperm { g := ⟨false, 5⟩, hint := ⟨false, 6, false, false, false, false⟩, fn := 0, d := .v 0, a := .v 38, b := .v 40, c := .v 0, mod := 0x90000 }) ∧
    decode 0xA81800002A02B70000051234#96 = some (.mred { g := ⟨true, 0⟩, hint := ⟨false, 7, false, false, false, false⟩, fn := 1, d := .v 0, a := .v 42, b := .v 43, c := .v 0, mod := 0x51234 }) ∧
    decode 0xA90200002C00000000050000#96 = some (.mtrn { g := ⟨false, 2⟩, hint := ⟨false, 0, false, false, false, false⟩, fn := 0, d := .v 0, a := .v 44, b := .v 0, c := .v 0, mod := 0x50000 }) ∧
    decode 0xAA0702E000000100000A0009#96 = some (.mhist { g := ⟨false, 7⟩, hint := ⟨false, 1, false, false, false, false⟩, fn := 0, d := .v 46, a := .v 0, b := .v 0, c := .v 0, mod := 0xA0009 }) := by
  refine ⟨?_, ?_, ?_, ?_, ?_, ?_, ?_, ?_, ?_, ?_, ?_⟩ <;> rfl

theorem decodes_asynchronous :
    decode 0xB00B00000200420060640000#96 = some (.cpy { g := ⟨true, 3⟩, hint := ⟨false, 2, false, false, false, false⟩, fn := 0, d := .v 0, a := .v 2, b := .v 4, c := .s 6, mod := 0x40000 }) ∧
    decode 0xB10500000800A30060C80000#96 = some (.cpyb { g := ⟨false, 5⟩, hint := ⟨false, 3, false, false, false, false⟩, fn := 0, d := .v 0, a := .v 8, b := .v 10, c := .s 12, mod := 0x80000 }) ∧
    decode 0xB22800E00000040000040000#96 = some (.bclose { g := ⟨true, 0⟩, hint := ⟨false, 4, false, false, false, false⟩, fn := 2, d := .v 14, a := .v 0, b := .v 0, c := .v 0, mod := 0x40000 }) ∧
    decode 0xB35200000F00050000080000#96 = some (.bwait { g := ⟨false, 2⟩, hint := ⟨false, 5, false, false, false, false⟩, fn := 5, d := .v 0, a := .v 15, b := .v 0, c := .v 0, mod := 0x80000 }) ∧
    decode 0xB40701001100060000040000#96 = some (.barArrive { g := ⟨false, 7⟩, hint := ⟨false, 6, false, false, false, false⟩, fn := 0, d := .v 16, a := .v 17, b := .v 0, c := .v 0, mod := 0x40000 }) ∧
    decode 0xB41B00001201370000040000#96 = some (.barWait { g := ⟨true, 3⟩, hint := ⟨false, 7, false, false, false, false⟩, fn := 1, d := .v 0, a := .v 18, b := .v 19, c := .v 0, mod := 0x40000 }) ∧
    decode 0xB42500001400000000080000#96 = some (.barSync { g := ⟨false, 5⟩, hint := ⟨false, 0, false, false, false, false⟩, fn := 2, d := .v 0, a := .v 20, b := .v 0, c := .v 0, mod := 0x80000 }) ∧
    decode 0xB50800001501610000040001#96 = some (.barx { g := ⟨true, 0⟩, hint := ⟨false, 1, false, false, false, false⟩, fn := 0, d := .v 0, a := .v 21, b := .v 22, c := .v 0, mod := 0x40001 }) ∧
    decode 0xB70201701801A20001B41600#96 = some (.sleep { g := ⟨false, 2⟩, hint := ⟨false, 2, false, false, false, false⟩, fn := 0, d := .v 23, a := .v 24, b := .v 26, c := .v 27, mod := 0x41600 }) ∧
    decode 0xB80700001C00030000080000#96 = some (.wake { g := ⟨false, 7⟩, hint := ⟨false, 3, false, false, false, false⟩, fn := 0, d := .v 0, a := .v 28, b := .v 0, c := .v 0, mod := 0x80000 }) ∧
    decode 0xB60B01E02000040000040000#96 = some (.cbarArrive { g := ⟨true, 3⟩, hint := ⟨false, 4, false, false, false, false⟩, fn := 0, d := .v 30, a := .v 32, b := .v 0, c := .v 0, mod := 0x40000 }) ∧
    decode 0xB61500002202450000080000#96 = some (.cbarWait { g := ⟨false, 5⟩, hint := ⟨false, 5, false, false, false, false⟩, fn := 1, d := .v 0, a := .v 34, b := .v 36, c := .v 0, mod := 0x80000 }) ∧
    decode 0xB62800002600060000040000#96 = some (.cbarSync { g := ⟨true, 0⟩, hint := ⟨false, 6, false, false, false, false⟩, fn := 2, d := .v 0, a := .v 38, b := .v 0, c := .v 0, mod := 0x40000 }) := by
  refine ⟨?_, ?_, ?_, ?_, ?_, ?_, ?_, ?_, ?_, ?_, ?_, ?_, ?_⟩ <;> rfl

theorem decodes_armature :
    decode 0xC002603000000700000C0001#96 = some (.smov { g := ⟨false, 2⟩, hint := ⟨false, 7, false, false, false, false⟩, fn := 0, d := .s 3, a := .v 0, b := .v 0, c := .v 0, mod := 0xC0001 }) ∧
    decode 0xC17760460580900000000000#96 = some (.salu { g := ⟨false, 7⟩, hint := ⟨false, 0, false, false, false, false⟩, fn := 7, d := .s 4, a := .s 5, b := .const 9, c := .v 0, mod := 0x0 }) ∧
    decode 0xC21B60660770110000000005#96 = some (.ssetp { g := ⟨true, 3⟩, hint := ⟨false, 1, false, false, false, false⟩, fn := 1, d := .s 6, a := .s 7, b := .special 1, c := .v 0, mod := 0x5 }) ∧
    decode 0xC30560860C00020000064107#96 = some (.sld { g := ⟨false, 5⟩, hint := ⟨false, 2, false, false, false, false⟩, fn := 0, d := .s 8, a := .s 12, b := .v 0, c := .v 0, mod := 0x64107 }) ∧
    decode 0xC40800060A00030060E181FF#96 = some (.sst { g := ⟨true, 0⟩, hint := ⟨false, 3, false, false, false, false⟩, fn := 0, d := .v 0, a := .s 10, b := .v 0, c := .s 14, mod := 0x181FF }) ∧
    decode 0xC50200060B0004000000000A#96 = some (.sbr { g := ⟨false, 2⟩, hint := ⟨false, 4, false, false, false, false⟩, fn := 0, d := .v 0, a := .s 11, b := .v 0, c := .v 0, mod := 0xA }) ∧
    decode 0xC70760C00D00050000000000#96 = some (.v2s { g := ⟨false, 7⟩, hint := ⟨false, 5, false, false, false, false⟩, fn := 0, d := .s 12, a := .v 13, b := .v 0, c := .v 0, mod := 0x0 }) ∧
    decode 0xC80B00060E60F6000000000B#96 = some (.shpwWr { g := ⟨true, 3⟩, hint := ⟨false, 6, false, false, false, false⟩, fn := 0, d := .v 0, a := .s 14, b := .s 15, c := .v 0, mod := 0xB }) ∧
    decode 0xC8056106126137000000001D#96 = some (.shpwMk { g := ⟨false, 5⟩, hint := ⟨false, 7, false, false, false, false⟩, fn := 0, d := .s 16, a := .s 18, b := .s 19, c := .v 0, mod := 0x1D }) ∧
    decode 0xC90861400000000000000000#96 = some (.lsclRd { g := ⟨true, 0⟩, hint := ⟨false, 0, false, false, false, false⟩, fn := 0, d := .s 20, a := .v 0, b := .v 0, c := .v 0, mod := 0x0 }) ∧
    decode 0xC90200061500010000000001#96 = some (.lsclSet { g := ⟨false, 2⟩, hint := ⟨false, 1, false, false, false, false⟩, fn := 0, d := .v 0, a := .s 21, b := .v 0, c := .v 0, mod := 0x1 }) ∧
    decode 0xC90761661700020000000002#96 = some (.lsclUpd { g := ⟨false, 7⟩, hint := ⟨false, 2, false, false, false, false⟩, fn := 0, d := .s 22, a := .s 23, b := .v 0, c := .v 0, mod := 0x2 }) ∧
    decode 0xC60B00000000030000000143#96 = some (.sclaimClaim { g := ⟨true, 3⟩, hint := ⟨false, 3, false, false, false, false⟩, fn := 0, d := .v 0, a := .v 0, b := .v 0, c := .v 0, mod := 0x143 }) ∧
    decode 0xC61500000000040000000FC5#96 = some (.sclaimRel { g := ⟨false, 5⟩, hint := ⟨false, 4, false, false, false, false⟩, fn := 1, d := .v 0, a := .v 0, b := .v 0, c := .v 0, mod := 0xFC5 }) ∧
    decode 0xCA0861800000050000000000#96 = some (.ovftRd { g := ⟨true, 0⟩, hint := ⟨false, 5, false, false, false, false⟩, fn := 0, d := .s 24, a := .v 0, b := .v 0, c := .v 0, mod := 0x0 }) ∧
    decode 0xCA1200000000060000000013#96 = some (.ovftClr { g := ⟨false, 2⟩, hint := ⟨false, 6, false, false, false, false⟩, fn := 1, d := .v 0, a := .v 0, b := .v 0, c := .v 0, mod := 0x13 }) := by
  refine ⟨?_, ?_, ?_, ?_, ?_, ?_, ?_, ?_, ?_, ?_, ?_, ?_, ?_, ?_, ?_, ?_⟩ <;> rfl

theorem decodes_fabric :
    decode 0xD00700000200370000440050#96 = some (.gadd { g := ⟨false, 7⟩, hint := ⟨false, 7, false, false, false, false⟩, fn := 0, d := .v 0, a := .v 2, b := .v 3, c := .v 4, mod := 0x40050 }) ∧
    decode 0xD10B00500600700000880065#96 = some (.grd { g := ⟨true, 3⟩, hint := ⟨false, 0, false, false, false, false⟩, fn := 0, d := .v 5, a := .v 6, b := .v 7, c := .v 8, mod := 0x80065 }) ∧
    decode 0xD20500900000A10000B40070#96 = some (.gsprd { g := ⟨false, 5⟩, hint := ⟨false, 1, false, false, false, false⟩, fn := 0, d := .v 9, a := .v 0, b := .v 10, c := .v 11, mod := 0x40070 }) ∧
    decode 0xD30800000000020000080000#96 = some (.gsync { g := ⟨true, 0⟩, hint := ⟨false, 2, false, false, false, false⟩, fn := 0, d := .v 0, a := .v 0, b := .v 0, c := .v 0, mod := 0x80000 }) ∧
    decode 0xD40200000C00030000040030#96 = some (.gctlStart { g := ⟨false, 2⟩, hint := ⟨false, 3, false, false, false, false⟩, fn := 0, d := .v 0, a := .v 12, b := .v 0, c := .v 0, mod := 0x40030 }) ∧
    decode 0xD417000000000400000800A0#96 = some (.gctlStop { g := ⟨false, 7⟩, hint := ⟨false, 4, false, false, false, false⟩, fn := 1, d := .v 0, a := .v 0, b := .v 0, c := .v 0, mod := 0x800A0 }) ∧
    decode 0xD42B00000E00050000040010#96 = some (.gctlRate { g := ⟨true, 3⟩, hint := ⟨false, 5, false, false, false, false⟩, fn := 2, d := .v 0, a := .v 14, b := .v 0, c := .v 0, mod := 0x40010 }) ∧
    decode 0xD43500000F01060000080070#96 = some (.gctlStep { g := ⟨false, 5⟩, hint := ⟨false, 6, false, false, false, false⟩, fn := 3, d := .v 0, a := .v 15, b := .v 16, c := .v 0, mod := 0x80070 }) ∧
    decode 0xD60801200000070000040650#96 = some (.gmass { g := ⟨true, 0⟩, hint := ⟨false, 7, false, false, false, false⟩, fn := 0, d := .v 18, a := .v 0, b := .v 0, c := .v 0, mod := 0x40650 }) ∧
    decode 0xD52200001401600061840000#96 = some (.coll { g := ⟨false, 2⟩, hint := ⟨false, 0, false, false, false, false⟩, fn := 2, d := .v 0, a := .v 20, b := .v 22, c := .s 24, mod := 0x40000 }) := by
  refine ⟨?_, ?_, ?_, ?_, ?_, ?_, ?_, ?_, ?_, ?_⟩ <;> rfl

theorem decodes_system :
    decode 0xE30700000200010000040000#96 = some (.mqchk { g := ⟨false, 7⟩, hint := ⟨false, 1, false, false, false, false⟩, fn := 0, d := .v 0, a := .v 2, b := .v 0, c := .v 0, mod := 0x40000 }) ∧
    decode 0xE40B00000400020000000000#96 = some (.shashSet { g := ⟨true, 3⟩, hint := ⟨false, 2, false, false, false, false⟩, fn := 0, d := .v 0, a := .v 4, b := .v 0, c := .v 0, mod := 0x0 }) ∧
    decode 0xE41500000000030000000000#96 = some (.shashClr { g := ⟨false, 5⟩, hint := ⟨false, 3, false, false, false, false⟩, fn := 1, d := .v 0, a := .v 0, b := .v 0, c := .v 0, mod := 0x0 }) ∧
    decode 0xE60800500600040000040012#96 = some (.sysr { g := ⟨true, 0⟩, hint := ⟨false, 4, false, false, false, false⟩, fn := 0, d := .v 5, a := .v 6, b := .v 0, c := .v 0, mod := 0x40012 }) ∧
    decode 0xE70200000700850000080030#96 = some (.sysw { g := ⟨false, 2⟩, hint := ⟨false, 5, false, false, false, false⟩, fn := 0, d := .v 0, a := .v 7, b := .v 8, c := .v 0, mod := 0x80030 }) ∧
    decode 0xE80700900A00060000040000#96 = some (.ctxsvSave { g := ⟨false, 7⟩, hint := ⟨false, 6, false, false, false, false⟩, fn := 0, d := .v 9, a := .v 10, b := .v 0, c := .v 0, mod := 0x40000 }) ∧
    decode 0xE81B00B00C00070000080000#96 = some (.ctxsvRest { g := ⟨true, 3⟩, hint := ⟨false, 7, false, false, false, false⟩, fn := 1, d := .v 11, a := .v 12, b := .v 0, c := .v 0, mod := 0x80000 }) := by
  refine ⟨?_, ?_, ?_, ?_, ?_, ?_, ?_⟩ <;> rfl

theorem decodes_control :
    decode 0x600AFFFFFFFFD3000000002A#96 = some (.bra { g := ⟨true, 2⟩, hint := ⟨false, 3, false, false, false, false⟩, target := 0xFFFFFFFFD, x := 0x2A }) ∧
    decode 0x630112345678900000000000#96 = some (.call { g := ⟨false, 1⟩, hint := ⟨false, 0, false, false, false, false⟩, target := 0x123456789, x := 0x0 }) ∧
    decode 0x620700000000020000000000#96 = some (.rcv { g := ⟨false, 7⟩, hint := ⟨false, 2, false, false, false, false⟩ }) ∧
    decode 0x640C00000000000000000000#96 = some (.ret { g := ⟨true, 4⟩, hint := ⟨false, 0, false, false, false, false⟩ }) ∧
    decode 0x650500000000000000000000#96 = some (.exit { g := ⟨false, 5⟩, hint := ⟨false, 0, false, false, false, false⟩ }) ∧
    decode 0x6607000607000100FFFFFFF4#96 = some (.loop { g := ⟨false, 7⟩, hint := ⟨false, 1, false, false, false, false⟩, fn := 0, d := .v 0, a := .s 7, b := .v 0, imm := 0xFFFFFFF4 }) ∧
    decode 0x6703000000000000DEADBEEF#96 = some (.bkpt { g := ⟨false, 3⟩, hint := ⟨false, 0, false, false, false, false⟩, fn := 0, d := .v 0, a := .v 0, b := .v 0, imm := 0xDEADBEEF }) ∧
    decode 0xE00E00000000000080000001#96 = some (.trap { g := ⟨true, 6⟩, hint := ⟨false, 0, false, false, false, false⟩, fn := 0, d := .v 0, a := .v 0, b := .v 0, imm := 0x80000001 }) ∧
    decode 0xE10700000000000000000000#96 = some (.eret { g := ⟨false, 7⟩, hint := ⟨false, 0, false, false, false, false⟩ }) ∧
    decode 0xE20800000000000000000000#96 = some (.halt { g := ⟨true, 0⟩, hint := ⟨false, 0, false, false, false, false⟩ }) ∧
    decode 0x61070000C800000000000000#96 = some (.brx { g := ⟨false, 7⟩, hint := ⟨false, 0, false, false, false, false⟩, fn := 0, d := .v 0, a := .v 200, b := .v 0, c := .v 0, mod := 0x0 }) := by
  refine ⟨?_, ?_, ?_, ?_, ?_, ?_, ?_, ?_, ?_, ?_, ?_⟩ <;> rfl

/-! ### Every one of those words issues where it is placed: the hypothesis of the statements about its instruction -/

theorem issue_integer : ([0x000B00000000010000000000, 0x0135013005811200000000B9, 0x02384030C8607300000000E2, 0x032204D50104240000000000, 0x041740400260350070200000,
   0x051B01E00300460000A00000, 0x062500300500670000040000, 0x07380FF0FE0FD00000000000, 0x081200100200010000000001, 0x095700900800720000000000,
   0x0A0B00900800730000600096, 0x0B0501F02080540000000000, 0x0C1802102202350000000000, 0x0D1202402502660000000000, 0x0E1702702802970002A00000,
   0x0F1B02B02C02D00000000000, 0x100502E02F03010003100000, 0x110803203300020000000000, 0x121203403500030000000000, 0x130703603700040000000000,
   0x140B03803903A50003B00000, 0x152503C03E04060000000000, 0x16080460470487000000001D, 0x17020500520540000000002B, 0x182705805C00010000000000,
   0x1A0B0640660682000000001E, 0x1B1506E06F07030007100000, 0x1C0807807907A40007B00003, 0x1917006000000000FFFFFF85] : List IWord).all issues = true := by decide

theorem issue_floating : ([0x20020010020035000000000B, 0x211700400500660000000002, 0x223B00800A00C70000E00001, 0x312501001101200001300004, 0x232801401501610000000000,
   0x243201801A01C20000000000, 0x250701E01F0203000008000C, 0x261B02102200040000040003, 0x272502302400050000040002, 0x280802502600060002780005,
   0x290202802900070000040001, 0x2A0702A02B00000000040000, 0x2B0B02C02D00010000080000, 0x2C0502E02F00020000080004, 0x2D3803003200030000000003,
   0x2E0203403581840000000009, 0x2F0703603700050000000010, 0x301B03803900060000000000] : List IWord).all issues = true := by decide

theorem issue_conversion : ([0x400500100200070000001150, 0x410800400600000000000BA9, 0x4202008009000100000006A2, 0x430700300800020000000A62, 0x440B00A00B0003000000EAC2,
   0x441500C00D00E40000016CA1, 0x45080100120005000000FFA0, 0x451201401600060000009FA4, 0x460701801901A70000000170, 0x470B00400170200060500000,
   0x481501C01D01E1000000000A, 0x490801F02000020000000018] : List IWord).all issues = true := by decide

theorem issue_predicate : ([0x50120000020043000000053B, 0x51070000050064000000062D, 0x526B0000000005000000C91B, 0x5305007000000600000000A5, 0x53180000080007000000005B,
   0x54120000000000000000005C, 0x553700A00C00E10000000DB0, 0x567B00F01000020000040030, 0x581501101200030000085020, 0x573801401600040000040011,
   0x591201801A00050000080B90, 0x5A0701C00000060000000012, 0x5B0B01D00000070000000000, 0x5B1500000000000000000015, 0x5D0800060900010000000010] : List IWord).all issues = true := by decide

theorem issue_memory : ([0x700200C0140162000005B3F5, 0x7117000017018300019520A7, 0x730B00001A01C4000004210F, 0x720500300A01400001E02341, 0x740800002002260000080002,
   0x752200000000070000040600, 0x800702402602800000060000, 0x810B02A02B02C10002D90000, 0x821500002E03020000040000, 0x830803203403630000040300,
   0x841200003803A40000080200, 0x850703C03E04050000060009, 0x860B04204304460000050000] : List IWord).all issues = true := by decide

theorem issue_field : ([0x90050000020007000004002B, 0x91080040060000000008060D, 0x920200A01400010000040503, 0x930700001E02020000040A17, 0x940B00002202430000040502,
   0x950502802C02F40000080209, 0x96080000000005000001500C, 0x97020000000006000000000B] : List IWord).all issues = true := by decide

theorem issue_matrix : ([0xA00700000200070000040000, 0xA19B00000A00C00060E5A5C3, 0xA20500001001210001380005, 0xA30800001401620001740002, 0xA60200001801930000080000,
   0xA40702000000040062460003, 0xA50B00002202450062840001, 0xA70500002602860000090000, 0xA81800002A02B70000051234, 0xA90200002C00000000050000,
   0xAA0702E000000100000A0009] : List IWord).all issues = true := by decide

theorem issue_asynchronous : ([0xB00B00000200420060640000, 0xB10500000800A30060C80000, 0xB22800E00000040000040000, 0xB35200000F00050000080000, 0xB40701001100060000040000,
   0xB41B00001201370000040000, 0xB42500001400000000080000, 0xB50800001501610000040001, 0xB70201701801A20001B41600, 0xB80700001C00030000080000,
   0xB60B01E02000040000040000, 0xB61500002202450000080000, 0xB62800002600060000040000] : List IWord).all issues = true := by decide

theorem issue_armature : ([0xC002603000000700000C0001, 0xC17760460580900000000000, 0xC21B60660770110000000005, 0xC30560860C00020000064107, 0xC40800060A00030060E181FF,
   0xC50200060B0004000000000A, 0xC70760C00D00050000000000, 0xC80B00060E60F6000000000B, 0xC8056106126137000000001D, 0xC90861400000000000000000,
   0xC90200061500010000000001, 0xC90761661700020000000002, 0xC60B00000000030000000143, 0xC61500000000040000000FC5, 0xCA0861800000050000000000,
   0xCA1200000000060000000013] : List IWord).all issues = true := by decide

theorem issue_fabric : ([0xD00700000200370000440050, 0xD10B00500600700000880065, 0xD20500900000A10000B40070, 0xD30800000000020000080000, 0xD40200000C00030000040030,
   0xD417000000000400000800A0, 0xD42B00000E00050000040010, 0xD43500000F01060000080070, 0xD60801200000070000040650, 0xD52200001401600061840000] : List IWord).all issues = true := by decide

theorem issue_system : ([0xE30700000200010000040000, 0xE40B00000400020000000000, 0xE41500000000030000000000, 0xE60800500600040000040012, 0xE70200000700850000080030,
   0xE80700900A00060000040000, 0xE81B00B00C00070000080000] : List IWord).all issues = true := by decide

theorem issue_control : ([0x600AFFFFFFFFD3000000002A, 0x630112345678900000000000, 0x620700000000020000000000, 0x640C00000000000000000000, 0x650500000000000000000000,
   0x6607000607000100FFFFFFF4, 0x6703000000000000DEADBEEF, 0xE00E00000000000080000001, 0xE10700000000000000000000, 0xE20800000000000000000000,
   0x61070000C800000000000000] : List IWord).all issues = true := by decide

/-- So does the word of every statement: an instruction and what it sees, as the statements take them. -/
theorem issue_witness : ∃ i c, decode 0x010700300500600000000000#96 = some i ∧ Issues (placed 0x010700300500600000000000#96) i c :=
  issues_of (by decide)

/-! ### A state for each clause of the statements about instructions -/

def at_ (i : Instr) (f : Mach → Mach := id) : State := changed (placed ((encode i).getD 0)) f
def sees (i : Instr) (f : Mach → Mach) (P : Cx → Bool) : Bool := meets (at_ i f) i P
theorem seen {i : Instr} (f : Mach → Mach) {P : Cx → Prop} [DecidablePred P] (h : sees i f (fun c => decide (P c)) = true) :
    ∃ s c, Issues s i c ∧ P c := ⟨_, meets_of h⟩

/-- p1 true in lane 0 alone. -/
def p1 : Mach → Mach := onWarp (fun w => { w with preds := w.preds.set 1 1 })
/-- The other PC slot holds lane 1. -/
def twoSlots : Mach → Mach := onWarp (fun w => { w with s0 := { pc := 0, mask := 0xFFFFFFFFFFFFFFFD#64 }, s1 := { pc := 0, mask := 2 } })
def onStack (l : List StackEntry) : Mach → Mach := onWarp (fun w => { w with stack := l })
def zf (neg : Bool) (p : BitVec 3) : ZForm := { g := ⟨neg, p⟩, hint := ⟨false, 0, false, false, false, false⟩ }
def tf (p : BitVec 3) (target : BitVec 36) (x : Word) : TForm := { g := ⟨false, p⟩, hint := ⟨false, 0, false, false, false, false⟩, target := target, x := x }
def jf (p : BitVec 3) (a : Operand) (imm : Word) : IForm :=
  { g := ⟨false, p⟩, hint := ⟨false, 0, false, false, false, false⟩, fn := 0, d := .v 0, a := a, b := .v 0, imm := imm }
/-- `w` under the guard p0, which no lane passes. -/
def off (w : CForm) : CForm := { w with g := ⟨false, 0⟩ }

theorem bra_none : ∃ s c, Issues s (.bra (tf 0 3 0)) c ∧ c.adm = 0 := seen id (by decide)
theorem bra_whole : ∃ s c, Issues s (.bra (tf 7 3 0)) c ∧ c.adm ≠ 0 ∧ c.slot.mask &&& ~~~c.adm = 0 ∧
    target c (3#36) / 2 ^ 16 = c.ia / 2 ^ 16 := seen id (by decide)
theorem bra_no_join : ∃ s c, Issues s (.bra (tf 1 3 0)) c ∧ c.adm ≠ 0 ∧ c.slot.mask &&& ~~~c.adm ≠ 0 := seen p1 (by decide)
theorem bra_split : ∃ s c, Issues s (.bra (tf 1 3 6)) c ∧ c.adm ≠ 0 ∧ c.slot.mask &&& ~~~c.adm ≠ 0 ∧
    target c (3#36) / 2 ^ 16 = c.ia / 2 ^ 16 ∧ target c (6#32) / 2 ^ 16 = c.ia / 2 ^ 16 ∧ (c.w.slot (1 - c.cl.slot)).mask = 0 ∧
    c.w.stack.length < 32 := seen p1 (by decide)
theorem bra_split_two : ∃ s c, Issues s (.bra (tf 1 3 6)) c ∧ c.adm ≠ 0 ∧ c.slot.mask &&& ~~~c.adm ≠ 0 ∧
    (c.w.slot (1 - c.cl.slot)).mask ≠ 0 ∧ c.w.stack.length < 31 := seen (fun m => twoSlots (p1 m)) (by decide)
/-- The on-chip stack is full; the spill area of `n` entries lies at 0x10000, and a page stands there. -/
def fullStack (n : Nat) (m : Mach) : Mach := page (onLaunch (fun l => { l with spd := n, spb := 0x10000 }) (onStack (List.replicate 32 (entry 24 1)) (p1 m)))
theorem bra_spills : ∃ s c, Issues s (.bra (tf 1 3 6)) c ∧ c.adm ≠ 0 ∧ c.slot.mask &&& ~~~c.adm ≠ 0 ∧ c.w.stack.length = 32 ∧ c.w.shadow = none ∧
    c.w.spilled.length < c.la.spd ∧ (spillPlaces c).isOk = true ∧ c.m.bad = [] ∧ spillBase c.la c.blk c.wid + 16 ≤ 2 ^ 57 ∧
    c.m.warp c.bid c.wid = some (c.blk, c.w) := seen (fullStack 4) (by decide)
theorem bra_overflows : ∃ s c, Issues s (.bra (tf 1 3 6)) c ∧ c.adm ≠ 0 ∧ c.slot.mask &&& ~~~c.adm ≠ 0 ∧ c.w.stack.length = 32 ∧
    c.w.shadow = none ∧ c.la.spd ≤ c.w.spilled.length := seen (fullStack 0) (by decide)
theorem bra_stops : ∃ s c, Issues s (.bra (tf 1 3 6)) c ∧ c.adm ≠ 0 ∧ c.w.stack.length = 32 ∧ c.w.shadow = none ∧
    c.w.spilled.length < c.la.spd ∧ (spillPlaces c).toOption = none :=
  seen (fun m => onLaunch (fun l => { l with spd := 4, spb := 0x20000 }) (onStack (List.replicate 32 (entry 24 1)) (p1 m))) (by decide)
/-- A page of code at 0x10000 in which no clause stands. -/
def emptyCode (m : Mach) : Mach :=
  let e : TlbEntry := { ctx := 0, va := 0x10000, size := 2 ^ 16, pa := 0x10000, w := false, x := true }
  { onPart (fun p => { p with exec := p.exec.put 1 { win := 8, uni := 0, width := 64 } }) m with
    utlb := m.utlb.upd 0 (fun l => e :: l), ctlb := m.ctlb.upd 0 (fun l => e :: l) }
theorem bra_no_header : ∃ s c, Issues s (.bra (tf 7 0x4000 0)) c ∧ c.adm ≠ 0 ∧ c.slot.mask &&& ~~~c.adm = 0 ∧
    target c (0x4000#36) / 2 ^ 16 ≠ c.ia / 2 ^ 16 ∧
    (c.m.isHeader c.blk.core c.blk.ctx (target c (0x4000#36))).toOption = some false := seen emptyCode (by decide)
theorem bra_no_page : ∃ s c, Issues s (.bra (tf 7 0x4000 0)) c ∧ c.adm ≠ 0 ∧ c.slot.mask &&& ~~~c.adm = 0 ∧
    target c (0x4000#36) / 2 ^ 16 ≠ c.ia / 2 ^ 16 ∧
    (c.m.isHeader c.blk.core c.blk.ctx (target c (0x4000#36))).toOption = none := seen id (by decide)
theorem brx_goes : ∃ s c, Issues s (.brx (blank 0 (.v 0) (.v 2) (.v 0) (.v 0) 0)) c ∧ c.adm ≠ 0 := seen id (by decide)
theorem loop_ends : ∃ s c, Issues s (.loop (jf 7 (.v 1) 3)) c ∧ c.rd (.v 1) 0 c.lane = 0 := seen id (by decide)
theorem loop_goes : ∃ s c, Issues s (.loop (jf 7 (.v 1) 3)) c ∧ c.adm ≠ 0 ∧ c.rd (.v 1) 0 c.lane ≠ 0 ∧
    target c (3#32) / 2 ^ 16 = c.ia / 2 ^ 16 := seen (reg 1 5) (by decide)
theorem call_none : ∃ s c, Issues s (.call (tf 0 3 0)) c ∧ c.adm = 0 := seen id (by decide)
theorem call_goes : ∃ s c, Issues s (.call (tf 7 3 0)) c ∧ c.adm ≠ 0 ∧ target c (3#36) / 2 ^ 16 = c.ia / 2 ^ 16 ∧
    (c.w.slot (1 - c.cl.slot)).mask = 0 ∧ c.w.stack.length < 32 := seen id (by decide)
theorem call_parks : ∃ s c, Issues s (.call (tf 7 3 0)) c ∧ c.adm ≠ 0 ∧ (c.w.slot (1 - c.cl.slot)).mask ≠ 0 ∧
    c.w.stack.length < 31 := seen twoSlots (by decide)
theorem exit_ends : ∃ s c, Issues s (.exit (zf false 7)) c ∧ widthMask c.blk.width &&& ~~~(c.w.exm ||| c.adm) = 0 := seen id (by decide)
theorem exit_some : ∃ s c, Issues s (.exit (zf false 1)) c ∧ widthMask c.blk.width &&& ~~~(c.w.exm ||| c.adm) ≠ 0 ∧
    c.slot.mask &&& ~~~c.adm ≠ 0 := seen p1 (by decide)
theorem exit_slot : ∃ s c, Issues s (.exit (zf false 7)) c ∧ widthMask c.blk.width &&& ~~~(c.w.exm ||| c.adm) ≠ 0 ∧
    c.slot.mask &&& ~~~c.adm = 0 ∧ (c.w.slot (1 - c.cl.slot)).mask ≠ 0 := seen twoSlots (by decide)
theorem exit_unwinds : ∃ s c, Issues s (.exit (zf false 7)) c ∧ widthMask c.blk.width &&& ~~~(c.w.exm ||| c.adm) ≠ 0 ∧
    c.slot.mask &&& ~~~c.adm = 0 ∧ c.w.slot (1 - c.cl.slot) = .empty ∧ c.w.spilled = [] ∧ (unwound c (c.w.exm ||| c.adm) c.w.stack).isSome = true :=
  seen (fun m => onWarp (fun w => { w with s0 := { pc := 0, mask := 1 } }) (onStack [entry 24 1, entry 48 2] m)) (by decide)
theorem ret_none : ∃ s c, Issues s (.ret (zf false 0)) c ∧ c.adm = 0 := seen id (by decide)
theorem ret_ends : ∃ s c, Issues s (.ret (zf false 7)) c ∧ c.w.stack = [] ∧ c.adm ≠ 0 ∧ c.w.spilled = [] ∧
    widthMask c.blk.width &&& ~~~(c.w.exm ||| c.slot.mask) = 0 := seen id (by decide)
theorem ret_exits : ∃ s c, Issues s (.ret (zf false 7)) c ∧ c.w.stack = [] ∧ c.adm ≠ 0 ∧ c.w.spilled = [] ∧
    widthMask c.blk.width &&& ~~~(c.w.exm ||| c.slot.mask) ≠ 0 ∧ (c.w.slot (1 - c.cl.slot)).mask ≠ 0 := seen twoSlots (by decide)
theorem ret_unwinds : ∃ s c, Issues s (.ret (zf false 7)) c ∧ c.w.stack = [] ∧ c.adm ≠ 0 ∧ c.w.spilled = [] ∧
    widthMask c.blk.width &&& ~~~(c.w.exm ||| c.slot.mask) ≠ 0 ∧ c.w.slot (1 - c.cl.slot) = .empty :=
  seen (onWarp (fun w => { w with s0 := { pc := 0, mask := 1 } })) (by decide)
theorem ret_returns : ∃ s c, Issues s (.ret (zf false 7)) c ∧ c.w.stack = [entry 24 1, entry 48 2] ∧ c.adm ≠ 0 ∧
    c.slot.mask &&& ~~~c.w.exm ≠ 0 ∧ widthMask c.blk.width &&& ~~~c.w.exm ≠ 0 := seen (onStack [entry 24 1, entry 48 2]) (by decide)
theorem rcv_skipped : ∃ s c, Issues s (.rcv (zf false 7)) c ∧ widthMask c.blk.width &&& ~~~c.w.exm ≠ 0 ∧ c.skipped = true :=
  seen (onWarp (fun w => { w with clause := w.clause.map (fun c => { c with skip := 1 }) })) (by decide)
theorem rcv_empty : ∃ s c, Issues s (.rcv (zf false 7)) c ∧ widthMask c.blk.width &&& ~~~c.w.exm ≠ 0 ∧ c.skipped = false ∧
    c.w.stack = [] ∧ c.w.spilled = [] := seen id (by decide)
theorem rcv_waits : ∃ s c, Issues s (.rcv (zf false 7)) c ∧ widthMask c.blk.width &&& ~~~c.w.exm ≠ 0 ∧ c.skipped = false ∧
    c.w.stack = [entry 0 (BitVec.allOnes 64)] ∧ c.cl.head = 0 ∧ (c.w.slot (1 - c.cl.slot)).mask ≠ 0 :=
  seen (fun m => twoSlots (onStack [entry 0 (BitVec.allOnes 64)] m)) (by decide)
theorem rcv_joins : ∃ s c, Issues s (.rcv (zf false 7)) c ∧ widthMask c.blk.width &&& ~~~c.w.exm ≠ 0 ∧ c.skipped = false ∧
    c.w.stack = [entry 0 (BitVec.allOnes 64)] ∧ c.cl.head = 0 ∧ c.w.slot (1 - c.cl.slot) = .empty ∧ c.w.spilled = [] :=
  seen (onStack [entry 0 (BitVec.allOnes 64)]) (by decide)
theorem rcv_unparks : ∃ s c, Issues s (.rcv (zf false 7)) c ∧ c.w.slot (1 - c.cl.slot) = .empty ∧ c.cl.head = 0 ∧
    c.w.stack = [entry 0 1, entry 48 2] ∧ c.slot.mask = 1 ∧ 2#64 &&& ~~~c.w.exm ≠ 0 ∧ 1#64 &&& ~~~c.w.exm ≠ 0 :=
  seen (fun m => onWarp (fun w => { w with s0 := { pc := 0, mask := 1 } }) (onStack [entry 0 1, entry 48 2] m)) (by decide)
theorem trap_carries : ∃ s c, Issues s (.trap (jf 7 (.v 0) 9)) c ∧ c.adm ≠ 0 := seen id (by decide)
theorem bkpt_carries : ∃ s c, Issues s (.bkpt (jf 7 (.v 0) 9)) c ∧ c.adm ≠ 0 := seen id (by decide)
theorem trap_none : ∃ s c, Issues s (.trap (jf 0 (.v 0) 9)) c ∧ c.adm = 0 := seen id (by decide)

/-- LD.g of 32 bits at [v2], and its places. -/
def ldg : CForm := blank 0 (.v 4) (.v 2) (.v 0) (.v 0) 0x10000
def stg : CForm := blank 0 (.v 0) (.v 2) (.v 0) (.v 4) 0x10000
/-- Every lane's address is 0x10000 + 4 × lane. -/
def addrs : Mach → Mach := fun m => page (onWarp (fun w => { w with
  s0 := { pc := 0, mask := 3 }, v := ((w.v.set (regKey 2 0) 0x10000).set (regKey 2 1) 0x10004) }) m)
def okLanes (w : CForm) (atomic : Bool) (acc : Sys2Proof.Access) (c : Cx) (sp : Space) (size : Nat) : Option (Mach × List (Nat × List Nat)) :=
  match c.m.checkLanes c.blk c.la sp atomic acc size c.ia c.cl.slot (addresses w c sp size) with
  | (m, .ok ks) => some (m, ks)
  | _ => none
def badLanes (w : CForm) (acc : Sys2Proof.Access) (c : Cx) (sp : Space) (size : Nat) : Option (Mach × FaultInfo) :=
  match c.m.checkLanes c.blk c.la sp false acc size c.ia c.cl.slot (addresses w c sp size) with
  | (m, .error e) => some (m, e)
  | _ => none
theorem ld_none : ∃ s c, Issues s (.ld (off ldg)) c ∧ c.adm = 0 := seen id (by decide)
theorem ld_goes : ∃ s c, Issues s (.ld ldg) c ∧ c.adm ≠ 0 ∧
    (okLanes ldg false .read c .g 4).map (fun x => (x.2, c.w.loadWaits c.w.seq .g false (placesOf x.2), c.m.anyBad (placesOf x.2))) =
      some ([(0, [0x10000, 0x10001, 0x10002, 0x10003]), (1, [0x10004, 0x10005, 0x10006, 0x10007])], false, false) :=
  seen addrs (by decide)
theorem ld_faults : ∃ s c, Issues s (.ld ldg) c ∧ c.adm ≠ 0 ∧ ((badLanes ldg .read c .g 4).map (fun x => x.2.faddr)) = some 0x10000 :=
  seen (fun m => onWarp (fun w => { w with v := w.v.set (regKey 2 0) 0x10000 }) m) (by decide)
theorem ld_own : ∃ s c, Issues s (.ld { ldg with fn := 1 }) c ∧ c.adm ≠ 0 ∧ c.w.queue = [] ∧ c.w.ops = [] ∧
    ∀ l ∈ c.lanes, ∀ i < 4, address { ldg with fn := 1 } c .s 4 l + i < c.la.scr := seen id (by decide)
theorem st_goes : ∃ s c, Issues s (.st stg) c ∧ c.adm ≠ 0 ∧ (okLanes stg false .write c .g 4).isSome = true := seen addrs (by decide)
theorem st_faults : ∃ s c, Issues s (.st stg) c ∧ c.adm ≠ 0 ∧ (badLanes stg .write c .g 4).isSome = true := seen id (by decide)
theorem cmnt_none : ∃ s c, Issues s (.cmnt (blank 0 (.v 0) (.v 2) (.v 4) (.v 0) 0)) c ∧ (c.rd (.v 4) 0 c.lane).toNat = 0 :=
  seen id (by decide)
theorem cmnt_goes : ∃ s c, Issues s (.cmnt (blank 0 (.v 0) (.v 2) (.v 4) (.v 0) 2)) c ∧ c.adm ≠ 0 ∧ (c.rd (.v 4) 0 c.lane).toNat ≠ 0 ∧
    (c.flush.cmnt c.t c.blk 2 (c.rd64 (.v 2) c.lane).toNat 64).isOk = true := seen (fun m => reg 4 64 (addrs m)) (by decide)
theorem atomic_goes : ∃ s c, Issues s (.aadd { stg with d := .v 6, b := .v 8, c := .v 0, mod := 0 }) c ∧ c.adm ≠ 0 ∧
    (okLanes stg true .write c .g 4).isSome = true := seen addrs (by decide)

theorem cpy_traps : ∃ s c, Issues s (.cpy (blank 0 (.v 0) (.v 2) (.v 4) (.s 6) 0)) c ∧ c.adm ≠ 0 ∧ c.wid ≠ c.blk.prod :=
  seen (onBlock (fun b => { b with prod := 1 })) (by decide)
/-- A copy of 16 bytes, its source at 0x10000. -/
def copying (m : Mach) : Mach :=
  onWarp (fun w => { w with v := w.v.set (regKey 4 0) 0x10000, clause := w.clause.map (fun c => { c with arm := { c.arm with s := [(6, 16), (7, 0xFFFFFFFF)] } }) }) m
theorem cpy_goes : ∃ s c, Issues s (.cpy (blank 0 (.v 0) (.v 2) (.v 4) (.s 6) 0)) c ∧ c.adm ≠ 0 ∧ c.blk.prod ≠ 0xFF ∧
    c.wid = c.blk.prod ∧ copyCheck c.la 0 (c.rd (.v 2) 0 c.lane).toNat (c.rd64 (.v 4) c.lane).toNat (c.rd (.s 6) 0 c.lane).toNat
      (c.rd (.s 6) 1 c.lane).toNat = none := seen copying (by decide)
theorem bwait_none : ∃ s c, Issues s (.bwait (blank 4 (.v 0) (.v 2) (.v 0) (.v 0) 0)) c ∧ c.flagNo = none := seen id (by decide)
theorem bwait_count : ∃ s c, Issues s (.bwait (blank 4 (.v 0) (.v 2) (.v 0) (.v 0) 0x40000)) c ∧ c.adm ≠ 0 ∧ c.flagNo ≠ none ∧
    (c.w.batch 0).out ≤ (c.rd (.v 2) 0 c.lane).toNat := seen id (by decide)
theorem bwait_older : ∃ s c, Issues s (.bwait (blank 4 (.v 0) (.v 2) (.v 0) (.v 0) 0x40000)) c ∧ c.adm ≠ 0 ∧ c.flagNo ≠ none ∧
    (c.rd (.v 2) 0 c.lane).toNat < (c.w.batch 0).out := seen (onWarp (fun w => w.setBatch 0 { open_ := 3, out := 2, bad := [] })) (by decide)
theorem bwait_one : ∃ s c, Issues s (.bwait (blank 0 (.v 0) (.v 2) (.v 0) (.v 0) 0x40000)) c ∧ c.adm ≠ 0 ∧ c.flagNo ≠ none ∧
    (c.rd (.v 2) 0 c.lane).toNat % 2 ^ 16 ≠ (c.w.batch 0).open_.toNat ∧
    ((c.w.batch 0).open_ - 1 - BitVec.ofNat 16 (c.rd (.v 2) 0 c.lane).toNat).toNat < (c.w.batch 0).out :=
  seen (onWarp (fun w => w.setBatch 0 { open_ := 2, out := 2, bad := [] })) (by decide)
theorem bwait_retired : ∃ s c, Issues s (.bwait (blank 0 (.v 0) (.v 2) (.v 0) (.v 0) 0x40000)) c ∧ c.adm ≠ 0 ∧ c.flagNo ≠ none ∧
    (c.rd (.v 2) 0 c.lane).toNat % 2 ^ 16 ≠ (c.w.batch 0).open_.toNat ∧ (c.w.batch 0).bad = [] ∧
    (c.w.batch 0).out ≤ ((c.w.batch 0).open_ - 1 - BitVec.ofNat 16 (c.rd (.v 2) 0 c.lane).toNat).toNat :=
  seen (onWarp (fun w => w.setBatch 0 { open_ := 2, out := 0, bad := [] })) (by decide)
/-- The mark of batch 0, from its operation 5. -/
def marks0 : Tbl (Nat × FaultInfo) := [(5, (0, { cause := 0x60, ia := 12, fmask := 1, faddr := 8, xcode := 0, lane := 0xFF, slot := 0 }))]
theorem bwait_marked : ∃ s c, Issues s (.bwait (blank 0 (.v 0) (.v 2) (.v 0) (.v 0) 0x40000)) c ∧ c.adm ≠ 0 ∧ c.flagNo ≠ none ∧
    (c.rd (.v 2) 0 c.lane).toNat % 2 ^ 16 ≠ (c.w.batch 0).open_.toNat ∧
    ((c.w.batch 0).mark ((c.rd (.v 2) 0 c.lane).toNat % 2 ^ 16)).isSome = true ∧
    (c.w.batch 0).out ≤ ((c.w.batch 0).open_ - 1 - BitVec.ofNat 16 (c.rd (.v 2) 0 c.lane).toNat).toNat :=
  seen (onWarp (fun w => w.setBatch 0 { open_ := 2, out := 0, bad := marks0 })) (by decide)
theorem sleep_goes : ∃ s c, Issues s (.sleep (blank 0 (.v 6) (.v 2) (.v 4) (.v 5) 0)) c ∧ c.adm ≠ 0 ∧
    (match c.m.checkLanes c.blk c.la .g true .read 4 c.ia c.cl.slot [(c.lane, (c.rd64 (.v 2) c.lane).toNat)] with
      | (_, .ok ks) => ks == [(c.lane, (List.range 4).map (0x10000 + ·))]
      | _ => false) = true := seen addrs (by decide)
theorem smov_owned : ∃ s c, Issues s (.smov (blank 0 (.s 3) (.s 4) (.v 0) (.v 0) 0)) c ∧ c.adm ≠ 0 ∧
    (c.blk.armAt c.t).owner.find 3 = some c.wid :=
  seen (onBlock (fun b => { b with arm := { b.arm with owner := [(3, 0)] } })) (by decide)
theorem smov_foreign : ∃ s c, Issues s (.smov (blank 0 (.s 3) (.s 4) (.v 0) (.v 0) 0)) c ∧ c.adm ≠ 0 ∧
    (c.blk.armAt c.t).owner.find 3 ≠ some c.wid := seen id (by decide)
theorem claim_free : ∃ s c, Issues s (.sclaimClaim (blank 0 (.v 0) (.v 0) (.v 0) (.v 0) 0x43)) c ∧ c.adm ≠ 0 ∧
    (c.blk.armAt c.t).owner.find 3 = none ∧ (∀ p ∈ c.blk.armPend, p.at_ ≤ c.t) := seen id (by decide)
theorem claim_taken : ∃ s c, Issues s (.sclaimClaim (blank 0 (.v 0) (.v 0) (.v 0) (.v 0) 0x43)) c ∧ c.adm ≠ 0 ∧
    (c.blk.armAt c.t).owner.find 3 = some 1 ∧ 1 ≠ c.wid :=
  seen (onBlock (fun b => { b with arm := { b.arm with owner := [(3, 1)] } })) (by decide)
theorem shape_bad : ∃ s c, Issues s (.shpwWr (blank 0 (.v 0) (.s 2) (.s 3) (.v 0) 1)) c ∧ c.adm ≠ 0 ∧
    5 ≤ ((c.rd (.s 3) 0 c.lane).extractLsb' 16 3).toNat :=
  seen (onWarp (fun w => { w with clause := w.clause.map (fun c => { c with arm := { c.arm with s := [(3, 0x50000)] } }) })) (by decide)
theorem scale_bad : ∃ s c, Issues s (.lsclSet (blank 0 (.v 0) (.s 2) (.v 0) (.v 0) 1)) c ∧ c.adm ≠ 0 ∧
    (c.rd (.s 2) 0 c.lane).extractLsb' 23 8 = 0 := seen id (by decide)
theorem scale_good : ∃ s c, Issues s (.lsclSet (blank 0 (.v 0) (.s 2) (.v 0) (.v 0) 1)) c ∧ c.adm ≠ 0 ∧
    (c.rd (.s 2) 0 c.lane).msb = false ∧ (c.rd (.s 2) 0 c.lane).extractLsb' 23 8 = 127 :=
  seen (onWarp (fun w => { w with clause := w.clause.map (fun c => { c with arm := { c.arm with s := [(2, 0x3F800000)] } }) })) (by decide)
theorem sst_goes : ∃ s c, Issues s (.sst (blank 0 (.v 0) (.s 2) (.v 0) (.s 3) 0x10000)) c ∧ c.adm ≠ 0 ∧
    (match c.m.checkLanes c.blk c.la .s false .write 4 c.ia c.cl.slot [(c.lane, 0)] with
      | (_, .ok _) => true
      | _ => false) = true := seen id (by decide)
theorem mqchk_off : ∃ s c, Issues s (.mqchk (blank 0 (.v 0) (.v 2) (.v 0) (.v 0) 0)) c ∧ c.adm ≠ 0 ∧ c.la.mqm = 0 := seen id (by decide)
theorem mqchk_on : ∃ s c, Issues s (.mqchk (blank 0 (.v 0) (.v 2) (.v 0) (.v 0) 0)) c ∧ c.adm ≠ 0 ∧ c.la.mqm ≠ 0 ∧
    (match c.m.checkLanes c.blk c.la .g true .write 4 c.ia c.cl.slot [(c.lane, (c.rd64 (.v 2) c.lane).toNat)] with
      | (_, .ok _) => true
      | _ => false) = true := seen (fun m => onLaunch (fun l => { l with mqm := 1 }) (addrs m)) (by decide)
theorem shash_now : ∃ s c, Issues s (.shashSet (blank 0 (.v 0) (.v 2) (.v 0) (.v 0) 0)) c ∧ c.adm ≠ 0 ∧ c.w.folds = [] := seen id (by decide)
theorem shash_later : ∃ s c, Issues s (.shashSet (blank 0 (.v 0) (.v 2) (.v 0) (.v 0) 0)) c ∧ c.adm ≠ 0 ∧ c.w.folds = [.waiting 0] :=
  seen (onWarp (fun w => { w with folds := [.waiting 0] })) (by decide)
theorem sysr_goes : ∃ s c, Issues s (.sysr (blank 0 (.v 4) (.v 2) (.v 0) (.v 0) 0x10)) c ∧ c.adm ≠ 0 ∧
    c.m.sysIndexOk c.caps 0x10 (c.rd (.v 2) 0 c.lane).toNat = true := seen id (by decide)
theorem sysw_goes : ∃ s c, Issues s (.sysw (blank 0 (.v 0) (.v 2) (.v 3) (.v 0) 0x10)) c ∧ c.adm ≠ 0 ∧
    c.m.sysIndexOk c.caps 0x10 (c.rd (.v 2) 0 c.lane).toNat = true ∧
    (c.m.sysWrite c.t 0x10 (c.rd (.v 2) 0 c.lane).toNat (c.rd (.v 3) 0 c.lane)).isSome = true := seen (reg 2 1) (by decide)
theorem eret_no_frame : ∃ s c, Issues s (.eret (zf false 7)) c ∧ c.skipped = false ∧ c.w.shadow = none := seen id (by decide)
/-- Under MODE.DCHK, v2 dead. -/
theorem dead_read : ∃ s c, openCx (.iadd (blank 0 (.v 1) (.v 2) (.v 3) (.v 0) 0)) s = some c ∧ c.unitAbsent = false ∧
    modeDchk c.mode = true ∧ c.adm ≠ 0 ∧ c.w.readsDead c.sh c.f = true :=
  ⟨at_ (.iadd (blank 0 (.v 1) (.v 2) (.v 3) (.v 0) 0)) (fun m => onLaunch (fun l => { l with mode := 0xFFFFFFFF }) (onWarp (fun w => { w with deadV := 4 }) m)),
    some_of (by decide)⟩
theorem absent_unit : ∃ s c, openCx (.gadd (blank 0 (.v 0) (.v 2) (.v 3) (.v 4) 0)) s = some c ∧ c.unitAbsent = true :=
  ⟨{ at_ (.gadd (blank 0 (.v 0) (.v 2) (.v 3) (.v 4) 0)) with caps := { Caps.reset with goss := false } }, some_of (by decide)⟩

/-! ### A state for each event in which it occurs, and what it leaves there -/

/-- A warp of 64 lanes at the clause boundary before address 0, with a writable page at 0x10000. -/
def resting : State := changed (placed 0x000700000000000000000000#96) (fun m => { page (onWarp (fun w => { w with clause := none }) m) with focus := none })
/-- The same with a change. -/
def lay (f : Mach → Mach) : State := changed resting f
def op0 (p : Payload) : Op :=
  { seq := 0, flag := none, batch := none, ia := 12, slot := 0, mask := 1, payload := p, flagDone := false, batchDone := false,
    fault := none, reported := false, word := none }
def r0 : Result := { dest := some (.v 7), n := 1, wt := false, mask := 1, vals := valsOf 1 [0] (fun _ _ => 0xABCD#32), preds := [], flags := 2 }
def flt : FaultInfo := { cause := 0x60, ia := 12, fmask := 1, faddr := 8, xcode := 0, lane := 0xFF, slot := 0 }
/-- The warp has operation 0. -/
def withOp (o : Op) : Mach → Mach := onWarp (fun w => { w with ops := [(0, o)], nextOp := 1 })
def warpIn (m : Mach) (P : Warp → Bool) : Bool := match m.warp 0 0 with
  | some (_, x) => P x
  | none => false
def blockIn (m : Mach) (P : Block → Bool) : Bool := match m.block 0 with
  | some b => P b
  | none => false

def stUrgent : State := { lay (onWarp (fun w => { w with readyFor := 2048 })) with now := 5000 }
theorem ev_warpUrgent : ∃ e, stUrgent.m.warp 0 0 = some e ∧ e.2.urgent = false ∧ 2048 ≤ e.2.readyFor ∧
    stUrgent.m.warpReady stUrgent.now e.1 0 e.2 = true ∧ ends (exec (.warpUrgent 0 0) stUrgent) (fun t => warpIn t.m (·.urgent)) = true :=
  some_of (by decide)
theorem ev_packEnter : ∃ p, bestOf ((lay id).m.entersFirst 0) ((lay id).m.candidates 0 0 0) = some p ∧
    ((lay id).m.slotOf 0 0).active.length < 4 ∧
    ends (exec (.packEnter 0 0) (lay id)) (fun t => (t.m.slotOf 0 0).active.map (·.1) == [p]) = true := some_of (by decide)
/-- A trap shadow whose frame says: retry nothing, clear nothing, go on at clause 0. -/
def stop0 : Stop := { how := 0, cycle := 90, cause := 0x0B, kind := 0, info := { flt with cause := 0x0B }, rhdr := 0x40, pos := 0, skid := 0 }
def shadow0 : Shadow :=
  { s0 := { pc := 0, mask := 1 }, s1 := .empty, turn := 0, nextFirst := false, stack := [], spilled := [], map := [], h0 := none, h1 := none, buf := [],
    deadB := 0, counts := [(2, 1)], bits := 0, stop := stop0, clause := none, mark := 0 }
/-- The warp's operations so far were issued before its handler. -/
def handling : Mach → Mach := onWarp (fun w => { w with shadow := some { shadow0 with counts := [(3, 1)], mark := 1 } })
theorem bra_nested : ∃ s c, Issues s (.bra (tf 1 3 6)) c ∧ c.adm ≠ 0 ∧ c.slot.mask &&& ~~~c.adm ≠ 0 ∧ c.w.stack.length = 32 ∧ c.w.shadow ≠ none :=
  seen (fun m => onWarp (fun w => { w with shadow := some shadow0 }) (fullStack 4 m)) (by decide)
def stActive : State := { lay (fun m => m.setSlotOf 0 0 { m.slotOf 0 0 with active := [({ blk := 0, k := 0 }, 0)] }) with now := 100 }
/-- Four packs are active, and a fifth is older and may enter. -/
def stCrowd : State := { lay (fun m =>
  let far : Nat → Block := fun k => { (placedBlock 0 0 7) with age := k + 1, warps := [(0, { Warp.launch 0 64 0 with wprio := 8, yp := true })] }
  let near : Block := { (placedBlock 0 0 7) with age := 0, warps := [(0, { Warp.launch 0 64 0 with wprio := 15 })] }
  { m.setSlotOf 0 0 { m.slotOf 0 0 with active := [({ blk := 1, k := 0 }, 0), ({ blk := 2, k := 0 }, 0), ({ blk := 3, k := 0 }, 0), ({ blk := 4, k := 0 }, 0)] } with
    blocks := [(0, near), (1, far 1), (2, far 2), (3, far 3), (4, far 4)] }) with now := 100 }
theorem ev_deschedule : ∃ p, stCrowd.m.leaver 100 0 0 = some p ∧
    ends (exec (.deschedule 0 0 p) stCrowd) (fun t => !(t.m.slotOf 0 0).active.any (fun a => a.1 = p)) = true := some_of (by decide)
theorem ev_clauseStart : ∃ e, (stActive.m.choose 100 0 0 (stActive.m.starters 100 0 0)).1 = some e ∧ e.blk = 0 ∧ e.wid = 0 ∧ e.w.noFlag = none ∧
    ends (exec (.clauseStart 0 0) stActive) (fun t => warpIn t.m (fun y => y.h0 == none && (y.clause.map (·.pos)) == some 0)) = true :=
  some_of (by decide)
def stResult : State := lay (withOp { op0 (.result r0) with flag := some 3 })
theorem ev_varComplete : ∃ e, (changed stResult (onWarp (fun w => { w with counts := w.counts.set 3 1 }))).m.warp 0 0 = some e ∧
    e.2.ops.find 0 = some { op0 (.result r0) with flag := some 3 } ∧ e.2.shadow = none ∧
    ends (exec (.varComplete 0 0 0) (changed stResult (onWarp (fun w => { w with counts := w.counts.set 3 1 })))) (fun t =>
      warpIn t.m (fun y => y.v.get (regKey 7 0) == 0xABCD#32 && y.counts.get 3 == 0 && y.flags == 2)) = true := some_of (by decide)
theorem ev_varComplete_shadow : ∃ e, (changed stResult handling).m.warp 0 0 = some e ∧ inShadow e.2 0 = true ∧
    ends (exec (.varComplete 0 0 0) (changed stResult handling)) (fun t =>
      warpIn t.m (fun y => y.v.get (regKey 7 0) == 0xABCD#32 && y.shadow.map (fun sh => sh.counts.get 3) == some 0)) = true := some_of (by decide)
def stFault (k : Option Nat) : State := lay (withOp { op0 (.result { r0 with mask := 0 }) with flag := k, fault := some flt })
theorem ev_operationFault : ∃ e, (stFault (some 3)).m.warp 0 0 = some e ∧ e.2.shadow = none ∧
    ends (exec (.operationFault 0 0 0) (stFault (some 3))) (fun t => warpIn t.m (fun y => y.bits == 8 && y.noFlag == none)) = true ∧
    ends (exec (.operationFault 0 0 0) (stFault none)) (fun t => warpIn t.m (fun y => y.bits == 0 && y.noFlag == some flt)) = true :=
  some_of (by decide)
/-- In a handler; after the block's halt; and during a kill. -/
theorem ev_operationFault_late :
    ends (exec (.operationFault 0 0 0) (changed (stFault (some 3)) handling)) (fun t =>
      warpIn t.m (fun y => y.bits == 0 && y.shadow.map (·.bits) == some 8)) = true ∧
    ends (exec (.operationFault 0 0 0) (changed (stFault (some 3)) (onBlock (fun b => { b with halted := true, primary := some 0 })))) (fun t =>
      warpIn t.m (fun y => y.bits == 8) && blockIn t.m (fun b => b.late == [(0, 0x60)])) = true ∧
    ends (exec (.operationFault 0 0 0) (changed (stFault (some 3)) (onCtx (fun c => c.setState 5)))) (fun t =>
      warpIn t.m (fun y => y.bits == 0) && blockIn t.m (fun b => b.late == [(0, 0x60)])) = true := by decide
def acc4 (data : List Byte) : LaneAcc := { lane := 0, addr := 0x10000, keys := [0x10000, 0x10001, 0x10002, 0x10003], data := data, data2 := [] }
def stStore : State := lay (onWarp (fun w => { w with queue := [{ seq := 0, space := .g, rel := false, acq := false, scope := 0, kind := .store [acc4 [1, 2, 3, 4]] }] }))
theorem ev_storePerform : ∃ e, stStore.m.warp 0 0 = some e ∧ stStore.m.alive e.1 = true ∧
    (e.2.queueHead.map (·.kind)) = some (.store [acc4 [1, 2, 3, 4]]) ∧ stStore.m.bad = [] ∧
    (∀ k ∈ (acc4 []).keys, stStore.m.protectedKey e.1.part k = false) ∧
    ends (exec (.storePerform 0 0) stStore) (fun t => (List.range 4).map (fun i => t.m.mem.get (0x10000 + i)) == [1, 2, 3, 4]) = true :=
  some_of (by decide)
/-- A store to the scratchpad, and one through the aperture to register 2 of lane 3 of warp 0. -/
def stOther (sp : Space) (k : Nat) : State := lay (onWarp (fun w => { w with deadV := 4, queue := [
  { seq := 0, space := sp, rel := false, acq := false, scope := 0, kind := .store [{ acc4 [1, 2, 3, 4] with keys := (List.range 4).map (k + ·) }] }] }))
theorem ev_storePerform_near :
    ends (exec (.storePerform 0 0) (stOther .s 64)) (fun t => blockIn t.m (fun b => (List.range 4).map (fun i => b.scratch.get (64 + i)) == [1, 2, 3, 4])) = true ∧
    ends (exec (.storePerform 0 0) (stOther .a 524)) (fun t => warpIn t.m (fun y => y.v.get (regKey 2 3) == 0x04030201#32 && y.deadV == 0)) = true := by decide
def stAtomic : State := lay (fun m => onWarp (fun w => { w with queue := [{ seq := 0, space := .g, rel := false, acq := false, scope := 0, kind := .atomic 0 .add 4 false false [acc4 [5, 0, 0, 0]] [] }] })
  (withOp (op0 (.atomicResult false r0 [])) { m with mem := m.mem.set 0x10000 9 }))
theorem ev_atomicGroup : ∃ e, stAtomic.m.warp 0 0 = some e ∧ stAtomic.m.alive e.1 = true ∧ (stAtomic.m.launchOf e.1).mqm = 0 ∧
    (pendingLanes [acc4 [5, 0, 0, 0]] []).filter (fun a => a.slice .g = 0) ≠ [] ∧
    ends (exec (.atomicGroup 0 0 0) stAtomic) (fun t => t.m.mem.get 0x10000 == 14 && warpIn t.m (fun y => y.queue == [])) = true :=
  some_of (by decide)
theorem ev_atomicGroup_near : ends (exec (.atomicGroup 0 0 0) (changed stAtomic (fun m => onBlock (fun b => { b with scratch := b.scratch.set 0x10000 9 })
    (onWarp (fun w => { w with queue := w.queue.map (fun q => { q with space := .s }) }) m)))) (fun t =>
      blockIn t.m (fun b => b.scratch.get 0x10000 == 14) && warpIn t.m (fun y => y.queue == [])) = true := by decide
/-- Page tables that map the first GiB at its own addresses, writable: three tables of one entry each. -/
def tables (m : Mach) : Mach :=
  let put (f : FMap 8) (k : Nat) (bs : List Byte) : FMap 8 := (List.range bs.length).foldl (fun f i => f.set (k + i) (bs.getD i 0)) f
  onCtx (fun c => c.setWord 1 0x100000) { m with mem := put (put (put m.mem 0x100000 [0x01, 0x10, 0x10]) 0x101000 [0x01, 0x20, 0x10]) 0x102000 [0x07] }
/-- A replay whose log has one entry: block 0, warp 0, one group. -/
def replaying (l : Launch) : Launch := { l with mqm := 2, mqlog := 0x20000, mqlen := 0x8000 }
def stTracked : State := changed stAtomic (onWarp (fun w => { w with queue := w.queue.map (fun q => { q with kind := .atomic 0 .add 4 true false [acc4 [5, 0, 0, 0]] [] }) }))
def stGate : State := changed stTracked (fun m =>
  let seg := m.mqSegAt (replaying (m.launchOf (placedBlock 0 0 7))) 0
  tables (onLaunch replaying { m with mem := (m.mem.set seg 1).set (seg + 13) 1 }))
theorem ev_mqGateAdmit : ∃ e, stGate.m.warp 0 0 = some e ∧ (stGate.m.launches.find 0) = some (stGate.m.launchOf e.1) ∧
    (stGate.m.waitsAt (stGate.m.launchOf e.1) e.1 e.2 0).isSome = true ∧ stGate.m.gate (stGate.m.launchOf e.1) 0 = some (0, 0, 1, 0) ∧
    ends (exec (.mqGateAdmit 0 0 0) stGate) (fun t => t.m.mem.get 0x10000 == 14 &&
      ((t.m.launches.find 0).bind (fun l => l.gates.find 0)) == some (0, 1)) = true := some_of (by decide)
theorem ev_l2Evict : ∃ d, (lay (fun m => { m with dirty := [(512, { ctx := 0, old := [] })] })).m.dirty.find 512 = some d ∧
    ends (exec (.l2Evict 512) (lay (fun m => { m with dirty := [(512, { ctx := 0, old := [] })] }))) (fun t => t.m.dirty == []) = true :=
  some_of (by decide)
/-- The line holds uncorrectable data. -/
theorem ev_l2Evict_lost : ends (exec (.l2Evict 512) (lay (fun m => { m with
      dirty := [(512, { ctx := 0, old := [7] })], bad := [2048], channels := [(0, { own := 0, v := true, ret := false })] }))) (fun t => t.m.mem.get 0x10000 == 7 && t.m.dirty == [] && t.m.bad == [] &&
      (t.m.ctx 0).killCause == 0x68) = true := by decide
theorem ev_pageWalk : ends (exec (.pageWalk 0 0 0 .read) (lay id)) (fun t => t.m.mem == (lay id).m.mem) = true := by decide

/-! #### Engines -/

def fdesc : FieldDesc := [0, 0, 0, 0, 0, 0, 0, 0, 0, 0, 0, 0, 0, 0, 0, 0]
def stMatrix (fault : Option (Nat × FaultInfo)) : State :=
  lay (fun m => onWarp (fun w => { w with matQ := [0], matFault := fault })
    (withOp (op0 (.matrix (.mma (blank 0 (.v 0) (.v 2) (.v 4) (.s 6) 0)) [] [] [] [] false)) m))
theorem ev_mma_standing : ∃ e, (stMatrix (some (9, flt))).m.warp 0 0 = some e ∧ e.2.matHead.isSome = true ∧
    (stMatrix (some (9, flt))).m.alive e.1 = true ∧
    ends (exec (.mmaEngineEntry 0 0) (stMatrix (some (9, flt)))) (fun t => warpIn t.m (fun y => ((y.ops.find 0).bind (·.fault)).isSome)) = true :=
  some_of (by decide)
theorem ev_mma_enters : ∃ e, (stMatrix none).m.warp 0 0 = some e ∧ e.2.matFault = none ∧
    (match mmaEnter (stMatrix none).caps ((stMatrix none).m.setWarp 0 0 e.2) 0 e.1 ((stMatrix none).m.launchOf e.1)
        (op0 (.matrix (.mma (blank 0 (.v 0) (.v 2) (.v 4) (.s 6) 0)) [] [] [] [] false)) (blank 0 (.v 0) (.v 2) (.v 4) (.s 6) 0).fields [] [] with
      | (_, .ok (some _)) => true
      | _ => false) = true ∧
    ends (exec (.mmaEngineEntry 0 0) (stMatrix none)) (fun t => warpIn t.m (fun y => y.matQ == [])) = true := some_of (by decide)
def stCopy : State := lay (withOp { op0 (.copy 0 64 0x10000 20 none (some [1, 2, 3, 4, 5, 6, 7, 8, 9, 10, 11, 12, 13, 14, 15, 16, 17, 18, 19, 20]) [(0, 16), (16, 4)] false) with batch := some (0, 0) })
theorem ev_copyPieceLand : ∃ e, stCopy.m.warp 0 0 = some e ∧ stCopy.m.alive e.1 = true ∧ e.2.drained 0 = true ∧
    e.2.held Op.holdsStores 0 = false ∧
    ends (exec (.copyPieceLand 0 0 0 16) stCopy) (fun t => blockIn t.m (fun b => (List.range 4).map (fun i => b.scratch.get (80 + i)) == [17, 18, 19, 20])) = true :=
  some_of (by decide)
theorem ev_copyPieceLand_out : ends (exec (.copyPieceLand 0 0 0 0) (lay (withOp { op0 (.copy 1 0x10000 64 4 none (some [1, 2, 3, 4]) [(0, 4)] false) with batch := some (0, 0) })))
    (fun t => (List.range 4).map (fun i => t.m.mem.get (0x10000 + i)) == [1, 2, 3, 4]) = true := by decide
def stWait : State := lay (fun m => onBlock (fun b => { b with scratch := b.scratch.set 71 0x80 }) (withOp (op0 (.barWait false 64 false false)) m))
theorem ev_waitPollTimer : ∃ e, stWait.m.warp 0 0 = some e ∧ stWait.m.alive e.1 = true ∧
    ends (exec (.waitPollTimer 0 0 0) stWait) (fun t => warpIn t.m (fun y => (y.ops.find 0).map (·.payload) == some (.barWait false 64 false true))) = true :=
  some_of (by decide)
def stSleep (past : Bool) : State := { lay (fun m => onBlock (fun b => { b with scratch := b.scratch.set 64 7 })
  (onWarp (fun w => { w with sleeping := [0] }) (withOp (op0 (.sleep .s 64 64 7 (some 50) false 0 (.v 9) past)) m))) with now := 60 }
theorem ev_sleepTimeout : ∃ e, (stSleep false).m.warp 0 0 = some e ∧
    ends (exec (.sleepTimeout 0 0 0) (stSleep false)) (fun t => warpIn t.m (fun y => (y.ops.find 0).map (·.payload) == some (.sleep .s 64 64 7 (some 50) false 0 (.v 9) true))) = true :=
  some_of (by decide)
theorem ev_sleepComplete : ∃ e, (stSleep true).m.warp 0 0 = some e ∧ e.2.sleeping = [0] ∧ e.2.queue = [] ∧
    e.2.loadWaits 0 .s false [64, 65, 66, 67] = false ∧
    ends (exec (.sleepComplete 0 0 0) (stSleep true)) (fun t => warpIn t.m (fun y => y.v.get (regKey 9 0) == 7 && y.sleeping == [])) = true :=
  some_of (by decide)
def stBatch : State := lay (fun m => onWarp (fun w => w.setBatch 1 { open_ := 3, out := 2, bad := [] }) (withOp { op0 (.sourcesRead [] 0) with batch := some (1, 1), batchDone := true } m))
theorem ev_batchRetire : ∃ e, stBatch.m.warp 0 0 = some e ∧ (e.2.batch 1).out ≠ 0 ∧ e.2.batchOver 1 1 = true ∧
    ends (exec (.batchRetire 0 0 1) stBatch) (fun t => warpIn t.m (fun y => (y.batch 1).out == 1)) = true := some_of (by decide)
/-- FCLR of a scratchpad field of four binary32 entries at 64, before its second entry. -/
def stField : State := lay (fun m => onBlock (fun b => { b with scratch := [(68, 3), (72, 4)] }) (onWarp (fun w => { w with pix := 1, fieldQ := [0] })
  (withOp (op0 (.splat (.fclr (blank 0 (.v 0) (.v 0) (.v 0) (.v 0) 0)) [] []
    [0x12, 0, 64, 0, 4, 0, 0, 0, 0, 0, 0, 0, 0, 0, 0, 0, 0, 0, 0, 0, 0, 0, 0, 0] [] true 0)) m)))
theorem ev_fieldPair : ∃ e, stField.m.warp 0 0 = some e ∧ e.2.fieldQ = [0] ∧ e.2.stop = none ∧ stField.m.alive e.1 = true ∧
    e.2.drained 0 = true ∧ e.2.held Op.holdsStores 0 = false ∧
    ends (exec (.fieldPair 0 0) stField) (fun t => blockIn t.m (fun b => b.scratch == [(72, 4)]) && warpIn t.m (fun y => y.pix == 2)) = true :=
  some_of (by decide)
/-- A field of four entries: binary32 at 64 in the scratchpad, with order `o`; the same in memory at 0x10000; FX64 at 128. -/
def fieldS (o : Word) : FieldDesc := [0x12 + o * 256, 0, 64, 0, 4, 0, 0, 0, 0, 0, 0, 0, 0x3F800000, 0, 0, 0, 0, 0, 0, 0, 0, 0, 0, 0]
def fieldG : FieldDesc := [0x10, 0, 0x10000, 0, 4, 0, 0, 0, 4, 0, 0, 0, 0x3F800000, 0, 0, 0, 0, 0, 0, 0, 0, 0, 0, 0]
def fieldQ64 : FieldDesc := [0x3012, 0, 128, 0, 4, 0, 0, 0, 0, 0, 0, 0, 0x3F800000, 0, 0, 0, 0, 0, 0, 0, 0, 0, 0, 0]
/-- The first pair of a splat of the value 2 at the coordinate 1, where the field holds 1; or of a drain of 5. -/
def stSplat (i : Instr) (d s : FieldDesc) : State := lay (fun m =>
  onBlock (fun b => { b with scratch := [(70, 0x80), (71, 0x3F), (128, 5)] }) (onWarp (fun w => { w with pix := 0, fieldQ := [0] })
    (withOp (op0 (.splat i (valsOf 1 [0] (fun _ _ => 0x3F800000#32)) (valsOf 1 [0] (fun _ _ => 0x40000000#32)) d s true 0))
      { m with mem := (m.mem.set 0x10006 0x80).set 0x10007 0x3F })))
theorem ev_fieldPair_splats :
    ends (exec (.fieldPair 0 0) (stSplat (.fst (blank 0 (.v 0) (.v 2) (.v 4) (.v 0) 0)) (fieldS 0) [])) (fun t =>
      blockIn t.m (fun b => (List.range 4).map (fun i => b.scratch.get (68 + i)) == [0, 0, 0x40, 0x40]) && warpIn t.m (fun y => y.pix == 1 && y.fieldQ == [])) = true ∧
    ends (exec (.fieldPair 0 0) (stSplat (.fst (blank 0 (.v 0) (.v 2) (.v 4) (.v 0) 0)) fieldG [])) (fun t =>
      (List.range 4).map (fun i => t.m.mem.get (0x10004 + i)) == [0, 0, 0x40, 0x40]) = true ∧
    ends (exec (.fieldPair 0 0) (stSplat (.fstg (blank 0 (.v 0) (.v 2) (.v 4) (.v 0) 0)) (fieldS 1) [])) (fun t =>
      blockIn t.m (fun b => (List.range 4).map (fun i => b.scratch.get (68 + i)) == [0, 0, 0x80, 0xBF])) = true ∧
    ends (exec (.fieldPair 0 0) (stSplat (.fdrn (blank 0 (.v 0) (.v 0) (.v 0) (.v 0) 0x10000)) (fieldS 0) fieldQ64)) (fun t =>
      blockIn t.m (fun b => (List.range 4).map (fun i => b.scratch.get (64 + i)) == [0, 0, 0xA0, 0x40] && b.scratch.get 128 == 0)) = true := by decide +kernel
def gangWarp : Warp := { Warp.launch 0 64 0 with gang := 3, ops := [(0, op0 (.matrix (.mma (blank 8 (.v 0) (.v 2) (.v 4) (.s 6) 0)) [] [] [] [] true))], nextOp := 1, matQ := [0] }
def stGang : State := lay (onBlock (fun b => { b with warpCount := 2, warps := [(0, gangWarp), (1, gangWarp)] }))
theorem ev_gangRendezvous : ∃ b, stGang.m.block 0 = some b ∧ (b.gangHere 3).2 = true ∧ (b.gangHere 3).1.length = 2 ∧
    ends (exec (.gangRendezvous 0 3) stGang) (fun t => warpIn t.m (fun y => y.matQ == [])) = true := some_of (by decide)
def stLeft : State := lay (onBlock (fun b => { b with warpCount := 2, warps := [(0, gangWarp), (1, { gangWarp with matQ := [], ops := [], ended := true })] }))
theorem ev_gangBroken : ∃ b, stLeft.m.block 0 = some b ∧ b.leftGang 3 1 = true ∧ (b.gangHere 3).1.length = 1 ∧
    ends (exec (.gangBroken 0 3) stLeft) (fun t => blockIn t.m (fun c => c.broken.contains 3)) = true := some_of (by decide)

/-! #### Block transfers -/

def bulk0 : Bulk :=
  { ctx := 0, blk := 0, warp := 0, op := 0, dst := 0x20000, src := 0x10000, dstT := 0, srcT := 0, count := 4, tag := 5, ring := 0x30000,
    data := none, moved := 0, status := 0, cause := 0, done := false, fin := 0, start := 0 }
def stBulk (x : Bulk) : State := lay (fun m => { tables { m with mem := m.mem.set 0x10001 9 } with bulks := [(4, x)], nextId := 5 })
theorem ev_cpybFinish_here : ∃ x, (stBulk bulk0).m.bulks.find 4 = some x ∧ x.done = false ∧ (stBulk bulk0).m.bulkWaits 4 = false ∧
    (stBulk bulk0).m.sourceTurn x = true ∧ (stBulk bulk0).m.side 0 = .here ∧
    ((stBulk bulk0).m.engineKeys 0 .write 0x20000 4).toOption = some [0x20000, 0x20001, 0x20002, 0x20003] ∧
    ends (exec (.cpybFinish 4 { cause := 0, landed := 4, data := [] }) (stBulk bulk0)) (fun t => t.m.mem.get 0x20001 == 9 &&
      (t.m.bulks.find 4).map (fun y => (y.done, y.status, y.moved)) == some (true, 0, 4)) = true := some_of (by decide)
theorem ev_cpybFinish_far : ∃ x, (stBulk { bulk0 with dstT := 5, data := some [1, 2, 3, 4] }).m.bulks.find 4 = some x ∧
    (stBulk bulk0).m.side 5 = .far ∧
    ends (exec (.cpybFinish 4 { cause := 0, landed := 4, data := [] }) (stBulk { bulk0 with dstT := 5, data := some [1, 2, 3, 4] })) (fun t =>
      (t.m.bulks.find 4).map (fun y => (y.done, y.moved)) == some (true, 4)) = true ∧
    ends (exec (.cpybFinish 4 { cause := 0xA2, landed := 1, data := [] }) (stBulk { bulk0 with dstT := 5, data := some [1, 2, 3, 4] })) (fun t =>
      (t.m.bulks.find 4).map (fun y => (y.done, y.status, y.cause, y.moved)) == some (true, 1, 0xA2, 1)) = true := some_of (by decide)
/-- No route has led to package 5 since cycle 0. -/
def stCut : State := { changed (stBulk { bulk0 with dstT := 5 }) (fun m => { m with cutSince := some 0, links := [(0, true)] }) with now := 5000000 }
theorem ev_cpybNoRoute : ∃ x, stCut.m.bulks.find 4 = some x ∧ stCut.m.routeLost stCut.now (stCut.m.farPackage x) = some 0 ∧
    stCut.m.sourceTurn x = true ∧ x.start + cyclesPerMs ≤ 5000000 ∧
    ends (exec (.cpybNoRoute 4) stCut) (fun t =>
      (t.m.bulks.find 4).map (fun y => (y.done, y.status, y.cause)) == some (true, 1, 0xA1)) = true := some_of (by decide)
def remote (addr : DWord) (ftid : Nat) : BulkMsg := { ctx := 0, ftid := ftid, src := 5, write := true, addr := addr, data := [7, 8], count := 2 }
theorem ev_remoteCpybArrive : ∃ c, (stBulk bulk0).m.ctxs.find 0 = some c ∧ c.v = true ∧
    ends (exec (.remoteCpybArrive (remote 0x20000 0)) (stBulk bulk0)) (fun t => t.m.mem.get 0x20001 == 8 && t.m.answers.map (·.2.landed) == [2]) = true ∧
    ends (exec (.remoteCpybArrive { remote 0x10000 0 with write := false }) (stBulk bulk0)) (fun t => t.m.answers.map (·.2.data) == [[0, 9]]) = true ∧
    ends (exec (.remoteCpybArrive (remote 0x20000 9)) (stBulk bulk0)) (fun t => t.m.mem == (stBulk bulk0).m.mem && t.m.answers.map (·.2.cause) == [0xA2]) = true :=
  some_of (by decide)

/-! #### Stops and handlers -/

def twoWarps (f : Warp → Warp) (g : Warp → Warp) : Mach → Mach :=
  onBlock (fun b => { b with warpCount := 2, warps := [(0, f (Warp.launch 0 64 0)), (1, g (Warp.launch 0 64 0))] })
def stBroadcast : State := { lay (fun m => onBlock (fun b => { b with primary := some 1 }) (twoWarps id (fun w => { w with stop := some stop0 }) m)) with now := 100 }
theorem ev_warpStop : ∃ e, stBroadcast.m.warp 0 0 = some e ∧ e.2.stop = none ∧ e.2.clause = none ∧ e.1.out = false ∧ e.1.past = false ∧
    e.1.primary ≠ none ∧ e.1.halted = false ∧
    ends (exec (.warpStop 0 0) stBroadcast) (fun t => warpIn t.m (fun y => (y.stop.map (fun s => (s.how, s.cycle))) == some (1, 100))) = true :=
  some_of (by decide)
def stFailed : State := { lay (twoWarps id (fun w => { w with stop := some stop0 })) with now := 100 }
theorem ev_haltBroadcast : ∃ b, stFailed.m.block 0 = some b ∧ b.primary = none ∧ b.primaryStop = some (1, stop0) ∧ stop0.cycle + 2 ≤ 100 ∧
    ends (exec (.haltBroadcast 0) stFailed) (fun t => blockIn t.m (fun c => c.primary == some 1)) = true := some_of (by decide)
def stEnded : State := lay (onWarp (fun w => { w with ended := true }))
theorem ev_warpSlotFree : ∃ e, stEnded.m.warp 0 0 = some e ∧ e.2.ended = true ∧ e.2.freed = false ∧ e.2.issuedTo ≤ stEnded.now ∧ e.2.noFlag = none ∧
    ends (exec (.warpSlotFree 0 0) stEnded) (fun t => warpIn t.m (·.freed) && blockIn t.m (·.past)) = true := some_of (by decide)
def stFreed : State := lay (onWarp (fun w => { w with ended := true, freed := true }))
theorem ev_blockEnds : ∃ e, stFreed.m.warp 0 0 = some e ∧ e.2.freed = true ∧ e.1.past = false ∧ (∀ f ∈ e.1.warps, f.2.gone = true) ∧
    ends (exec (.warpSlotFree 0 0) stFreed) (fun t => blockIn t.m (·.past)) = true := some_of (by decide)
/-- A halted block whose warp awaits its handler at 0x4000; its spill area and frames begin at 0x10000. -/
def stHandler : State := { lay (fun m => onLaunch (fun l => { l with spb := 0x10000, hndl := 0x4000 })
  (onBlock (fun b => { b with halted := true, routed := true, primary := some 0, await := [0] }) (onWarp (fun w => { w with stop := some stop0 }) m))) with now := 100 }
theorem ev_handlerEntry : ∃ e, stHandler.m.warp 0 0 = some e ∧ e.2.stop = some stop0 ∧ e.1.await = [0] ∧ e.1.halted = true ∧ e.1.running = none ∧
    frameAt (stHandler.m.launchOf e.1) e.1.b 0 + 256 ≤ 2 ^ 57 ∧ (stHandler.m.coreKeys e.1.core e.1.ctx .write (frameAt (stHandler.m.launchOf e.1) e.1.b 0) 256).isOk = true ∧
    (∀ f ∈ e.1.failures, routeOf f.2.cause ≠ .system) ∧
    ends (exec (.handlerEntry 0 0) stHandler) (fun t => warpIn t.m (fun y => y.s0.pc == 0x4000 && y.shadow.isSome && y.stop == none) &&
      blockIn t.m (fun b => b.handler == some 0)) = true := some_of (by decide)
def stResume : State := changed stHandler (onBlock (fun b => { b with await := [], warps := b.warps.upd 0 (fun w => { w with stop := some { stop0 with how := 1, cause := 0 } }) }))
theorem ev_blockResume : ∃ b, stResume.m.block 0 = some b ∧ b.halted = true ∧ b.uncovered = [] ∧ b.running = none ∧ b.await = [] ∧
    b.primary ≠ none ∧ b.routed = true ∧ b.failures = [] ∧
    ends (exec (.blockResume 0) stResume) (fun t => blockIn t.m (fun c => !c.halted && c.primary == none) && warpIn t.m (fun y => y.stop == none)) = true :=
  some_of (by decide)
/-- Its warp's cause asks for a kill, with the primary warp's. -/
def stDoomed : State := changed stHandler (onBlock (fun b => { b with
  await := [], primaryCause := 0x61, warps := b.warps.upd 0 (fun w => { w with stop := some { stop0 with cause := 0x61 } }) }))
theorem ev_blockResume_kills : ∃ b, stDoomed.m.block 0 = some b ∧ b.halted = true ∧ b.routed = true ∧ b.uncovered = [] ∧ b.running = none ∧
    b.await = [] ∧ b.primary ≠ none ∧ b.failures ≠ [] ∧ (∀ f ∈ b.failures, routeOf f.2.cause ≠ .system) ∧ stDoomed.m.alive b = true ∧
    ends (exec (.blockResume 0) stDoomed) (fun t => (t.m.ctx 0).state == 5 && (t.m.ctx 0).killCause == 0x61) = true := some_of (by decide)
def stLate : State := changed stHandler (onBlock (fun b => { b with noticeDue := some 50, uncovered := [(0, 8)] }))
theorem ev_faultTimeout : ∃ b, stLate.m.block 0 = some b ∧ b.noticeDue = some 50 ∧ b.uncovered ≠ [] ∧ stLate.m.alive b = true ∧
    (stLate.m.ctx b.ctx).v = true ∧
    ends (exec (.faultTimeout 0) stLate) (fun t => (t.m.ctx 0).state == 5 && (t.m.ctx 0).killCause == 0x88) = true := some_of (by decide)
theorem eret_returns : ∃ s c, Issues s (.eret (zf false 7)) c ∧ c.skipped = false ∧ c.w.shadow = some shadow0 ∧ c.w.drained c.w.seq = true ∧
    frameAt c.la c.blk.b c.wid + 16 ≤ 2 ^ 57 ∧
    (c.flush.coreKeys c.blk.core c.blk.ctx .read (frameAt c.la c.blk.b c.wid) 16).isOk = true ∧
    (c.flush.isHeader c.blk.core c.blk.ctx 0).toOption = some true ∧ c.flush.mem.get 0x10002 = 0 :=
  seen (fun m => page (onLaunch (fun l => { l with spb := 0x10000 }) (onWarp (fun w => { w with shadow := some shadow0 }) m))) (by decide)

/-! #### Transport, rings and packets -/

def ring0 (p : Option Packet) (rs : List Rec) : Ring := { wc := 3, rc := 1, stopped := false, dead := false, seq := 0, packet := p, recs := rs }
/-- A package that has booted; context 0's ring of 2^2 slots lies at virtual address 0x40000. -/
def stHost (f : Mach → Mach) : State := { lay (fun m => f { tables m with boot := 2 }) with now := 1000 }
theorem ev_ueAtomic : ends (exec (.ueAtomic 0 0) (stHost id)) (fun t => t.m == (stHost id).m) = true := by decide
theorem ev_rmaRead : ends (exec (.rmaRead 0 0 4) (stHost id)) (fun t => t.m.mem == (stHost id).m.mem) = true := by decide
def rec0 (own : Bool) (stage : Nat) : Rec := { body := List.replicate 56 0, own := own, stage := stage }
def stRec (stage : Nat) : State := stHost (fun m => { m with adminRing := ring0 none [rec0 false stage] })
theorem ev_completionRecord : ((stRec 0).m.ringOf 256).recs = [rec0 false 0] ∧
    ends (exec (.completionRecord 256) (stRec 0)) (fun t => (t.m.ringOf 256).seq == 0) = true ∧
    ends (exec (.completionRecord 256) (stRec 1)) (fun t => (t.m.ringOf 256).seq == 1 && (t.m.ringOf 256).recs == [] &&
      t.m.admin.get 0x10000 == 1) = true := by decide
def stOwn : State := stHost (onCtx (fun c => { (c.setWord 8 0x10000) with ring := ring0 none [rec0 false 0] }))
theorem ev_completionRecord_host : (stOwn.m.ringOf 0).recs = [rec0 false 0] ∧ (stOwn.m.ctx 0).recordAt 1 + 64 ≤ (stOwn.m.ctx 0).pair 8 ∧
    ends (exec (.completionRecord 0) stOwn) (fun t => (t.m.rma.find 0).isSome) = true := by decide
def stRma : State := stHost (fun m => { m with rma := [(0, (m.ctx 0).hostEnd, .record 0 8 (List.replicate 56 0))], rmaSent := 1 })
theorem ev_hostRmaCompletion : stRma.m.rma.find 0 = some ((stRma.m.ctx 0).hostEnd, .record 0 8 (List.replicate 56 0)) ∧
    ends (exec (.hostRmaCompletion 0 []) stRma) (fun t => t.m.rma.find 1 == some ((stRma.m.ctx 0).hostEnd, .seqWrite 0 0 [1, 0, 0, 0, 0, 0, 0, 0])) = true := by decide
def stDoor : State := stHost (fun m => { m with adminRing := { ring0 none [] with wc := 1 } })

/-! #### Rings, packets and launches -/

/-- A packet with values at some of its places: (offset, bytes, value). -/
def pkt (fs : List (Nat × Nat × Nat)) : List Byte :=
  fs.foldl (fun b f => b.take f.1 ++ leBytes f.2.2 f.2.1 ++ b.drop (f.1 + f.2.1)) (List.replicate 256 0)
def packet0 (begun : Bool) (fs : List (Nat × Nat × Nat)) : Packet := { num := 1, bytes := pkt fs, begun := begun, ended := false }
/-- The running command of the administrative ring. -/
def stAdm (begun : Bool) (fs : List (Nat × Nat × Nat)) (f : Mach → Mach) : State :=
  stHost (fun m => { f m with adminRing := ring0 (some (packet0 begun fs)) [] })
/-- Context 0's running packet. -/
def stPkt (begun : Bool) (fs : List (Nat × Nat × Nat)) (f : Mach → Mach) : State :=
  stHost (fun m => onCtx (fun c => { c with ring := ring0 (some (packet0 begun fs)) [] }) (f m))
/-- The STATUS, cause and reason of the last record of a ring. -/
def lastRec (m : Mach) (r : Nat) : List Nat :=
  match (m.ringOf r).recs.getLast? with
  | some e => [fieldAt e.body 8 1, fieldAt e.body 9 1, fieldAt e.body 10 1]
  | none => []
/-- Whether a ring's running packet has ended with a record. -/
def over' (m : Mach) (r : Nat) (x : List Nat) : Bool := lastRec m r == x && ((m.ringOf r).packet.map (·.ended)) == some true

/-- The partition's key is any that the system controller does not hold. -/
def stKey (key : Word) : State := stHost (onPart (fun p => { p with key := key }))
theorem ev_rmaWrite (key : Word) (_ : key ≠ Config.sysKey) : (stKey key).m.bellOf key 0x4000 = none ∧ (stKey key).m.keyPart key = some 0 ∧
    ((stKey key).m.part 0).rmaKeys 0x4000 2 = some [0x4000, 0x4001] := by
  have e : ((stKey key).m.part 0).cht = [0] := rfl
  refine ⟨by simp [Mach.bellOf, bellBase], ?_, by simp [Part.rmaKeys, Part.places, Part.place, e]⟩
  have h : (stKey key).m.parts = [(0, (stKey key).m.part 0)] := rfl
  have k : ((stKey key).m.part 0).isSet = true ∧ ((stKey key).m.part 0).key = key := ⟨rfl, rfl⟩
  simp [Mach.keyPart, h, k.1, k.2]
theorem ev_rmaWrite_system : State.reset.m.bellOf Config.sysKey 0 = none ∧ 0 + [1, 2].length ≤ 2 ^ 24 := by
  simp [Mach.bellOf, bellBase]
theorem ev_doorbell : (stHost id).m.bellOf Config.sysKey (2 ^ 60) = some (256, 0) ∧ ((stHost id).m.ringOf 256).stopped = false ∧
    ((stHost id).m.ringOf 256).dead = false := by
  refine ⟨by simp [Mach.bellOf, bellBase, adminNo], by decide⟩
theorem ev_doorbell_rings :
    ((((stHost id).m.ringBell 0 256 5).ringOf 256).wc == 5 && !(((stHost id).m.ringBell 0 256 5).ringOf 256).stopped &&
      (((stHost id).m.ringBell 0 256 257).ringOf 256).stopped && lastRec ((stHost id).m.ringBell 0 256 257) 256 == [3, 0x81, 0]) = true := by decide
def stFetch : State := stHost (fun m => { m with adminRing := { ring0 none [] with wc := 2 } })
theorem ev_packetFetch : stFetch.m.mayFetch 256 = true ∧ stFetch.m.recovery = false ∧
    ends (exec (.packetFetch 256) stFetch) (fun t => (t.m.ringOf 256).rc == 2 && over' t.m 256 [1, 0, 1]) = true := by decide
def stFetch0 : State := stHost (fun m => onCtx (fun c => { (c.setWord 3 0x30000) with ring := ring0 none [] }) { m with mem := m.mem.set 0x30000 2 })
theorem ev_packetFetch_context : stFetch0.m.mayFetch 0 = true ∧ stFetch0.m.anyBad (stFetch0.m.slotKeys 0 1) = false ∧
    ends (exec (.packetFetch 0) stFetch0) (fun t => ((t.m.ringOf 0).packet.map (fun p => (fieldAt p.bytes 0 1, p.ended))) == some (2, false)) = true := by
  decide
def stLaunch : State := stPkt false [(0, 1, 1), (1, 1, 2), (0x20, 8, 0x80000000)] id
theorem ev_launchPacket : stLaunch.m.packetOf 0 1 = some (packet0 false [(0, 1, 1), (1, 1, 2), (0x20, 8, 0x80000000)]) ∧ stLaunch.m.bad = [] ∧
    stLaunch.m.launchReason (launchOfPacket 0 1 (pkt [(0, 1, 1), (1, 1, 2), (0x20, 8, 0x80000000)])) (pkt [(0, 1, 1), (1, 1, 2), (0x20, 8, 0x80000000)]) none = 1 ∧
    ends (exec (.launchPacket 0) stLaunch) (fun t => over' t.m 0 [1, 0, 1]) = true := by decide +kernel
theorem ev_tlbPacket : (stPkt false [(0, 1, 2)] id).m.packetOf 0 2 = some (packet0 false [(0, 1, 2)]) ∧
    ends (exec (.tlbInvalidatePacket 0) (stPkt false [(0, 1, 2)] id)) (fun t => over' t.m 0 [0, 0, 0] && t.m.utlb == [(0, [])]) = true ∧
    ends (exec (.tlbInvalidatePacket 0) (stPkt false [(0, 1, 2), (8, 1, 1)] id)) (fun t => over' t.m 0 [1, 0, 1]) = true := by decide
/-- A code-map packet of one granule at 1 GiB. -/
def mapFields (ty : Nat) : List (Nat × Nat × Nat) := [(0, 1, ty), (1, 1, 64), (2, 2, 8), (4, 1, 0), (8, 8, 0x40000000), (0x10, 8, 0x10000)]
/-- A second leaf of the page tables, executable and not writable. -/
def codePage (m : Mach) : Mach := { m with mem := (m.mem.set 0x102008 0x0B) }
def badMap : List (Nat × Nat × Nat) := mapFields 3 ++ [(1, 1, 5)]
theorem ev_codeMap : (stPkt false (mapFields 3) codePage).m.packetOf 0 3 = some (packet0 false (mapFields 3)) ∧
    codeRangeOk (pkt (mapFields 3)) = true ∧ zeroIn (pkt (mapFields 3)) 5 8 = true ∧
    granules (fieldAt (pkt (mapFields 3)) 8 8) (fieldAt (pkt (mapFields 3)) 0x10 8) = [0x40000000] ∧
    ((stPkt false (mapFields 3) codePage).m.mapGranules 0 [0x40000000]).toOption = some [(0x40000000, 0)] ∧
    ends (exec (.codeMap 0) (stPkt false (mapFields 3) codePage)) (fun t => ((t.m.ringOf 0).packet.map (fun p => (p.begun, p.ended))) == some (true, false) &&
      (t.m.part 0).protectedPA 0) = true := by decide +kernel
theorem ev_codeMap_stops : ((stPkt false (mapFields 3) id).m.mapGranules 0 [0x40000000]).toOption = none ∧
    ends (exec (.codeMap 0) (stPkt false (mapFields 3) id)) (fun t => (lastRec t.m 0).head? == some 5) = true ∧
    ends (exec (.codeMap 0) (stPkt false badMap id)) (fun t => over' t.m 0 [1, 0, 1]) = true := by decide +kernel
/-- A code-unmap packet of one granule at 1 GiB. -/
def unmapFields : List (Nat × Nat × Nat) := [(0, 1, 4), (8, 8, 0x40000000), (0x10, 8, 0x10000)]
theorem ev_codeUnmap : (stPkt false unmapFields id).m.packetOf 0 4 = some (packet0 false unmapFields) ∧
    codeRangeOk (pkt unmapFields) = true ∧ zeroIn (pkt unmapFields) 1 8 = true ∧
    ends (exec (.codeUnmap 0) (stPkt false unmapFields id)) (fun t => over' t.m 0 [0, 0, 0]) = true ∧
    ends (exec (.codeUnmap 0) (stPkt false (unmapFields ++ [(1, 1, 1)]) id)) (fun t => over' t.m 0 [1, 0, 1]) = true := by decide +kernel
/-- The granule is executable, and no launch is left. -/
def stMapped : State := stPkt false unmapFields (fun m => codePage (onPart (fun p => { p with exec := [(0, { win := 8, uni := 0, width := 64 }), (5, { win := 8, uni := 0, width := 64 })] })
  { m with launches := [], blocks := [] }))
theorem ev_codeUnmap_leaves : ((stMapped.m.translateEngine 0 0x40000000 .read).toOption = some 0) ∧ stMapped.m.granuleInUse 0 0 = false ∧
    granules (fieldAt (pkt unmapFields) 8 8) (fieldAt (pkt unmapFields) 0x10 8) = [0x40000000] ∧
    ends (exec (.codeUnmap 0) stMapped) (fun t => (t.m.part 0).exec == [(5, { win := 8, uni := 0, width := 64 })] && over' t.m 0 [0, 0, 0]) = true := by decide +kernel
/-- Quota words that give partition 0 all of core 0, but for nothing of L1 beyond 64 rows. -/
def wholeCore : List Word := [0x100#32, 0x60000000#32, 0x00400040#32, 0x100000#32, 0x3000000#32]
def stPlace : State := stHost (fun m => onCtx (fun c => { c with half := some 0 }) { (onLaunch (fun l => { l with nextB := 0 }) m) with quota := [(0, wholeCore)], blocks := [] })
theorem ev_blockPlace : ∃ la, stPlace.m.launches.find 0 = some la ∧ la.nextB < la.blocks ∧ (stPlace.m.ctx la.ctx).state = 2 ∧
    (stPlace.m.ctx la.ctx).preempt = [] ∧ (stPlace.m.ctx la.ctx).half = some 0 ∧ stPlace.m.pickCore la 0 = some 0 ∧ la.mqm ≠ 1 ∧
    ends (exec (.blockPlace 0) stPlace) (fun t => ((t.m.block stPlace.m.nextId).map (fun b => (b.core, b.b, b.warps.length))) == some (0, 0, 1)) = true :=
  some_of (by decide +kernel)
def stDone : State := stPkt true [(0, 1, 1)] (onBlock (fun b => { b with past := true }))
theorem ev_launchComplete : ∃ la, stDone.m.launches.find 0 = some la ∧ la.blocks ≤ la.nextB ∧ (stDone.m.ctx la.ctx).state ≠ 5 ∧ la.mqm = 0 ∧
    stDone.m.bulks = [] ∧ (stDone.m.ringOf la.ctx).packet = some (packet0 true [(0, 1, 1)]) ∧
    ends (exec (.launchComplete 0) stDone) (fun t => over' t.m 0 [0, 0, 0] && t.m.launches == [] && t.m.blocks == []) = true := some_of (by decide +kernel)

/-! #### Administrative commands -/

/-- PART_SET of partition 1 with core 1 and channel 1, whose interleave table lies in staging memory. -/
def setFields : List (Nat × Nat × Nat) := [(0, 1, 0x40), (1, 1, 1), (4, 2, 9), (8, 8, 2), (0x48, 4, 0x100), (0x4C, 4, 0x60000000), (0x50, 4, 0x00400040)]
def stSet (ch : Byte) : State := stAdm false setFields (fun m => { m with admin := m.admin.set 0x20000 ch })
theorem ev_partSet : (stSet 1).m.packetOf 256 0x40 = some (packet0 false setFields) ∧ (stSet 1).m.setChannels (pkt setFields) = some [1] ∧
    setCores (pkt setFields) = [1] ∧ (stSet 1).m.partSetOk (stSet 1).caps 1 [1] [1] (setQuotas (pkt setFields)) = true ∧
    (stSet 255).m.partSetOk (stSet 255).caps 1 [1] [255] (setQuotas (pkt setFields)) = true := by decide +kernel
theorem ev_partSet_refused : (stAdm false (setFields ++ [(6, 1, 9)]) id).m.setChannels (pkt (setFields ++ [(6, 1, 9)])) = none ∧
    (stSet 1).m.partSetOk (stSet 1).caps 1 [1] [1] [0xFFFFFFFF#32] = false ∧
    ends (exec .partSet (stAdm false (setFields ++ [(6, 1, 9)]) id)) (fun t => over' t.m 256 [1, 0, 10]) = true := by decide +kernel
theorem ev_partClear : (stAdm false [(0, 1, 0x41)] id).m.packetOf 256 0x41 = some (packet0 false [(0, 1, 0x41)]) ∧
    ends (exec .partClear (stAdm false [(0, 1, 0x41)] id)) (fun t => (t.m.part 0).clearing && (t.m.ctx 0).state == 5) = true ∧
    ends (exec .partClear (stAdm false [(0, 1, 0x41), (1, 1, 16)] id)) (fun t => over' t.m 256 [1, 0, 10]) = true := by decide +kernel
def stZero : State := stAdm true [(0, 1, 0x41)] (fun m => onPart (fun p => { p with zeroing := true })
  { m with mem := m.mem.set 0x5000 7, channels := [(0, { own := 0, v := true, ret := false })] })
theorem ev_zeroisation : (stZero.m.part 0).zeroing = true ∧
    ends (exec (.zeroisation 0) stZero) (fun t => t.m.mem.get 0x5000 == 0 && (t.m.part 0).cht == [] && over' t.m 256 [0, 0, 0]) = true := by decide +kernel
/-- CTX_SET of context 1 in partition 0. -/
def ctxFields : List (Nat × Nat × Nat) := [(0, 1, 0x42), (1, 1, 1), (8, 4, 1), (12, 4, 0x7000)]
theorem ev_ctxSet : (stAdm false ctxFields id).m.packetOf 256 0x42 = some (packet0 false ctxFields) ∧ ((stAdm false ctxFields id).m.ctx 1).state = 0 ∧
    ((stAdm false ctxFields id).m.part 0).isSet = true ∧ ((stAdm false ctxFields id).m.ctx 1).ring.recs = [] ∧
    ends (exec .ctxSet (stAdm false ctxFields id)) (fun t => over' t.m 256 [0, 0, 0] && (t.m.ctx 1).word 1 == 0x7000) = true ∧
    ends (exec .ctxSet (stAdm false [(0, 1, 0x42)] id)) (fun t => over' t.m 256 [1, 0, 10]) = true ∧
    ((stAdm false [(0, 1, 0x42), (1, 1, 1), (8, 4, 0x51)] id).m.part 5).isSet = false ∧
    ends (exec .ctxSet (stAdm false [(0, 1, 0x42), (1, 1, 1), (8, 4, 0x51)] id)) (fun t => over' t.m 256 [1, 0, 10]) = true := by decide +kernel
def listFields (n : Nat) : List (Nat × Nat × Nat) := [(0, 1, 0x43), (2, 2, n)]
theorem ev_runlistWrite : (stAdm false (listFields 1) id).m.packetOf 256 0x43 = some (packet0 false (listFields 1)) ∧
    ((stAdm false (listFields 1) id).m.staged 0 8).isSome = true ∧
    ends (exec .runlistWrite (stAdm false (listFields 1) (fun m => { m with admin := (m.admin.set 0x20001 0x83).set 0x20002 7 })))
      (fun t => t.m.runlist == [0x78300#64] && over' t.m 256 [0, 0, 0]) = true ∧
    ends (exec .runlistWrite (stAdm false (listFields 257) id)) (fun t => over' t.m 256 [1, 0, 10]) = true := by decide +kernel
def stStopped : State := stAdm false [(0, 1, 0x44)] (onCtx (fun c => { c with ring := { ring0 none [] with stopped := true } }))
theorem ev_ringRestart : stStopped.m.packetOf 256 0x44 = some (packet0 false [(0, 1, 0x44)]) ∧ (stStopped.m.ctx 0).v = true ∧ (stStopped.m.ctx 0).ring.stopped = true ∧
    ends (exec .ringRestart stStopped) (fun t => !(t.m.ctx 0).ring.stopped && (t.m.ctx 0).ring.rc == 3) = true ∧
    ends (exec .ringRestart (stAdm false [(0, 1, 0x44), (1, 1, 9)] id)) (fun t => over' t.m 256 [1, 0, 10]) = true := by decide +kernel
theorem ev_kill : (stAdm false [(0, 1, 0x45)] id).m.packetOf 256 0x45 = some (packet0 false [(0, 1, 0x45)]) ∧ ((stAdm false [(0, 1, 0x45)] id).m.ctx 0).v = true ∧
    ends (exec .kill (stAdm false [(0, 1, 0x45)] id)) (fun t => (t.m.ctx 0).state == 5 && (t.m.ctx 0).killCause == 0x87) = true ∧
    ends (exec .kill (stAdm false [(0, 1, 0x45), (1, 1, 9)] id)) (fun t => over' t.m 256 [0, 0, 0]) = true := by decide +kernel
theorem ev_tlbinv : (stAdm false [(0, 1, 0x46)] id).m.packetOf 256 0x46 = some (packet0 false [(0, 1, 0x46)]) ∧
    ends (exec .tlbinv (stAdm false [(0, 1, 0x46)] id)) (fun t => t.m.utlb == [(0, [])] && over' t.m 256 [0, 0, 0]) = true ∧
    ends (exec .tlbinv (stAdm false [(0, 1, 0x46), (8, 1, 1)] id)) (fun t => over' t.m 256 [1, 0, 10]) = true := by decide +kernel
theorem ev_fwLoad_refused : (stAdm false [(0, 1, 0x47)] id).m.packetOf 256 0x47 = some (packet0 false [(0, 1, 0x47)]) ∧
    (∃ e ∈ (stAdm false [(0, 1, 0x47)] id).m.ctxs, 1 ≤ e.2.state ∧ e.2.state ≤ 5) ∧
    ends (exec .fwLoad (stAdm false [(0, 1, 0x47)] id)) (fun t => over' t.m 256 [1, 0x86, 10]) = true := by decide +kernel
def stFlash : State := stAdm false [(0, 1, 0x47)] (fun m => { m with ctxs := [] })
theorem ev_fwLoad : stFlash.m.packetOf 256 0x47 = some (packet0 false [(0, 1, 0x47)]) ∧ stFlash.m.ctxs = [] ∧
    stFlash.m.staged 0 0 = some [] := by decide +kernel
theorem ev_attest : (stAdm false [(0, 1, 0x48)] id).m.packetOf 256 0x48 = some (packet0 false [(0, 1, 0x48)]) ∧
    zeroIn (pkt [(0, 1, 0x48)]) 1 8 = true ∧ zeroIn (pkt [(0, 1, 0x48)]) 0x30 0x100 = true := by decide +kernel
theorem ev_attest_refused : (stAdm false [(0, 1, 0x48), (0x28, 8, 0x1000000)] id).m.packetOf 256 0x48 = some (packet0 false [(0, 1, 0x48), (0x28, 8, 0x1000000)]) ∧
    2 ^ 24 - 0x20000 < fieldAt (pkt [(0, 1, 0x48), (0x28, 8, 0x1000000)]) 0x28 8 := by decide +kernel
def stRetired (begun : Bool) : State := stAdm begun [(0, 1, 0x49), (2, 1, 3)] (fun m =>
  { m with channels := [(3, { own := 0, v := false, ret := true })], mem := m.mem.set (3 * 2 ^ 31 + 5) 9 })
theorem ev_mcReset : (stRetired false).m.packetOf 256 0x49 = some (packet0 false [(0, 1, 0x49), (2, 1, 3)]) ∧ ((stRetired false).m.channel 3).ret = true ∧
    ends (exec .mcReset (stRetired false)) (fun t => t.m.mem.get (3 * 2 ^ 31 + 5) == 0 && t.m.mem.get 0x100000 == 1 &&
      (t.m.adminRing.packet.map (·.begun)) == some true) = true ∧
    ends (exec .mcReset (stRetired true)) (fun t => !(t.m.channel 3).ret && over' t.m 256 [0, 0, 0]) = true ∧
    ends (exec .mcReset (stAdm false [(0, 1, 0x49)] id)) (fun t => over' t.m 256 [1, 0, 10]) = true := by decide +kernel
/-- A launch packet: one block of one warp, its code object at 2 MiB. -/
def launchFields : List (Nat × Nat × Nat) :=
  [(0, 1, 1), (4, 1, 64), (5, 1, 1), (6, 2, 8), (9, 1, 0xFF), (0x14, 4, 1), (0x18, 4, 1), (0x1C, 4, 1), (0x20, 8, 0x200000)] ++
  (List.range 8).map (fun k => (0x70 + 4 * k, 4, 20))
/-- Memory with page tables, and a code object of a header alone, which names the digest `d`. -/
def objectMem (d : List Byte) : FMap 8 :=
  [(0x100000, 0x01), (0x100001, 0x10), (0x100002, 0x10), (0x101000, 0x01), (0x101001, 0x20), (0x101002, 0x10), (0x102000, 0x07)] ++
  [(0x200000, 0x4F), (0x200001, 0x43), (0x200002, 0x42), (0x200003, 0x4F), (0x200004, 1), (0x200014, 64), (0x200015, 1), (0x200016, 8), (0x200019, 0xFF)] ++
  (List.range 32).map (fun i => (0x200040 + i, d.getD i 0))
def stObject (fs : List (Nat × Nat × Nat)) (d : List Byte) : State := stPkt false (launchFields ++ fs) (fun m => { m with mem := objectMem d, quota := [(0, wholeCore)] })

/-- Outside its digest the object's memory does not depend on it. -/
theorem objectMem_get (d : List Byte) (k : Nat) (h : k < 0x200040 ∨ 0x200060 ≤ k) : (objectMem d).get k = (objectMem []).get k := by
  have tail : ∀ (l : List Nat) (e : List Byte), (∀ i ∈ l, i < 32) → FMap.get (l.map (fun i => (0x200040 + i, e.getD i (0 : Byte)))) k = 0#8 := by
    intro l e hl
    induction l with
    | nil => rfl
    | cons i l ih =>
      have hi : i < 32 := hl i (by simp)
      have hk : ¬k = 0x200040 + i := by omega
      simp only [List.map_cons, FMap.get, hk, if_false]
      exact ih (fun j hj => hl j (by simp [hj]))
  have app : ∀ (a b b' : FMap 8), FMap.get b k = FMap.get b' k → FMap.get (a ++ b) k = FMap.get (a ++ b') k := by
    intro a b b' hb
    induction a with
    | nil => exact hb
    | cons x a ih => simp only [List.cons_append, FMap.get, ih]
  unfold objectMem
  apply app
  rw [tail _ _ (by simp), tail _ _ (by simp)]

/-- The places of a range of a partition of channel 0 alone. -/
theorem places_one (p : Part) (hp : p.cht = [0]) (pa n : Nat) (h : pa + n ≤ 2 ^ 31) : p.places pa n = (List.range n).map (pa + ·) := by
  induction n generalizing pa with
  | zero => rfl
  | succ n ih =>
    have hl : pa < 2 ^ 31 * 1 := by omega
    have hq : 2 ^ 31 * 0 + 4096 * (pa / 4096) + pa % 4096 = pa := by omega
    have e : p.place pa = some pa := by
      simp only [Part.place, hp, List.length_singleton, if_pos hl, Nat.mod_one, Nat.div_one, List.getD_cons_zero, hq]
    rw [Part.places, ih (pa + 1) (by omega), e, Option.toList_some, List.singleton_append, List.range_succ_eq_map, List.map_cons, List.map_map]
    congr 1
    apply List.map_congr_left
    intro i _
    simp only [Function.comp_apply]
    omega

def objectBytes (d : List Byte) (n : Nat) : List Byte := (List.range n).map (fun i => (objectMem d).get (0x200000 + i))

/-- The digest of the object does not depend on the digest that it names. -/
theorem objectDigest_object (d : List Byte) (n : Nat) : objectDigest (objectBytes d n) = objectDigest (objectBytes [] n) := by
  have take_ : (objectBytes d n).take 0x40 = (objectBytes [] n).take 0x40 := by
    rw [objectBytes, objectBytes, ← List.map_take, ← List.map_take]
    apply List.map_congr_left
    intro i hi
    have := List.mem_range.mp (List.take_range ▸ hi)
    exact objectMem_get d _ (by omega)
  have drop_ : (objectBytes d n).drop 0x60 = (objectBytes [] n).drop 0x60 := by
    rw [objectBytes, objectBytes, ← List.map_drop, ← List.map_drop]
    apply List.map_congr_left
    intro i hi
    obtain ⟨j, hj, rfl⟩ := List.mem_iff_getElem.mp hi
    rw [List.getElem_drop, List.getElem_range]
    exact objectMem_get d _ (by omega)
  rw [objectDigest, objectDigest, take_, drop_]

theorem object_part (fs : List (Nat × Nat × Nat)) (d : List Byte) : (stObject fs d).m.ctxPart 0 = 0 := by
  have e : (stObject fs d).m.ctx 0 = { (stObject [] []).m.ctx 0 with ring := ((stObject fs d).m.ctx 0).ring } := rfl
  have f : ((stObject [] []).m.ctx 0).part = 0 := by decide +kernel
  rw [Mach.ctxPart, e]
  exact f

theorem object_table (fs : List (Nat × Nat × Nat)) (d : List Byte) (pa : Nat) (h : pa + 8 ≤ 0x200040) :
    (stObject fs d).m.readPA 0 pa 8 = (List.range 8).map (fun i => (objectMem []).get (pa + i)) := by
  have hp : ((stObject fs d).m.part 0).cht = [0] := rfl
  rw [Mach.readPA, places_one _ hp pa 8 (by omega), Mach.bytes, List.map_map]
  apply List.map_congr_left
  intro i hi
  have := List.mem_range.mp hi
  exact objectMem_get d _ (by show pa + i < _ ∨ _; omega)

/-- Where no stack is off every place is within reach. -/
theorem offIndex_on {m : Mach} (h : m.dies.all (fun d => !d.2.off) = true) (ks : List Nat) : m.offIndex ks = none := by
  rw [Mach.offIndex, if_pos h]

theorem translates_of_walk {m : Mach} {ctx va : Nat} {e : TlbEntry} (h : m.walk ctx va = .ok e)
    (hd : m.dies.all (fun d => !d.2.off) = true) (hp : e.pa + (va - e.va) < 2 ^ 31 * (m.part (m.ctxPart e.ctx)).cht.length) :
    m.translateEngine ctx va .read = .ok (e.pa + (va - e.va)) := by
  simp only [Mach.translateEngine, h, Mach.permit, offIndex_on hd, decide_eq_false (Nat.not_le.mpr hp), Option.isSome_none, Bool.or_self,
    Bool.false_eq_true, if_false]

theorem object_root (fs : List (Nat × Nat × Nat)) (d : List Byte) : ((stObject fs d).m.ctx 0).root = 0x100000 := by
  rfl

theorem object_good (fs : List (Nat × Nat × Nat)) (d : List Byte) (ks : List Nat) : (stObject fs d).m.anyBad ks = false := by
  have : (stObject fs d).m.bad = [] := rfl
  simp [Mach.anyBad, this]

theorem object_on (fs : List (Nat × Nat × Nat)) (d : List Byte) (ks : List Nat) : (stObject fs d).m.offIndex ks = none := offIndex_on rfl ks

theorem object_one (fs : List (Nat × Nat × Nat)) (d : List Byte) : ((stObject fs d).m.part 0).cht = [0] := rfl

theorem object_t0 : leNat ((List.range 8).map (fun i => (objectMem []).get (0x100000 + i))) = 0x101001 := by decide +kernel
theorem object_t1 : leNat ((List.range 8).map (fun i => (objectMem []).get (0x101000 + i))) = 0x102001 := by decide +kernel
theorem object_t2 : leNat ((List.range 8).map (fun i => (objectMem []).get (0x102000 + i))) = 7 := by decide +kernel

theorem object_walk (fs : List (Nat × Nat × Nat)) (d : List Byte) : (stObject fs d).m.walk 0 0x200000 =
    .ok { ctx := 0, va := 0, size := 2 ^ 30, pa := 0, w := true, x := false } := by
  rw [Mach.walk, object_part, object_root]
  simp [Mach.walkFrom, walkLevels, object_one, object_on, object_good, object_table fs d 0x100000 (by omega), object_t0, object_table fs d 0x101000 (by omega),
    object_t1, object_table fs d 0x102000 (by omega), object_t2, Nat.testBit, Nat.shiftRight_eq_div_pow]

theorem object_translates (fs : List (Nat × Nat × Nat)) (d : List Byte) : (stObject fs d).m.translateEngine 0 0x200000 .read = .ok 0x200000 :=
  translates_of_walk (object_walk fs d) rfl (by rw [show (stObject fs d).m.ctxPart 0 = 0 from object_part fs d, object_one fs d]; decide)

theorem object_keys (fs : List (Nat × Nat × Nat)) (d : List Byte) (n : Nat) (h : n ≤ 2 ^ 16) (h0 : n ≠ 0) :
    (stObject fs d).m.engineKeys 0 .read 0x200000 n = .ok ((List.range n).map (0x200000 + ·)) := by
  have hp : ((stObject fs d).m.part ((stObject fs d).m.ctxPart 0)).cht = [0] := by rw [object_part]; rfl
  have hg : granuleChunks (n / 2 ^ 16 + 2) 0x200000 n = [(0x200000, n)] := by
    have : min n (2 ^ 16 - 0x200000 % 2 ^ 16) = n := by omega
    rw [granuleChunks, if_neg h0]
    simp only [this, Nat.sub_self]
    cases n / 2 ^ 16 <;> simp [granuleChunks]
  rw [Mach.engineKeys, hg]
  simp only [Mach.chunkKeys, object_translates, object_on, Mach.guardBound, places_one _ hp 0x200000 n (by omega), List.append_nil]

/-- The header that the packet's checks see. -/
def object0 (d : List Byte) : CodeHeader :=
  { magic := 0x4F42434F, ver := 1, csz := 0, dsz := 0, entry := 0, width := 64, warps := 1, win := 8, uni := 0, prod := 0xFF, acc := 0, bst := 0,
    scr := 0, dig := (List.range 32).map (fun i => d.getD i 0) }

theorem object_field (d : List Byte) (off n : Nat) (h : off + n ≤ 0x40) :
    fieldAt (objectBytes d 256) off n = leNat ((List.range n).map (fun i => (objectMem []).get (0x200000 + (off + i)))) := by
  rw [fieldAt]
  congr 1
  apply List.ext_getElem
  · simp [objectBytes]
    omega
  · intro i h1 h2
    simp only [List.length_map, List.length_range] at h2
    simp only [objectBytes, List.getElem_take, List.getElem_drop, List.getElem_map, List.getElem_range]
    exact objectMem_get d _ (by omega)

theorem object_digest (d : List Byte) : ((objectBytes d 256).drop 0x40).take 32 = (List.range 32).map (fun i => d.getD i 0) := by
  apply List.ext_getElem
  · simp [objectBytes]
  · intro i h1 h2
    simp only [List.length_map, List.length_range] at h2
    simp only [objectBytes, List.getElem_take, List.getElem_drop, List.getElem_map, List.getElem_range]
    interval_cases i <;> rfl

theorem object_header (d : List Byte) : codeHeader (objectBytes d 256) = object0 d := by
  have f (off n x : Nat) (h : off + n ≤ 0x40) (e : leNat ((List.range n).map (fun i => (objectMem []).get (0x200000 + (off + i)))) = x) :
      fieldAt (objectBytes d 256) off n = x := (object_field d off n h).trans e
  unfold codeHeader object0
  simp only [object_digest, f 0 4 0x4F42434F (by omega) (by decide +kernel), f 4 2 1 (by omega) (by decide +kernel),
    f 8 4 0 (by omega) (by decide +kernel), f 0xC 4 0 (by omega) (by decide +kernel), f 0x10 4 0 (by omega) (by decide +kernel),
    f 0x14 1 64 (by omega) (by decide +kernel), f 0x15 1 1 (by omega) (by decide +kernel), f 0x16 2 8 (by omega) (by decide +kernel),
    f 0x18 1 0 (by omega) (by decide +kernel), f 0x19 1 0xFF (by omega) (by decide +kernel), f 0x1A 2 0 (by omega) (by decide +kernel),
    f 0x1C 2 0 (by omega) (by decide +kernel), f 0x20 4 0 (by omega) (by decide +kernel)]

def launchIn (fs : List (Nat × Nat × Nat)) : Launch := launchOfPacket 0 1 (pkt (launchFields ++ fs))
/-- The packet reads the object alone, at 2 MiB. -/
def readsObject (fs : List (Nat × Nat × Nat)) : Bool := (launchIn fs).code == 0x200000 && (launchIn fs).ctx == 0 &&
  fieldAt (pkt (launchFields ++ fs)) 0x38 8 == 0 && fieldAt (pkt (launchFields ++ fs)) 0x30 8 == 0 && fieldAt (pkt (launchFields ++ fs)) 0x2C 4 == 0

theorem object_reads (fs : List (Nat × Nat × Nat)) (d : List Byte) (n : Nat) (hn : n = 65536) (hf : readsObject fs = true) :
    (stObject fs d).m.launchReads (launchIn fs) (pkt (launchFields ++ fs)) =
    .ok ({ hdr := object0 d, obj := objectBytes d n, param := [], desc := [] }, (List.range n).map (0x200000 + ·)) := by
  have hb (n : Nat) : (stObject fs d).m.bytes ((List.range n).map (0x200000 + ·)) = objectBytes d n := by
    simp only [Mach.bytes, List.map_map]
    rfl
  simp only [readsObject, Bool.and_eq_true, beq_iff_eq] at hf
  obtain ⟨⟨⟨⟨c1, c2⟩, c3⟩, c4⟩, c5⟩ := hf
  have hl : (object0 d).length = n := by rw [hn]; simp [CodeHeader.length, object0, ceilDiv]
  have n0 : n ≠ 0 := by omega
  have k256 := object_keys fs d 256 (by omega) (by omega)
  have kn := object_keys fs d n (by omega) n0
  have b0 : (stObject fs d).m.bytes [] = [] := rfl
  unfold Mach.launchReads
  simp only [c1, c2, c3, c4, c5, k256, hb, object_header, hl, kn, if_neg n0, if_true,
    if_false, show (256 : Nat) ≠ 0 from by omega, b0, List.append_nil]

theorem leBytes_length (x n : Nat) : (leBytes x n).length = n := by
  induction n generalizing x with
  | zero => rfl
  | succ n ih => simp [leBytes, ih]

theorem digest_length (bs : List Byte) : (Shake.digest bs).length = 32 := by
  simp [Shake.digest, List.range_succ, leBytes_length]

/-- A packet whose object names its own digest, refused for a reason of R311 behind reason 3, or launched. -/
def reasonIs (fs : List (Nat × Nat × Nat)) (n : Nat) : Bool :=
  let la := launchIn fs
  let m := (stObject fs []).m
  let b := pkt (launchFields ++ fs)
  readsObject fs && la.part == 0 && la.pcls == 0 && !(2 ≤ fieldAt b 1 1 || 3 ≤ la.mqm || !zeroIn b 0xF 0x10 || !zeroIn b 0x98 0x100) &&
  (if la.width == 64 && la.warps == 1 && la.prod == 0xFF && la.win == 8 then
    (if !modeOk la.mode || !la.nf.all Num.nfOk then 5 else if !la.rangesOk (fieldAt b 0x2C 4) then 6 else if !m.fitsSome la then 7
      else if la.mqm == 0 then 0 else if la.mqlog == 0 then 8 else 99)
   else if la.width == 64 then 99 else 4) == n && n != 99

theorem object_reason (fs : List (Nat × Nat × Nat)) (n : Nat) (hr : reasonIs fs n = true) (d obj : List Byte) (ks : List Nat)
    (h : (objectDigest obj != (object0 d).dig) = false) :
    (stObject fs d).m.launchReason (launchIn fs) (pkt (launchFields ++ fs)) (some ({ hdr := object0 d, obj := obj, param := [], desc := [] }, ks)) = n := by
  simp only [reasonIs, Bool.and_eq_true, beq_iff_eq, Bool.not_eq_true', bne_iff_ne] at hr
  obtain ⟨⟨⟨⟨⟨hf, hp⟩, h3⟩, h1⟩, hn⟩, h99⟩ := hr
  have hc : (launchIn fs).code = 0x200000 ∧ (launchIn fs).ctx = 0 := by
    simp only [readsObject, Bool.and_eq_true, beq_iff_eq] at hf
    exact ⟨hf.1.1.1.1, hf.1.1.1.2⟩
  have h2 : ((launchIn fs).part != (stObject fs d).m.ctxPart (launchIn fs).ctx) = false := by
    rw [hc.2, object_part, hp]
    rfl
  have h4 : ((launchIn fs).code % 2 ^ 16 != 0) = false := by rw [hc.1]; decide
  have h8 : (stObject fs d).m.fitsSome (launchIn fs) = (stObject fs []).m.fitsSome (launchIn fs) := rfl
  have hm : (object0 d).magic = 0x4F42434F ∧ (object0 d).ver = 1 := ⟨rfl, rfl⟩
  unfold Mach.launchReason
  simp only [h1, h2, h3, h4, h, hm.1, hm.2, Nat.not_lt_zero, decide_false, Bool.or_false, Bool.false_eq_true, if_false, bne_self_eq_false, h8]
  have z : (object0 d).width = 64 ∧ (object0 d).warps = 1 ∧ (object0 d).prod = 0xFF ∧ (object0 d).win = 8 := ⟨rfl, rfl, rfl, rfl⟩
  have hz : (stObject fs d).m.codeOk (launchIn fs) (object0 d) =
      ((launchIn fs).width == 64 && (launchIn fs).warps == 1 && (launchIn fs).prod == 0xFF && decide (8 ≤ (launchIn fs).win)) := by
    simp [Mach.codeOk, object0, ceilDiv, Bool.beq_eq_decide_eq]
  rw [hz]
  have hq0 : (launchIn fs).mqm = 0 → (stObject fs d).m.maquetteOk (launchIn fs) = true := fun h0 => by
    rw [Mach.maquetteOk, h0]
    rfl
  have hq1 : ¬(launchIn fs).mqm = 0 → (launchIn fs).mqlog = 0 → (stObject fs d).m.maquetteOk (launchIn fs) = false := fun h0 h5 => by
    rw [Mach.maquetteOk, h5, decide_eq_false h0]
    rfl
  split at hn
  · rename_i hw
    obtain ⟨⟨⟨w1, w2⟩, w3⟩, w4⟩ := hw
    simp only [w1, w2, w3, w4, beq_self_eq_true, le_refl, decide_true, Bool.and_self, Bool.not_true, Bool.false_eq_true, if_false]
    revert hn
    generalize modeOk (launchIn fs).mode = A
    generalize (launchIn fs).nf.all Num.nfOk = B
    generalize (launchIn fs).rangesOk (fieldAt (pkt (launchFields ++ fs)) 0x2C 4) = C
    generalize (stObject fs []).m.fitsSome (launchIn fs) = D
    cases A <;> cases B <;> cases C <;> cases D <;> simp only [Bool.not_true, Bool.not_false, Bool.or_false, Bool.or_self,
      Bool.or_true, Bool.false_eq_true, reduceCtorEq, if_true, if_false, imp_self]
    intro hn
    split at hn
    · rename_i h0
      rw [hq0 (by simpa using h0)]
      exact hn
    · rename_i h0
      split at hn
      · rename_i h5
        rw [hq1 (by simpa using h0) (by simpa using h5)]
        exact hn
      · exact absurd hn.symm h99
  · split at hn
    · exact absurd hn.symm h99
    · rename_i hw hv
      have : ((launchIn fs).width == 64) = false := by simpa using hv
      simp only [this, Bool.false_and, Bool.not_false, if_true]
      exact hn
/-- The object that names its own digest: no reason of R311 applies to its launch; and each of the reasons 4 to 8. -/
def launchCases : List (List (Nat × Nat × Nat) × Nat) :=
  [([], 0), ([(4, 1, 32)], 4), ([(0x28, 4, 0x80)], 5), ([(0x14, 4, 0)], 6), ([(0x10, 4, 0x10000000)], 7), ([(2, 1, 1)], 8)]
theorem launch_cases : launchCases.all (fun e => reasonIs e.1 e.2) = true := by decide +kernel
theorem ev_launchPacket_reasons (fs : List (Nat × Nat × Nat)) (k : Nat) (h : (fs, k) ∈ launchCases) :
    ∃ (s : State) (p : Packet) (x : LaunchReads) (ks : List Nat), s.m.packetOf 0 1 = some p ∧ p.begun = false ∧ s.m.bad = [] ∧
      s.m.launchReads (launchOfPacket 0 p.num p.bytes) p.bytes = .ok (x, ks) ∧ objectDigest x.obj = x.hdr.dig ∧
      s.m.launchReason (launchOfPacket 0 p.num p.bytes) p.bytes (some (x, ks)) = k := by
  have hr : reasonIs fs k = true := by
    have hr := List.all_eq_true.mp launch_cases (fs, k) h
    dsimp only at hr
    exact hr
  have hf : readsObject fs = true := by
    simp only [reasonIs, Bool.and_eq_true] at hr
    exact hr.1.1.1.1.1
  obtain ⟨n, hn⟩ : ∃ n, n = 65536 := ⟨_, rfl⟩
  obtain ⟨d, hd⟩ : ∃ d, d = objectDigest (objectBytes [] n) := ⟨_, rfl⟩
  have hl : d.length = 32 := by rw [hd, objectDigest, digest_length]
  have hm : (List.range 32).map (fun i => d.getD i 0) = d := by
    apply List.ext_getElem
    · simp [hl]
    · intro i h1 h2
      simp [List.getD_eq_getElem?_getD, List.getElem?_eq_getElem h2]
  have hg : objectDigest (objectBytes d n) = (object0 d).dig := by rw [objectDigest_object d n, ← hd, object0, hm]
  have hb : (objectDigest (objectBytes d n) != (object0 d).dig) = false := by rw [hg]; exact bne_self_eq_false _
  have hp : (stObject fs d).m.packetOf 0 1 = some (packet0 false (launchFields ++ fs)) := by
    have hc := h
    simp only [launchCases, List.mem_cons, Prod.mk.injEq, List.not_mem_nil, or_false] at hc
    rcases hc with ⟨rfl, rfl⟩ | ⟨rfl, rfl⟩ | ⟨rfl, rfl⟩ | ⟨rfl, rfl⟩ | ⟨rfl, rfl⟩ | ⟨rfl, rfl⟩ <;> rfl
  exact ⟨stObject fs d, packet0 false (launchFields ++ fs), _, _, hp, rfl, rfl, object_reads fs d n hn hf, hg, object_reason fs k hr d _ _ hb⟩
theorem launch_begins : (launchIn []).mqm ≠ 1 := by decide +kernel
/-- One of another partition, one whose object is not mapped, and one whose object has no magic number: reasons 2, 9 and 3. -/
def refusedFor (fs : List (Nat × Nat × Nat)) : Nat :=
  let s := stPkt false ((0, 1, 1) :: fs) id
  let la := launchOfPacket 0 1 (pkt ((0, 1, 1) :: fs))
  s.m.launchReason la (pkt ((0, 1, 1) :: fs)) (s.m.launchReads la (pkt ((0, 1, 1) :: fs))).toOption
theorem launch_refused : refusedFor [(3, 1, 1)] = 2 ∧ refusedFor [(0x20, 8, 0x80000000)] = 9 ∧ refusedFor [(0x20, 8, 0x200000)] = 3 := by decide +kernel

/-! #### The run list, pre-emption, saving and killing -/

/-- The run list's entry of context 0: class 1, a slice of 3 µs, a grace time of 2 µs. -/
def entry0 : DWord := 0x0000000200038100#64
def entry1 : DWord := 0x0000000200038301#64
def stRun (f : Mach → Mach) : State := stHost (fun m => f { m with runlist := [entry0, entry1] })
theorem ev_softRequest : ((stRun id).m.ctx 0).state = 2 ∧ ((stRun id).m.ctx 0).preempt = [] ∧ (stRun id).m.diesOf 0 = [0] ∧
    (stRun id).m.entryOf 0 = some (0, entry0) ∧
    (((stRun id).m.softRequest 1000 0).ctx 0).preempt = [{ die := 0, step := 1, grace := 2200, killt := 0 }] := by decide +kernel
theorem ev_sliceExpiry : ((stRun id).m.ctx 0).v = true ∧ ((stRun id).m.ctx 0).sliceEnd ≤ (stRun id).now ∧
    ends (exec (.sliceExpiry 0) (stRun id)) (fun t => (t.m.ctx 0).preempt.length == 1) = true := by decide +kernel
/-- Context 1 of the same partition has a packet to start, and a higher class. -/
def stHigher : State := stRun (fun m => { m with ctxs := m.ctxs.put 1 { (Ctx.init.setWord 0 0x00020003#32) with ring := { Ring.init with wc := 1 } } })
theorem ev_higherClassReady : (stHigher.m.ctx 1).v = true ∧ stHigher.m.ctxReady (1, stHigher.m.ctx 1) = true ∧ stHigher.m.runningCtx 0 = some 0 ∧
    (∃ e ∈ stHigher.m.readyEntries 0, e.2.1 = 1 ∧ stHigher.m.classOf 0 < e.2.2) ∧
    ends (exec (.higherClassReady 1) stHigher) (fun t => (t.m.ctx 0).preempt.length == 1) = true := by decide +kernel
def stLadder (step : Nat) : State := stRun (onCtx (fun c => { c with preempt := [{ die := 0, step := step, grace := 500, killt := 500 }] }))
theorem ev_graceExpiry : ((stLadder 1).m.ctx 0).preempt.find? (fun q => q.die = 0) = some { die := 0, step := 1, grace := 500, killt := 500 } ∧
    (∃ e ∈ (stLadder 1).m.blocks, e.2.ctx = 0 ∧ e.2.core / 64 = 0 ∧ e.2.past = false) ∧
    ends (exec (.graceExpiry 0 0) (stLadder 1)) (fun t => warpIn t.m (fun y => y.stop.isSome)) = true := by decide +kernel
theorem ev_killtExpiry : (stLadder 2).m.dieDrained (stLadder 2).now 0 0 = false ∧
    ends (exec (.killtExpiry 0 0) (stLadder 2)) (fun t => (t.m.ctx 0).state == 5 && (t.m.ctx 0).killCause == 0x82) = true := by decide +kernel
/-- Context 0 is switched out and holds the only half, which context 1 waits for. -/
def stOut : State := stHost (fun m => onCtx (fun c => { (c.setState 3) with half := some 0 })
  { m with ctxs := m.ctxs.put 1 (Ctx.init.setWord 0 0x00020005#32) })
theorem ev_contextSave : (stOut.m.ctx 0).state = 3 ∧ (stOut.m.ctx 0).saving = none ∧ stOut.m.freeHalf 0 = none ∧ stOut.m.oldestImage 0 = some 0 ∧
    stOut.m.wantsHalf 0 = true ∧
    ends (exec (.contextSave 0) stOut) (fun t => (t.m.ctx 0).state == 3 && (t.m.ctx 0).saving == some (stOut.m.nextId, 0)) = true := by decide +kernel
def stSaved : State := stRun (onCtx (fun c => { (c.setState 4) with ring := { Ring.init with wc := 1 } }))
theorem ev_contextRestore : (stSaved.m.ctx 0).state = 4 ∧ stSaved.m.runningCtx 0 = none ∧ stSaved.m.nextCtx 0 = some 0 ∧ stSaved.m.freeHalf 0 = some 0 ∧
    ((stSaved.m.part 0).rmaKeys (stSaved.m.ctx 0).saveAt 0x40).isSome = true ∧ fieldAt (stSaved.m.bytes ((List.range 64))) 0 4 ≠ 0x4F424358 ∧
    ends (exec (.contextRestore 0) stSaved) (fun t => (t.m.ctx 0).state == 5 && (t.m.ctx 0).killCause == 0x83) = true := by decide +kernel
/-- The image's body, which the save of one block and its launches has written, and the header before it. -/
def imgBody : List Byte := imageBody 0 2
def imgHeader : List Byte :=
  [0x58#8, 0x43#8, 0x42#8, 0x4F#8, 1#8, Config.prev, 0#8, 0#8] ++ (leBytes imgBody.length 8 ++ (Shake.digest imgBody ++ List.replicate 16 0))
def img0 : Image := { ctx := 0, blocks := [(0, placedBlock 0 0 7)], launches := [], whole := true }
/-- Context 0's save area lies at 3 MiB, and holds the image. -/
def stImage : State := changed stSaved (fun m => onCtx (fun c => c.setWord 10 0x300000)
  { m with mem := (m.mem.setList 0x300000 imgHeader).setList 0x300040 imgBody, images := [(0, img0)], blocks := [] })

theorem setList_get (f : FMap 8) (k : Nat) (bs : List Byte) :
    (∀ a < k, (f.setList k bs).get a = f.get a) ∧ ∀ i < bs.length, (f.setList k bs).get (k + i) = bs.getD i 0 := by
  induction bs generalizing f k with
  | nil => exact ⟨fun _ _ => rfl, fun i h => absurd h (Nat.not_lt_zero i)⟩
  | cons b bs ih =>
    obtain ⟨lo, hi⟩ := ih (f.set k b) (k + 1)
    refine ⟨fun a h => by rw [FMap.setList, lo a (by omega), FMap.get_set_ne b (by omega)], fun i h => ?_⟩
    rw [FMap.setList]
    cases i with
    | zero => rw [lo _ (by omega), FMap.get_set, if_pos (Nat.add_zero k)]; rfl
    | succ i => rw [show k + (i + 1) = k + 1 + i by omega, hi i (by simpa using h)]; rfl

theorem leNat_leBytes (x n : Nat) (h : x < 256 ^ n) : leNat (leBytes x n) = x := by
  induction n generalizing x with
  | zero => simp at h; simp [leBytes, leNat, h]
  | succ n ih =>
    rw [leBytes, leNat, ih (x / 256) (by rw [Nat.pow_succ] at h; omega), BitVec.toNat_ofNat]
    omega

theorem imgBody_length : imgBody.length < 2 ^ 30 := by
  have a := (Config.imageSpan 0 0).isLt
  have b := (Config.imageSpan 0 1).isLt
  simp [imgBody, imageBody, Config.imagePart, List.range_succ]
  omega

theorem imgHeader_length : imgHeader.length = 64 := by simp [imgHeader, leBytes_length, digest_length]

theorem image_places (a n : Nat) (h : a + n ≤ 2 ^ 31) : (stImage.m.part 0).rmaKeys a n = some ((List.range n).map (a + ·)) := by
  have hp : (stImage.m.part 0).cht = [0] := rfl
  rw [Part.rmaKeys, hp, if_pos (by simpa using h), places_one _ hp a n h]

theorem image_bytes (a : Nat) (bs : List Byte) (h : ∀ i < bs.length, stImage.m.mem.get (a + i) = bs.getD i 0) :
    stImage.m.bytes ((List.range bs.length).map (a + ·)) = bs := by
  apply List.ext_getElem
  · simp [Mach.bytes]
  · intro i h1 h2
    simp only [Mach.bytes, List.getElem_map, List.getElem_range, h i h2, List.getD_eq_getElem?_getD, List.getElem?_eq_getElem h2, Option.getD_some]

theorem image_head : stImage.m.bytes ((List.range 0x40).map (0x300000 + ·)) = imgHeader := by
  rw [← imgHeader_length]
  refine image_bytes _ _ (fun i h => ?_)
  have h' : i < 64 := imgHeader_length ▸ h
  exact ((setList_get _ 0x300040 imgBody).1 _ (by omega)).trans ((setList_get _ 0x300000 imgHeader).2 i h)

theorem image_body : stImage.m.bytes ((List.range imgBody.length).map (0x300040 + ·)) = imgBody :=
  image_bytes _ _ (setList_get _ 0x300040 imgBody).2

/-- A good image: every check of R323 passes, and a whole image stands behind the body. -/
theorem ev_contextRestore_good : (stImage.m.ctx 0).v = true ∧ (stImage.m.ctx 0).state = 4 ∧ stImage.m.runningCtx 0 = none ∧ stImage.m.nextCtx 0 = some 0 ∧
    stImage.m.freeHalf 0 = some 0 ∧ stImage.m.bad = [] ∧ (stImage.m.part 0).clearing = false ∧ (stImage.m.part 0).zeroing = false ∧
    ∃ hk bk, (stImage.m.part 0).rmaKeys (stImage.m.ctx 0).saveAt 0x40 = some hk ∧
      fieldAt (stImage.m.bytes hk) 0 4 = 0x4F424358 ∧ fieldAt (stImage.m.bytes hk) 4 1 = 1 ∧
      fieldAt (stImage.m.bytes hk) 5 1 = stImage.caps.prev.toNat ∧ fieldAt (stImage.m.bytes hk) 6 1 = 0 ∧
      (stImage.m.part 0).rmaKeys ((stImage.m.ctx 0).saveAt + 0x40) (fieldAt (stImage.m.bytes hk) 8 8) = some bk ∧
      ((stImage.m.bytes hk).drop 0x10).take 32 = Shake.digest (stImage.m.bytes bk) ∧
      stImage.m.images.find? (fun e => e.2.ctx = 0 && e.2.whole && imageBody e.1 e.2.steps = stImage.m.bytes bk) = some (0, img0) := by
  have at_ : (stImage.m.ctx 0).saveAt = 0x300000 := by rfl
  have hl := imgBody_length
  have size : fieldAt imgHeader 8 8 = imgBody.length := by
    have : ((imgHeader.drop 8).take 8) = leBytes imgBody.length 8 := by
      simp [imgHeader, List.take_left' (leBytes_length imgBody.length 8)]
    rw [fieldAt, this, leNat_leBytes _ _ (by omega)]
  have dig : (imgHeader.drop 0x10).take 32 = Shake.digest imgBody := by
    have : imgHeader.drop 0x10 = Shake.digest imgBody ++ List.replicate 16 0 := by
      have e : (0x10 : Nat) = 8 + (leBytes imgBody.length 8).length := by rw [leBytes_length]
      simp only [imgHeader, List.cons_append, List.nil_append, List.drop_succ_cons]
      exact List.drop_left' (leBytes_length _ _)
    rw [this, List.take_left' (digest_length _)]
  refine ⟨by rfl, by rfl, by decide +kernel, by decide +kernel, by decide +kernel, rfl, rfl, rfl, (List.range 0x40).map (0x300000 + ·),
    (List.range imgBody.length).map (0x300040 + ·), ?_, ?_⟩
  · rw [at_, image_places _ _ (by omega)]
  · rw [image_head, at_, size, dig, image_places _ _ (by omega), image_body]
    refine ⟨by simp [imgHeader, fieldAt, leNat], by simp [imgHeader, fieldAt, leNat], by simp [imgHeader, fieldAt, leNat]; rfl,
      by simp [imgHeader, fieldAt, leNat], rfl, rfl, ?_⟩
    have : imageBody 0 img0.steps = imgBody := rfl
    simp [show stImage.m.images = [(0, img0)] from rfl, this, show img0.ctx = 0 ∧ img0.whole = true from ⟨rfl, rfl⟩]
def stKilled (es : List Nat) : State := stRun (onCtx (fun c => { (c.setState 5) with engines := es, killCause := 0x87, killStatus := 4 }))
theorem ev_engineDrained : ((stKilled [1, 2]).m.ctx 0).state = 5 ∧ (stKilled [1, 2]).m.rmaBusy 0 = false ∧
    ends (exec (.engineDrained 0 1) (stKilled [1, 2])) (fun t => (t.m.ctx 0).engines == [2]) = true := by decide +kernel
theorem ev_killComplete : ((stKilled []).m.ctx 0).engines = [] ∧ (stKilled []).m.packetOf 256 0x45 = none ∧
    ends (exec (.killComplete 0) (stKilled [])) (fun t => t.m.blocks == [] && t.m.launches == [] && t.m.utlb == [(0, [])] && lastRec t.m 256 == [4, 0x87, 0]) = true := by
  decide +kernel

/-! #### Errors, power and temperature -/

theorem ev_softError : ends (exec (.softErrorCorrected 3) (stRun id)) (fun t => (t.m.die 3).cecnt == 1) = true := by decide +kernel
theorem ev_uncorrectable : ((stRun id).m.ctx 0).v = true ∧ ((stRun id).m.ctx 7).v = false ∧
    ends (exec (.uncorrectableError (.store 0) 0) (stRun id)) (fun t => (t.m.ctx 0).state == 5 && (t.m.die 0).uecnt == 1) = true ∧
    ends (exec (.uncorrectableError (.dram 9) 7) (stRun id)) (fun t => t.m.bad == [9] && (t.m.ctx 0).state == 2) = true := by decide +kernel
theorem ev_l1TagError : ends (exec (.l1TagError 2 5 true) (stRun id)) (fun t => (t.m.cluster 0).terr == 1) = true ∧
    ends (exec (.l1TagError 2 5 false) (stRun id)) (fun t => (t.m.cluster 0).derr == 1) = true := by decide +kernel
def stLine : State := stRun (fun m => { m with dirty := [(7, { ctx := 0, old := List.replicate 128 3 })], channels := [(0, { own := 0, v := true, ret := false })] })
theorem ev_l2Error : stLine.m.stackOn stLine.caps (7 * 128 / 2 ^ 31 / 32) = true ∧ (stLine.m.channel (7 * 128 / 2 ^ 31)).v = true ∧
    ends (exec (.l2TagOrEvictError 7 true) stLine) (fun t => t.m.mem.get 900 == 3 && (t.m.ctx 0).state == 5) = true := by decide +kernel
/-- Two dirty lines, one of which an L2 error of its data loses. -/
def stLines : State := changed stLine (fun m => { m with dirty := [(7, { ctx := 0, old := List.replicate 128 3 }), (8, { ctx := 0, old := List.replicate 128 4 })] })
theorem ev_l2Error_one : ends (exec (.l2TagOrEvictError 7 false) stLines) (fun t => t.m.mem.get 900 == 3 && t.m.mem.get 1024 == 0 &&
    (t.m.dirty.find 8).isSome && (t.m.ctx 0).killCause == 0x68) = true := by decide +kernel
theorem ev_scrub : ends (exec (.scrub 7) stLine) (fun t => t.m == stLine.m) = true ∧
    ends (exec (.scrub 7) (changed stLine (fun m => { m with bad := [30] }))) (fun t => (t.m.die 0).uecnt == 1) = true := by
  constructor <;> decide +kernel
def stRails (n : Nat) : State := { State.reset with m := { Mach.reset with rails := n, railAt := some 0 }, now := 6000000 }
theorem ev_powerOn : ends (exec .powerOn (stRails 2)) (fun t => t.m.rails == 3) = true ∧
    ends (exec (.railTimeout 3) (stRails 2)) (fun t => t.m.recovery && t.m.railFail == some 3) = true ∧
    ends (exec .powerOff (stRails 2)) (fun t => t.m.rails == 1) = true ∧
    ends (exec .powerOff (stRun id)) (fun t => t.m.rails == 4 && t.m.ctxs.isEmpty && t.m.blocks.isEmpty) = true := by decide +kernel
theorem ev_reset : (stRun id).m.rails = 5 ∧ ends (exec .reset (stRun id)) (fun t => t.m.boot == 0 && t.m.ctxs.isEmpty) = true := by decide +kernel
theorem ev_bootStage (h : Config.falconVerifies (Shake.digest (Config.stageImage [] 1)) (Config.stageSignature [] 1) = true) :
    State.reset.m.rails = 5 ∧ State.reset.m.recovery = false ∧ State.reset.m.boot = 0 ∧ State.reset.m.banks.getD State.reset.m.active [] = [] ∧
    State.reset.m.stageVerifies 1 = true :=
  ⟨rfl, rfl, rfl, rfl, by simp only [Mach.stageVerifies, Mach.stageDigest, show State.reset.m.bank = [] from rfl, h]; rfl⟩
def hotDie : Die := { Die.init 0 with ilim := 1000, hot := true, hotSince := some 0, thr := true }
def stHot : State := { stRun (fun m => { m with dies := [(0, hotDie)] }) with now := 700000 }
theorem ev_currentSample : stHot.m.stackOn stHot.caps 0 = true ∧ (stHot.m.die 0).sample = 0 ∧
    ends (exec (.currentSample 0 9999 106) stHot) (fun t => (t.m.die 0).thr && (t.m.die 0).tj == 106 && (t.m.die 0).hot) = true ∧
    ends (exec (.currentSample 0 9 115) stHot) (fun t => (t.m.die 0).off && (t.m.die 0).tj == 115 && lastRec t.m 256 == [0x92, 0, 0]) = true ∧
    ends (exec (.currentSample 0 999 90) stHot) (fun t => !(t.m.die 0).thr && !(t.m.die 0).hot) = true := by
  refine ⟨by decide +kernel, by decide +kernel, by decide +kernel, by decide +kernel, by decide +kernel⟩
theorem ev_junction : ((stRun id).m.die 0).hot = false ∧
    ends (exec (.junctionAt105 0) (stRun id)) (fun t => (t.m.die 0).hot && !(t.m.die 0).thr) = true ∧
    ends (exec (.thermalSustained 0) stHot) (fun t => (t.m.die 0).seven) = true ∧
    ends (exec (.junctionBelow100 0 99) stHot) (fun t => !(t.m.die 0).hot && (t.m.die 0).thr) = true := by decide +kernel
theorem ev_thermalShutdown : ends (exec (.thermalShutdown 0) stLine) (fun t => (t.m.die 0).off && (t.m.die 0).hot && (t.m.ctx 0).state == 5 && lastRec t.m 256 == [0x92, 0, 0]) = true ∧
    stLine.m.partOnDie 0 0 = true := by decide +kernel

/-! #### Links and block transfers -/

theorem ev_flitReceive : (stRun id).m.linksUp = true ∧
    ends (exec (.flitReceive 1 0 true) (stRun id)) (fun t => t.m.flits == [(1, { next := 1, again := false, fails := 0, moved := 1000 })]) = true ∧
    ends (exec (.flitReceive 33 0 false) (stRun id)) (fun t => t.m.flits == [(33, { next := 0, again := true, fails := 0, moved := 0 })] &&
      ends (exec (.flitReceive 33 0 false) t) (fun u => u.m.linkEnd 33 == { next := 0, again := true, fails := 1, moved := 0 })) = true ∧
    ends (exec (.flitReceive 1 5 true) (stRun id)) (fun t => t.m.linkEnd 1 == (stRun id).m.linkEnd 1) = true := by decide +kernel
/-- 32 retransmissions on link 4 have failed. -/
def stTired : State := stRun (fun m => { m with flits := [(4, { next := 7, again := true, fails := 32, moved := 1000 })] })
theorem ev_linkTurns : stTired.m.isDown 4 = false ∧ stTired.m.linksUp = true ∧
    ends (exec (.linkDown 4 9) stTired) (fun t => t.m.isDown 4 && lastRec t.m 256 == [0x90, 0, 0] &&
      ends (exec (.linkUp 4 9) t) (fun u => !u.m.isDown 4 && lastRec u.m 256 == [0x91, 0, 0])) = true := by decide +kernel
def stRate (mark : Option Nat) : State := { stRun (fun m => { m with rates := [(0, { num := 1, den := 2, mark := mark, rise := 0 })] }) with now := 9000 }
theorem ev_rates : ends (exec (.congestionMark 0) (stRate (some 8000))) (fun t => t.m == (stRate (some 8000)).m) = true ∧
    ends (exec (.congestionMark 0) (stRate none)) (fun t => (t.m.rate 0).num == 7 && (t.m.rate 0).den == 16 && (t.m.rate 0).mark == some 9000) = true ∧
    ends (exec (.rateRecovery 0) (stRate none)) (fun t => (t.m.rate 0).num == 130 && (t.m.rate 0).den == 256 && (t.m.rate 0).rise == 9000) = true := by decide +kernel
/-- A finished transfer whose ring at 0x30000 has 2 slots at 0x31000. -/
def stFin : State := changed (stBulk { bulk0 with done := true, moved := 4 }) (fun m => { m with mem := m.mem.setList 0x30000 (leBytes 0x31000 8 ++ [1, 1]) })
theorem ev_cpybRecord : ∃ x, stFin.m.bulks.find 4 = some x ∧ x.done = true ∧ (stFin.m.engineKeys 0 .read 0x30000 32).isOk = true ∧
    ((stFin.m.readRing 0 0x30000).toOption.map (·.room)) = some true ∧
    ends (exec (.cpybRecord 4) stFin) (fun t => t.m.bulks == [] && t.m.mem.get 0x31000 == 1 && t.m.mem.get 0x31008 == 4) = true := some_of (by decide +kernel)
def stToHost : State := changed (stBulk { bulk0 with dstT := 0xFFFF, dst := 0, data := some [1, 2, 3, 4] }) (onCtx (fun c => c.setWord 8 0x1000))
theorem ev_cpybFinish_host : ∃ x, stToHost.m.bulks.find 4 = some x ∧ stToHost.m.side x.dstT = .host ∧ x.dst + 4 ≤ (stToHost.m.ctx x.ctx).pair 8 ∧
    ends (exec (.cpybFinish 4 { cause := 0, landed := 0, data := [] }) stToHost) (fun t => (t.m.rma.find 0) == some ((stToHost.m.ctx 0).hostEnd, .bulkWrite 4 0 [1, 2, 3, 4])) = true :=
  some_of (by decide +kernel)

/-! #### Collectives -/

/-- Two members in the register form: rank 0 here with 64 elements, and rank 1. -/
def collWs : List Word := [7, 2, 64, 0, 0, 0, 0, 0]
def collForm : CForm := { g := ⟨false, 7⟩, hint := ⟨false, 0, false, false, false, false⟩, fn := 0, d := .v 9, a := .v 0, b := .v 2, c := .v 4, mod := 0x10000 }
def collRegs : FMap 32 := ((collWs ++ List.replicate 8 0 ++ [0, 5]).foldl (fun (s : FMap 32 × Nat) x => (s.1.set s.2 x, s.2 + 1)) ([], 0)).1
def stColl : State := lay (withOp (op0 (.coll (.coll collForm) (valsOf 1 [0] (fun _ _ => 0x40000000#32)) [] collRegs 1)))
def member1 (tag : Word) : CollMember := { ctx := 0, ftid := 0, inst := 1, rank := 1, fn := 0, reg := true, desc := tag :: collWs.drop 1, membs := [0, 5], src := 0x3F800000#64 :: List.replicate 63 0 }
theorem ev_collInstanceRun : (stColl.m.collOp 0 0 0).isSome = true ∧ membersPresent (collFields (collRegs.getList 0 16)) 0 [member1 7] = true ∧
    agreeWords (member1 7).desc = agreeWords (collRegs.getList 0 16) ∧ ((collRegs.getList 16 2).map (·.toNat)) = [0, 5] ∧
    ends (exec (.collInstanceRun 0 0 0 [member1 7]) stColl) (fun t => warpIn t.m (fun y => match (y.ops.find 0).map (fun (o : Op) => o.payload) with
      | some (Payload.result r) => r.vals.get (resKey 0 0) == 0x40400000#32
      | _ => false)) = true ∧
    ends (exec (.collInstanceRun 0 0 0 [member1 8]) stColl) (fun t => warpIn t.m (fun y => ((y.ops.find 0).bind (·.fault)).map (·.cause) == some 0xA4)) = true := by
  decide +kernel
theorem ev_collAbort : ends (exec (.collAbort 0 0 0) stColl) (fun t => warpIn t.m (fun y => ((y.ops.find 0).bind (·.fault)).map (·.cause) == some 0xA5)) = true := by
  decide +kernel

/-! #### Gossip -/

/-- A region of two chunks of 64 values; its only neighbour is package 5. -/
def region (mode : Nat) : Gossip :=
  { Gossip.ofDesc [7, 2, BitVec.ofNat 32 (0x10000 + mode * 0x1000000), 0, 0x40000, 0, 0x41000, 0, 0x42000, 0, 5, 0, 0, 0, 0, 0] with pins := [(4, 0x40000)], due := 10 }
def stRegion (mode : Nat) : State := stHost (fun m => onCtx (fun c => { c with gossip := [(1, region mode)] })
  { m with mem := (m.mem.set 0x40000 8).set 0x41000 6 })
theorem ev_freeRunTick : ((stRegion 0).m.freeRunNext 1000 0 1) = some (region 0, 0, 0) ∧
    ends (exec (.freeRunTick 0 1) (stRegion 0)) (fun t => t.m.mem.get 0x40000 == 4 && t.m.mem.get 0x41000 == 3 &&
      (t.m.gossipOf 0 1).map (fun g => (g.counter 0, g.counter 2, g.counter 4, g.due, g.chunk)) == some (0 - 4, 4, 1, 5096, 1)) = true := by decide +kernel
def stepForm : CForm := { collForm with mod := 0x10 }
def stStep : State := changed (stRegion 1) (withOp (op0 (.gossip (.gctlStep stepForm) (valsOf 1 [0] (fun _ _ => 0)) (valsOf 1 [0] (fun _ _ => 0)) [])))
theorem ev_gossipSnapshot : stStep.m.steppers 0 1 0 0 = [(0, 0, 0)] ∧ (stepTarget (stStep.m.gossipOf 0 1) 0 0).toOption = some (region 1, 0, 0) ∧
    stStep.m.undecided 0 1 0 = false ∧
    ends (exec (.gossipSnapshot 0 1 0 0) stStep) (fun t => t.m.mem.get 0x40000 == 4 && (t.m.gmsgs.find stStep.m.nextId).isSome) = true ∧
    (stRegion 0).m.steppers 0 1 0 0 = [] ∧
    ends (exec (.gossipSnapshot 0 1 0 0) (stRegion 0)) (fun t => t.m.mem.get 0x40000 == 4) = true := by decide +kernel
def msg0 : GossipMsg := { src := 5, ctx := 0, ftid := 0, rkey := 7, slot := 1, nch := 2, csz := 0, k := 0, seq := 9, c := 1, h := List.replicate 64 3, hw := 4 }
theorem ev_gossipArrive : (stRegion 0).m.accepts msg0 = some (region 0, 0) ∧ (stRegion 0).m.accepts { msg0 with c := 2 } = none ∧
    ends (exec (.gossipMessageArrive msg0) (stRegion 0)) (fun t => t.m.mem.get 0x40208 == 3 && (t.m.gossipOf 0 1).map (fun g => g.counter 1) == some 4) = true ∧
    ends (exec (.gossipMessageArrive msg0) (changed (stRegion 0) (fun m => { m with verdicts := [((5, 0, 1, 9), true)] })))
      (fun t => t.m.mem == (stRegion 0).m.mem) = true ∧
    ends (exec (.gossipMessageArrive { msg0 with c := 2 }) (stRegion 0)) (fun t => t.m.verdicts == [((5, 0, 1, 9), false)]) = true := by decide +kernel
def stHeld : State := changed (stRegion 0) (fun m => { m with gmsgs := [(9, { ctx := 0, rgn := 1, nbr := 0, msg := msg0, sent := 0, link := 3, cut := true, step := none })], links := [(3, true)] })
theorem ev_gossipEnquiry : ends (exec (.gossipEnquiry 9) stHeld) (fun t => (t.m.gmsgs.find 9).map (fun x => (x.sent, x.cut)) == some (1000, false)) = true := by
  decide +kernel
theorem ev_gossipLearned : (stHeld.m.gossipOf 0 1) = some (region 0) ∧
    ends (exec (.gossipDecisionLearned 9 true) stHeld) (fun t => t.m.gmsgs == [] && (t.m.gossipOf 0 1).map (fun g => (g.counter 2, g.counter 4)) == some (0 - 192, 0 - 1)) = true ∧
    ends (exec (.gossipDecisionLearned 9 false) stHeld) (fun t => t.m.mem.get 0x40200 == 3 && (t.m.gossipOf 0 1).map (fun g => (g.counter 0, g.counter 6)) == some (192, 1)) = true := by
  decide +kernel

/-! #### Operations at their turn -/

/-- Whether the warp's operation 0 is `o`, in flight. -/
def flies (s : State) (o : Op) : Bool := match s.m.warp 0 0 with
  | some (blk, x) => s.m.alive blk && x.ops.find 0 == some o && o.fault == none && o.flagDone == false
  | none => false
/-- Whether nothing of its warp stands before it. -/
def first (s : State) (o : Op) : Bool := warpIn s.m (fun x => x.queue.all (fun q => o.seq ≤ q.seq) && x.ops.all (fun e => o.seq ≤ e.2.seq)) && s.m.bad == []
theorem flies_of {s : State} {o : Op} (h : flies s o = true) : ∃ blk x, InFlight s 0 0 0 blk x o := by
  unfold flies at h
  split at h
  · rename_i blk x hw
    simp only [Bool.and_eq_true, beq_iff_eq] at h
    exact ⟨blk, x, hw, h.1.1.1, h.1.1.2, h.1.2, h.2⟩
  · cases h
def vc : Instr := .varComplete 0 0 0
def opIs (s : State) (p : Payload) : Bool := warpIn s.m (fun y => (y.ops.find 0).map (·.payload) == some p)
def opFault (s : State) (c : Nat) : Bool := warpIn s.m (fun y => ((y.ops.find 0).bind (·.fault)).map (·.cause) == some c)
/-- The operation is gone. -/
def done (s : State) : Bool := warpIn s.m (fun y => y.ops.all (fun e => e.2.flagDone))
def one (k : Nat) (x : Word) : FMap 32 := valsOf k [0] (fun _ j => if j = 0 then x else 0)
/-- The state with operation 0, and an addition to it. -/
def turn (p : Payload) (f : Mach → Mach := id) : State := lay (fun m => f (withOp (op0 p) m))

theorem turn_completes :
    (∀ p ∈ [Payload.sourcesRead [7] 4, .atomicResult true r0 [7], .readCyc { r0 with n := 2 }, .after 0, .copy 0 64 0x10000 4 none (some [1, 2, 3, 4]) [] true,
      .bwait 0 [] []], flies (turn p) (op0 p) = true ∧ ends (exec vc (turn p)) done = true) ∧
    ends (exec vc (turn (.after 9))) (fun _ => true) = false := by decide +kernel
theorem turn_bulk : flies (turn (.bulk 4 true)) (op0 (.bulk 4 true)) = true ∧ ends (exec vc (turn (.bulk 4 true))) done = true := by decide +kernel

/-- A fence behind a store that has not performed. -/
theorem turn_fence :
    (∀ kind ∈ [0, 1, 2], flies (turn (.fence kind 3)) (op0 (.fence kind 3)) = true ∧ first (turn (.fence kind 3)) (op0 (.fence kind 3)) = true ∧
      ends (exec vc (turn (.fence kind 3))) done = true) ∧
    (let s := turn (.fence 1 3) (fun m => onWarp (fun w => { w with ops := w.ops.map (fun e => (e.1, { e.2 with seq := 1 })), queue :=
      [{ seq := 0, space := .g, rel := false, acq := false, scope := 0, kind := .store [acc4 [1, 2, 3, 4]] }] }) m)
     flies s { op0 (.fence 1 3) with seq := 1 } = true ∧ ends (exec vc s) (fun _ => true) = false) := by decide +kernel

/-- The barrier word at 64, or at 0x10000 in memory, and an operation on it. -/
def turnBar (i : Instr) (glob : Bool) (w : DWord) : State :=
  turn (.retry i (one 2 (if glob then 0x10000 else 64)) (one 1 8) []) (fun m => if glob then { m with mem := m.mem.setList 0x10000 (leBytes w.toNat 8) }
    else onBlock (fun b => { b with scratch := FMap.setList [] 64 (leBytes w.toNat 8) }) m)
def scr8 (s : State) : Nat := match s.m.block 0 with
  | some b => leNat (b.scratch.getList 64 8)
  | none => 0
def mem8 (s : State) : Nat := leNat (s.m.mem.getList 0x10000 8)
/-- The word that the operation finds passes its checks. -/
def barOk (s : State) (glob : Bool) (acc : Sys2Proof.Access) : Bool := match s.m.warp 0 0 with
  | some (blk, x) => match (s.m.setWarp 0 0 (x.settle s.now)).checkLanes (settled s blk 0 x) (s.m.launchOf blk) (if glob then .g else .s) true acc 8 12 0
      [(0, if glob then 0x10000 else 64)] with
    | (_, .ok ks) => ks == [(0, (List.range 8).map ((if glob then 0x10000 else 64) + ·))]
    | _ => false
  | none => false
/-- EXP 2, ARR 0; EXP 2, ARR 1; EXP 2, ARR 2; EXP 0; in phase 1. -/
def bar0 : DWord := 0x8002000000000000#64
def bar1 : DWord := 0x8002001000000000#64
def bar2 : DWord := 0x8002002000000000#64
def bw (mod : BitVec 20) : CForm := blank 0 (.v 6) (.v 2) (.v 4) (.v 0) mod
theorem turn_bar :
    barOk (turnBar (.barArrive (bw 0)) false bar0) false .write = true ∧ first (turnBar (.barArrive (bw 0)) false bar0) (op0 (.retry (.barArrive (bw 0)) (one 2 64) (one 1 8) [])) = true ∧
    ends (exec vc (turnBar (.barArrive (bw 0)) false bar0)) (fun t => done t && scr8 t == 0x8002001000000000 && warpIn t.m (fun y => y.v.get (regKey 6 0) == 1)) = true ∧
    ends (exec vc (turnBar (.barArrive (bw 0)) false bar1)) (fun t => done t && scr8 t == 0x0002000000000000) = true ∧
    ends (exec vc (turnBar (.barArrive (bw 0)) false bar2)) (fun t => opFault t 0x4D && scr8 t == 0x8002002000000000) = true ∧
    ends (exec vc (turnBar (.barSync (bw 0)) false bar0)) (fun t => opIs t (.barWait false 64 true false)) = true ∧
    ends (exec vc (turnBar (.barSync (bw 0)) false bar1)) (fun t => opIs t (.barWait false 64 true true)) = true ∧
    ends (exec vc (turnBar (.barx (bw 1)) false bar0)) (fun t => done t && scr8 t == 0x8002001000000008) = true ∧
    barOk (turnBar (.barWait (bw 0)) false bar0) false .read = true ∧
    ends (exec vc (turnBar (.barWait (bw 0)) false bar0)) (fun t => opIs t (.barWait false 64 false true)) = true := by decide +kernel
theorem turn_cbar :
    barOk (turnBar (.cbarArrive (bw 0)) true bar0) true .write = true ∧
    ends (exec vc (turnBar (.cbarArrive (bw 0)) true bar0)) (fun t => done t && mem8 t == 0x8002001000000000) = true ∧
    ends (exec vc (turnBar (.cbarArrive (bw 0)) true (bar0 + 5))) (fun t => opFault t 0x4D && mem8 t == 0x8002000000000005) = true ∧
    ends (exec vc (turnBar (.cbarSync (bw 0)) true bar1)) (fun t => opIs t (.barWait true 0x10000 true true)) = true ∧
    barOk (turnBar (.cbarWait (bw 0)) true bar0) true .read = true ∧
    ends (exec vc (turnBar (.cbarWait (bw 0)) true bar0)) (fun t => opIs t (.barWait true 0x10000 false true)) = true := by decide +kernel
theorem turn_met : flies (turn (.barWait false 64 false true)) (op0 (.barWait false 64 false true)) = true ∧
    ends (exec vc (turn (.barWait false 64 false true))) done = true ∧ ends (exec vc (turn (.barWait true 0x10000 false true))) done = true ∧
    ends (exec vc (turn (.barWait false 64 false false))) (fun _ => true) = false := by decide +kernel

/-- WAKE of warps 1 and 2, of which 1 sleeps; 3 is not named. -/
def stWake : State :=
  let sleeper : Warp := { Warp.launch 0 64 0 with sleeping := [0], ops := [(0, op0 (.sleep .s 64 64 7 none false 0 (.v 9) false))], nextOp := 1 }
  lay (fun m => onBlock (fun b => { b with warpCount := 4, warps := [(0, { Warp.launch 0 64 0 with ops := [(0, op0 (.wake 6))], nextOp := 1 }),
    (1, sleeper), (2, Warp.launch 0 64 0), (3, Warp.launch 0 64 0)] }) m)
def warpNo (m : Mach) (n : Nat) (P : Warp → Bool) : Bool := match m.warp 0 n with
  | some (_, x) => P x
  | none => false
theorem turn_wake : flies stWake (op0 (.wake 6)) = true ∧ first stWake (op0 (.wake 6)) = true ∧
    ends (exec vc stWake) (fun t => done t && warpNo t.m 1 (fun y => (y.ops.find 0).map (·.payload) == some (.sleep .s 64 64 7 none false 0 (.v 9) true) && !y.wake) &&
      warpNo t.m 2 (·.wake) && warpNo t.m 3 (fun y => !y.wake)) = true := by decide +kernel

def sldForm : CForm := blank 0 (.s 3) (.s 2) (.v 0) (.v 0) 0x10000
def stSld : State := turn (.retry (.sld sldForm) (one 1 64) [] []) (onBlock (fun b => { b with scratch := [(64, 7)] }))
theorem turn_sld : flies stSld (op0 (.retry (.sld sldForm) (one 1 64) [] [])) = true ∧ warpIn stSld.m (fun x => !x.loadWaits 0 .s false [64, 65, 66, 67]) = true ∧
    (match stSld.m.warp 0 0 with
      | some (blk, x) => match (stSld.m.setWarp 0 0 (x.settle 0)).checkLanes (settled stSld blk 0 x) (stSld.m.launchOf blk) .s false .read 4 12 0 [(0, 64)] with
        | (m1, .ok ks) => (m1.loadLanes (settled stSld blk 0 x) (stSld.m.launchOf blk) (x.before 0) 0 .s ks).2 == [(0, [7, 0, 0, 0])]
        | _ => false
      | none => false) = true ∧
    ends (exec vc stSld) (fun t => opIs t (.after 2) && blockIn t.m (fun b => b.armPend == [{ at_ := 0, warp := 0, wr := .sreg 3 7 }])) = true := by decide +kernel

/-- A descriptor's bytes at 0x10000 of the memory. -/
def descAt (d : FieldDesc) (m : Mach) : Mach := { m with mem := m.mem.setList 0x10000 (d.foldr (fun x l => leBytes x.toNat 4 ++ l) []) }
def fw (mod : BitVec 20) : CForm := blank 0 (.v 6) (.v 2) (.v 4) (.v 0) mod
theorem turn_fbind :
    (let s := turn (.field (.fbind (fw 3)) (one 2 0x10000) []) (descAt (fieldS 0))
     flies s (op0 (.field (.fbind (fw 3)) (one 2 0x10000) [])) = true ∧ (fieldS 0).ok 1024 = true ∧
     ends (exec vc s) (fun t => done t && blockIn t.m (fun b => b.fslots.find 3 == some (fieldS 0))) = true) ∧
    ends (exec vc (turn (.field (.fbind (fw 3)) (one 2 0x10000) []))) (fun t => opFault t 0x41) = true ∧
    ends (exec vc (turn (.field (.fbind (fw 3)) (one 2 0x10004) []))) (fun t => opFault t 0x41) = true := by decide +kernel

/-- The field unit's slot 3 holds the scratchpad field of order `o`, whose second entry is 1. -/
def stLoad (i : Instr) (o : Word) (x y : Word) : State := turn (.field i (one 1 x) (one 1 y)) (onBlock (fun b => { b with
  fslots := [(3, fieldS o)], scratch := [(70, 0x80), (71, 0x3F)] }))
def regs (s : State) (n : Nat) : List Word := match s.m.warp 0 0 with
  | some (_, x) => (List.range n).map (fun k => x.v.get (regKey (6 + k) 0))
  | none => []
theorem turn_load :
    flies (stLoad (.fld (fw 3)) 0 0x3F800000 0) (op0 (.field (.fld (fw 3)) (one 1 0x3F800000) (one 1 0))) = true ∧
    first (stLoad (.fld (fw 3)) 0 0x3F800000 0) (op0 (.field (.fld (fw 3)) (one 1 0x3F800000) (one 1 0))) = true ∧
    ends (exec vc (stLoad (.fld (fw 3)) 0 0x3F800000 0)) (fun t => done t && regs t 1 == [0x3F800000]) = true ∧
    ends (exec vc (stLoad (.fld (fw 3)) 0 0x7FC00000 0)) (fun t => done t && regs t 1 == [0] && warpIn t.m (fun y => y.flags == 1)) = true ∧
    ends (exec vc (stLoad (.fldg (fw 3)) 1 0x3FC00000 0)) (fun t => done t && regs t 2 == [0x3F000000, 0xBF800000]) = true ∧
    ends (exec vc (stLoad (.fldg (fw 3)) 1 0x7FC00000 0)) (fun t => done t && regs t 2 == [0, 0]) = true ∧
    ends (exec vc (stLoad (.fwt (fw 3)) 1 0x3FC00000 1)) (fun t => done t && regs t 4 == [8, 0, 0x3F000000, 0]) = true ∧
    ends (exec vc (stLoad (.fwt (fw 3)) 1 0x3FC00000 2)) (fun t => done t && regs t 4 == [0, 0, 0, 4]) = true ∧
    ends (exec vc (stLoad (.fwt (fw 3)) 1 0x7FC00000 1)) (fun t => done t && regs t 4 == [0, 0, 0, 2]) = true ∧
    ends (exec vc (stLoad (.fld (fw 2)) 1 0x3FC00000 0)) (fun t => opFault t 0x42) = true ∧
    ends (exec vc (stLoad (.fld (fw 0x103)) 1 0x3FC00000 0)) (fun t => opFault t 0x43) = true := by decide +kernel

/-- CTXSV of context 0. -/
def csv (s : State) (i : Instr) (ctx save : Nat) (x : Word) : Bool := flies s (op0 (.sys i ctx save)) && ends (exec vc s) (fun t => done t && regs t 1 == [x])
theorem turn_ctxsv :
    csv (turn (.sys (.ctxsvSave (fw 0)) 0 0)) (.ctxsvSave (fw 0)) 0 0 1 = true ∧
    csv (turn (.sys (.ctxsvSave (fw 0)) 1 8) (fun m => { m with images := [(7, { ctx := 1, blocks := [], launches := [], whole := true })] })) (.ctxsvSave (fw 0)) 1 8 0 = true ∧
    csv (turn (.sys (.ctxsvRest (fw 0)) 0 0)) (.ctxsvRest (fw 0)) 0 0 1 = true := by decide +kernel

/-! #### Gossip operations at their turn -/

/-- Operation 0 on region 1, which holds the value 8 and the weight 6. -/
def gw : CForm := blank 0 (.v 6) (.v 2) (.v 4) (.v 0) 0x10
def turnG (mode : Nat) (i : Instr) (a y z : FMap 32) : State := changed (stRegion mode) (withOp (op0 (.gossip i a y z)))
def gsees (s : State) (i : Instr) (a y z : FMap 32) : Bool := flies s (op0 (.gossip i a y z)) && first s (op0 (.gossip i a y z)) &&
  match s.m.gossipOf 0 1 with
  | some _ => true
  | none => false
theorem turn_gadd :
    gsees (turnG 0 (.gadd gw) (one 1 0x3F800000) (one 1 1) (one 1 2)) (.gadd gw) (one 1 0x3F800000) (one 1 1) (one 1 2) = true ∧
    outside (region 0) (op0 (.gossip (.gadd gw) [] [] [])) (one 1 1) (one 1 2) = 0 ∧ outside (region 0) (op0 (.gossip (.gadd gw) [] [] [])) (one 1 2) (one 1 2) ≠ 0 ∧
    ends (exec vc (turnG 0 (.gadd gw) (one 1 0x3F800000) (one 1 1) (one 1 2))) (fun t => done t && opIs t (.terms 1 [(0x40210, 1)])) = true ∧
    ends (exec vc (turnG 0 (.gadd gw) (one 1 0x3F800000) (one 1 2) (one 1 2))) (fun t => opFault t 0xA7) = true := by decide +kernel
def stTerms : State := changed (stRegion 0) (withOp { op0 (.terms 1 [(0x40000, 5), (0x40000, 1)]) with flagDone := true })
theorem turn_terms : (stTerms.m.gossipOf 0 1) = some (region 0) ∧
    ends (exec vc stTerms) (fun t => t.m.mem.get 0x40000 == 14 && (t.m.gossipOf 0 1).map (fun g => (g.counter 0, g.counter 5, g.counter 1)) == some (6, 6, 0)) = true := by
  decide +kernel
theorem turn_reads :
    gsees (turnG 0 (.grd gw) [] (one 1 0) (one 1 0)) (.grd gw) [] (one 1 0) (one 1 0) = true ∧ modeTraps ((stRegion 0).m.launchOf (placedBlock 0 0 7)).mode = 0 ∧
    ends (exec vc (turnG 0 (.grd gw) [] (one 1 0) (one 1 0))) (fun t => done t && regs t 1 == [0x5EAAAAAB]) = true ∧
    ends (exec vc (turnG 0 (.grd gw) [] (one 1 0) (one 1 1))) (fun t => done t && regs t 1 == [0]) = true ∧
    ends (exec vc (turnG 0 (.grd gw) [] (one 1 1) (one 1 1))) (fun t => done t && regs t 1 == [0x7FC00000] && warpIn t.m (fun y => y.flags == 1)) = true ∧
    ends (exec vc (turnG 0 (.grd gw) [] (one 1 1) (one 1 64))) (fun t => opFault t 0xA7) = true ∧
    ends (exec vc (changed (turnG 0 (.gsprd gw) [] (one 1 0) (one 1 2)) (fun m => { m with mem := m.mem.set 0x42005 3 }))) (fun t => done t && regs t 1 == [768]) = true ∧
    ends (exec vc (turnG 0 (.gsprd gw) [] (one 1 9) (one 1 0))) (fun t => done t && regs t 1 == [0]) = true ∧
    ends (exec vc (turnG 0 (.gsprd gw) [] (one 1 1) (one 1 2))) (fun t => opFault t 0xA7) = true ∧
    ends (exec vc (turnG 0 (.gmass gw) [] [] [])) (fun t => done t && regs t 2 == [0, 0]) = true := by decide +kernel
theorem turn_controls :
    gsees (turnG 0 (.gctlRate gw) (one 1 100) [] []) (.gctlRate gw) (one 1 100) [] [] = true ∧ (region 0).stopped = false ∧ (region 0).rate = 4096 ∧
    ends (exec vc (turnG 0 (.gsync gw) [] [] [])) done = true ∧
    ends (exec vc (turnG 0 (.gctlRate gw) (one 1 100) [] [])) (fun t => done t && (t.m.gossipOf 0 1).map (·.rate) == some 100) = true ∧
    ends (exec vc (changed (turnG 0 (.gctlRate gw) (one 1 100) [] []) (onCtx (fun c => { c with gossip := [(1, { region 0 with stopped := true })] })))) (fun t => opFault t 0xA6) = true ∧
    ends (exec vc (turnG 0 (.gctlStop gw) [] [] [])) (fun t => done t && (t.m.gossipOf 0 1).map (·.stopped) == some true) = true := by decide +kernel

/-! #### The memory form of COLL; errors that an operation or an event reports -/

def memColl : CForm := { collForm with d := .v 0, mod := 0 }
def collMem : FMap 32 := ((([7, 2, 2, 0, 0, 0, 0, 0] : List Word) ++ List.replicate 8 0 ++ [0, 5]).foldl (fun (s : FMap 32 × Nat) x => (s.1.set s.2 x, s.2 + 1)) ([], 0)).1
def stCollMem : State := lay (fun m => tables (withOp { op0 (.coll (.coll memColl) (one 2 0x30000) (one 2 0x20000) collMem 1) with flagDone := true, batch := some (0, 0) }
  { m with mem := (m.mem.set 0x20003 0x40).set 0x20007 0x40 }))
def member2 : CollMember := { ctx := 0, ftid := 0, inst := 1, rank := 1, fn := 0, reg := false, desc := [7, 2, 2, 0, 0, 0, 0, 0], membs := [0, 5], src := [0x3F800000, 0x3F800000] }
theorem ev_collInstanceRun_memory : (stCollMem.m.collOp 0 0 0).isSome = true ∧ membersPresent (collFields (collMem.getList 0 16)) 0 [member2] = true ∧
    (match stCollMem.m.warp 0 0 with
      | some (blk, _) => (stCollMem.m.collKeys blk (collFields (collMem.getList 0 16)) 0 0x30000 0x20000).toOption.isSome
      | none => false) = true ∧
    ends (exec (.collInstanceRun 0 0 0 [member2]) stCollMem) (fun t => (List.range 8).map (fun i => t.m.mem.get (0x30000 + i)) == [0, 0, 0x40, 0x40, 0, 0, 0x40, 0x40]) = true := by
  decide +kernel
theorem ev_operationFault_bad : isBadData 0x66 = true ∧
    ends (exec (.operationFault 0 0 0) (changed (stRun id) (withOp { op0 (.result r0) with fault := some { flt with cause := 0x66 } }))) (fun t =>
      (t.m.ctx 0).state == 5 && (t.m.ctx 0).killCause == 0x66 && t.m.mem == (stRun id).m.mem) = true := by decide +kernel
theorem ev_uncorrectable_slice : (stRun id).m.stackOn (stRun id).caps (9 * 32 / 2 ^ 36) = true ∧
    ends (exec (.uncorrectableError (.l2data 9) 7) (stRun id)) (fun t => t.m.bad == [9] && t.m.badInL2 9) = true := by decide +kernel

/-! #### CODE_MAP's second event -/

/-- The packet's protection of granules stands. -/
def stScan (gs : List (Nat × Nat)) (f : FMap 8 → FMap 8) : State := stPkt true (mapFields 3) (fun m => onPart (fun p => { p with guarded := gs }) { codePage m with mem := f (codePage m).mem })
/-- A granule that begins with a word where its first header is due; one that is all padding; and no granule. -/
theorem ev_codeScan_rejects : (stScan [(0, 3)] (fun f => f.set 0x3000B 7)).m.bad = [] ∧
    ((stScan [(0, 3)] (fun f => f.set 0x3000B 7)).m.scanPA 0 (3 * 2 ^ 16) 8 0 false).isSome = true := by decide +kernel
theorem scan_blank (win uni n : Nat) (sys : Bool) (byte : Nat → Byte) (rd : Nat → IWord) (heads : List Nat) (r : rd 0 = 0)
    (f : firstNonzero byte 0 = none) (hn : n ≠ 0) : scanClauses win uni sys byte rd heads n 0 = none := by
  obtain ⟨n, rfl⟩ := Nat.exists_eq_succ_of_ne_zero hn
  rw [scanClauses, r, f, if_pos (by decide)]
  rfl
theorem blank_granule (win uni : Nat) (sys : Bool) (byte : Nat → Byte) (h : ∀ k < 65536, byte k = 0) : scanGranule win uni sys byte = none := by
  have z : wordOfBytes ((List.range 12).map (fun k => byte (0 + k))) = 0 := by
    have : (List.range 12).map (fun k => byte (0 + k)) = List.replicate 12 0 :=
      List.ext_getElem (by simp) (fun i hi _ => by
        have : i < 12 := by simpa using hi
        rw [List.getElem_map, List.getElem_range, h _ (by omega), List.getElem_replicate])
    rw [this]
    decide
  have f : firstNonzero byte 0 = none := by
    rw [firstNonzero, Option.map_eq_none_iff, List.find?_eq_none]
    intro k hk
    rw [h (0 + k) (by have := List.mem_range.mp hk; omega)]
    decide
  rw [scanGranule]
  exact scan_blank _ _ _ _ _ _ _ z f (by decide)
theorem get_above (l : FMap 8) (lo hi k : Nat) (h : l.all (fun x => decide (x.1 < lo) || decide (hi ≤ x.1)) = true) (a : lo ≤ k) (b : k < hi) :
    l.get k = 0 := by
  induction l with
  | nil => rfl
  | cons x l ih =>
    simp only [List.all_cons, Bool.and_eq_true, Bool.or_eq_true, decide_eq_true_eq] at h
    have : ¬k = x.1 := by omega
    simp only [FMap.get, this, if_false]
    exact ih h.2
theorem ev_codeScan_passes : (stScan [(0, 3)] id).m.bad = [] ∧ (stScan [(0, 3)] id).m.scanPA 0 (3 * 2 ^ 16) 8 0 false = none ∧
    ((stScan [(0, 3)] id).m.ringOf 0).packet = some (packet0 true (mapFields 3)) ∧
    ends (exec (.codeMap 0) (stScan [] id)) (fun t => over' t.m 0 [0, 0, 0]) = true := by
  have e : ((stScan [(0, 3)] id).m.part 0).cht = [0] := by decide +kernel
  have z : (stScan [(0, 3)] id).m.mem.all (fun x => decide (x.1 < 3 * 2 ^ 16) || decide (2 ^ 18 ≤ x.1)) = true := by decide +kernel
  refine ⟨by decide +kernel, ?_, by decide +kernel, by decide +kernel⟩
  generalize (stScan [(0, 3)] id).m = m at e z ⊢
  rw [Mach.scanPA]
  apply blank_granule
  intro k hk
  have p : (m.part 0).place (3 * 2 ^ 16 + k) = some (3 * 2 ^ 16 + k) := by
    simp only [Part.place, e, List.length_singleton, Nat.mod_one, Nat.div_one, List.getD_cons_zero]
    rw [if_pos (by omega)]
    congr 1
    omega
  simp only [p]
  exact get_above _ _ _ _ z (by omega) (by omega)

/-! #### Pops that fill from the spill area, and Unwind -/

/-- The on-chip stack is empty, and one entry stands in the spill area at 0x10000. -/
def spilt (e : StackEntry) (m : Mach) : Mach := page (onLaunch (fun l => { l with spd := 4, spb := 0x10000 })
  (onWarp (fun w => { w with stack := [], spilled := [e] }) { m with mem := m.mem.setList 0x10000 (leBytes e.rpc.toNat 8 ++ leBytes e.mask.toNat 8) }))
/-- The fill of a view, and what it leaves on the stack. -/
def fills (c : Cx) (e : StackEntry) : Bool := match c.fill with
  | .ok f => f.w.stack == [e] && f.w.spilled == []
  | .error _ => false
def fillFails (c : Cx) : Bool := match c.fill with
  | .ok _ => false
  | .error _ => true
theorem fill_spilt : ∃ s c, Issues s (.ret (zf false 7)) c ∧ c.adm ≠ 0 ∧ c.w.stack = [] ∧ c.w.spilled = [entry 24 1] ∧ c.w.queue = [] ∧ c.m.bad = [] ∧
    spillBase c.la c.blk c.wid + 16 ≤ 2 ^ 57 ∧ (c.m.coreKeys c.blk.core c.blk.ctx .read (spillBase c.la c.blk c.wid) 16).isOk = true ∧ fills c (entry 24 1) = true :=
  seen (spilt (entry 24 1)) (by decide +kernel)
theorem fill_rewritten : ∃ s c, Issues s (.ret (zf false 7)) c ∧ c.w.stack = [] ∧ c.w.spilled = [entry 24 1] ∧ fills c (entry 24 3) = true :=
  seen (fun m => let m := spilt (entry 24 1) m; { m with mem := m.mem.set 0x10008 3 }) (by decide +kernel)
theorem fill_fails : ∃ s c, Issues s (.ret (zf false 7)) c ∧ c.adm ≠ 0 ∧ c.skipped = false ∧ c.w.stack = [] ∧ c.w.spilled = [entry 24 1] ∧
    (c.m.coreKeys c.blk.core c.blk.ctx .read (spillBase c.la c.blk c.wid) 16).isOk = false ∧ fillFails c = true :=
  seen (fun m => onLaunch (fun l => { l with spb := 0x20000 }) (spilt (entry 24 1) m)) (by decide +kernel)

/-- What a warp's Unwind does with the newest entry: the warp ends, goes on, or drops it. -/
def unwinds (c : Cx) (how : Nat) : Bool := match c.fill with
  | .error _ => false
  | .ok f => match f.w.stack with
    | [] => how == 0
    | e :: rest => match ({ f with w := { f.w with stack := rest } } : Cx).fill with
      | .error _ => false
      | .ok g => if e.mask &&& ~~~f.w.exm ≠ 0 then (g.nextOf e.rpc.toNat).isOk && how == 1
        else if parkedSlot g e ≠ .empty then how == 1
        else how == 2 && (match ({ g with w := { g.w with stack := belowParked g e } } : Cx).fill with
          | .ok h => h.w.stack == []
          | .error _ => false)
theorem unwinds_to {c : Cx} {how : Nat} (h : unwinds c how = true) : ∃ r, UnwindTo c r := by
  unfold unwinds at h
  split at h
  · cases h
  · rename_i f hf
    split at h
    · exact ⟨_, .ends c f hf ‹_›⟩
    · rename_i e rest he
      split at h
      · cases h
      · rename_i g hg
        split at h
        · rename_i hm
          cases hn : g.nextOf e.rpc.toNat with
          | error k => rw [hn] at h; simp [Except.isOk, Except.toBool] at h
          | ok next => exact ⟨_, .goesOn c f g e rest next hf he hg (fun _ => hn) (.inl hm)⟩
        · rename_i hm
          split at h
          · rename_i hp
            exact ⟨_, .goesOn c f g e rest 0 hf he hg (fun hc => absurd hc hm) (.inr hp)⟩
          · rename_i hp
            simp only [Bool.and_eq_true, beq_iff_eq] at h
            split at h
            · rename_i d hd
              refine ⟨_, .drops c f g _ e rest hf he hg (by simpa using hm) (by simpa using hp) (.ends _ d hd (by simpa using h.2))⟩
            · exact absurd h.2 (by simp)

/-- The slot's lanes leave, and both slots are empty. -/
def leaves_ (c : Cx) : Cx := { c with ctl := true, w := ({ c.w with exm := c.w.exm ||| c.adm } : Warp).setSlot c.cl.slot .empty }
def lone (m : Mach) : Mach := onWarp (fun w => { w with s0 := { pc := 0, mask := 1 } }) m
theorem exit_unwinds_open : ∃ s c, Issues s (.exit (zf false 7)) c ∧ widthMask c.blk.width &&& ~~~(c.w.exm ||| c.adm) ≠ 0 ∧
    c.slot.mask &&& ~~~c.adm = 0 ∧ c.w.slot (1 - c.cl.slot) = .empty ∧ c.w.spilled = [] ∧ (∀ e ∈ c.w.stack, (c.nextOf e.rpc.toNat).isOk = true) ∧ c.w.stack ≠ [] :=
  seen (fun m => lone (onStack [entry 0 1, entry 0 2] m)) (by decide +kernel)
theorem exit_unwinds_to (how : Nat) (e : StackEntry) (h : (how, e) ∈ [(1, entry 0 2), (2, entry 0 1)]) : ∃ s c, Issues s (.exit (zf false 7)) c ∧
    widthMask c.blk.width &&& ~~~(c.w.exm ||| c.adm) ≠ 0 ∧ c.slot.mask &&& ~~~c.adm = 0 ∧ c.w.slot (1 - c.cl.slot) = .empty ∧ ∃ r, UnwindTo (leaves_ c) r := by
  have k : ∀ p ∈ [(1, entry 0 2), (2, entry 0 1)], sees (.exit (zf false 7)) (fun m => lone (spilt p.2 m)) (fun c => decide (
      widthMask c.blk.width &&& ~~~(c.w.exm ||| c.adm) ≠ 0 ∧ c.slot.mask &&& ~~~c.adm = 0 ∧ c.w.slot (1 - c.cl.slot) = .empty ∧
      unwinds (leaves_ c) p.1 = true)) = true := by decide +kernel
  obtain ⟨s, c, hi, h1, h2, h3, h4⟩ := seen _ (k _ h)
  exact ⟨s, c, hi, h1, h2, h3, unwinds_to h4⟩

/-- The view that RET and RCV go on from, once the return point or the join is popped. -/
def retView (c : Cx) : Option Cx := match c.fill with
  | .error _ => none
  | .ok f => match f.w.stack with
    | [] => none
    | e :: rest => ({ f with ctl := true, w := ({ f.w with stack := rest } : Warp).setSlot f.cl.slot (slotOf e.rpc (c.slot.mask &&& ~~~f.w.exm)) } : Cx).fill.toOption
theorem ret_pops : ∃ s c, Issues s (.ret (zf false 7)) c ∧ c.adm ≠ 0 ∧ (retView c).any (fun g => g.w.s0.mask != 0 && decide (widthMask g.blk.width &&& ~~~g.w.exm ≠ 0)) = true :=
  seen (spilt (entry 24 1)) (by decide +kernel)
theorem ret_pops_nothing : ∃ s c, Issues s (.ret (zf false 7)) c ∧ c.adm ≠ 0 ∧ ∃ g, retView c = some g ∧ g.w.s0 = .empty ∧ g.w.s1 = .empty ∧
    widthMask g.blk.width &&& ~~~g.w.exm ≠ 0 ∧ ∃ r, UnwindTo g r := by
  obtain ⟨s, c, hi, ha, h⟩ := seen (i := .ret (zf false 7)) (fun m => onWarp (fun w => { w with exm := 1 }) (lone (spilt (entry 24 1) m)))
    (P := fun c => c.adm ≠ 0 ∧ (match retView c with
      | some g => decide (g.w.s0 = .empty ∧ g.w.s1 = .empty ∧ widthMask g.blk.width &&& ~~~g.w.exm ≠ 0 ∧ unwinds g 0 = true)
      | none => false) = true) (by decide +kernel)
  split at h
  · rename_i g hg
    obtain ⟨h1, h2, h3, h4⟩ := of_decide_eq_true h
    exact ⟨s, c, hi, ha, g, hg, h1, h2, h3, unwinds_to h4⟩
  · cases h
theorem rcv_pops : ∃ s c, Issues s (.rcv (zf false 7)) c ∧ c.skipped = false ∧ widthMask c.blk.width &&& ~~~c.w.exm ≠ 0 ∧ fills c (entry 0 (BitVec.allOnes 64)) = true ∧
    c.cl.head = 0 ∧ c.slot.mask = BitVec.allOnes 64 ∧ c.w.slot (1 - c.cl.slot) = .empty ∧
    ∃ r, UnwindTo ({ c with ctl := true, w := c.w.setSlot c.cl.slot .empty } : Cx) r := by
  obtain ⟨s, c, hi, h1, h2, h3, h4, h5, h6, h7⟩ := seen (i := .rcv (zf false 7)) (spilt (entry 0 (BitVec.allOnes 64)))
    (P := fun c => c.skipped = false ∧ widthMask c.blk.width &&& ~~~c.w.exm ≠ 0 ∧ fills c (entry 0 (BitVec.allOnes 64)) = true ∧
      c.cl.head = 0 ∧ c.slot.mask = BitVec.allOnes 64 ∧ c.w.slot (1 - c.cl.slot) = .empty ∧
      unwinds { c with ctl := true, w := c.w.setSlot c.cl.slot .empty } 1 = true) (by decide +kernel)
  exact ⟨s, c, hi, h1, h2, h3, h4, h5, h6, unwinds_to h7⟩
theorem rcv_pops_elsewhere : ∃ s c, Issues s (.rcv (zf false 7)) c ∧ c.skipped = false ∧ fills c (entry 24 1) = true ∧ c.cl.head = 0 :=
  seen (spilt (entry 24 1)) (by decide +kernel)
theorem rcv_pops_waits : ∃ s c, Issues s (.rcv (zf false 7)) c ∧ c.skipped = false ∧ fills c (entry 0 (BitVec.allOnes 64)) = true ∧ c.cl.head = 0 ∧
    (c.w.slot (1 - c.cl.slot)).mask ≠ 0 := seen (fun m => twoSlots (spilt (entry 0 (BitVec.allOnes 64)) m)) (by decide +kernel)
theorem ret_unwinds_open : ∃ s c, Issues s (.ret (zf false 7)) c ∧ c.w.stack = [] ∧ c.adm ≠ 0 ∧ c.w.spilled = [] ∧
    widthMask c.blk.width &&& ~~~(c.w.exm ||| c.slot.mask) ≠ 0 ∧ c.w.slot (1 - c.cl.slot) = .empty ∧ (∀ e ∈ c.w.stack, (c.nextOf e.rpc.toNat).isOk = true) :=
  seen lone (by decide +kernel)
theorem rcv_unwinds_open : ∃ s c, Issues s (.rcv (zf false 7)) c ∧ c.skipped = false ∧ c.w.stack = [entry 0 (BitVec.allOnes 64)] ∧ c.cl.head = 0 ∧
    c.w.slot (1 - c.cl.slot) = .empty ∧ c.w.spilled = [] ∧ (∀ e ∈ c.w.stack, (c.nextOf e.rpc.toNat).isOk = true) := seen (onStack [entry 0 (BitVec.allOnes 64)]) (by decide +kernel)


/-! #### Global loads, CMNT, and where results go -/

theorem ld_global : ∃ s c, Issues s (.ld ldg) c ∧ c.adm ≠ 0 ∧ c.w.queue = [] ∧ c.w.ops = [] ∧ c.m.bad = [] ∧
    (okLanes ldg false .read c .g 4).any (fun x => (placesOf x.2).all (fun k => c.m.l1Find (c.m.l1Core c.blk.part c.blk.core (k / 128)) c.blk.ctx (k / 128) == none)) = true :=
  seen addrs (by decide +kernel)
theorem cmnt_ranges (op : BitVec 20) (h : op ∈ [0#20, 1, 2]) : ∃ s c, Issues s (.cmnt (blank 0 (.v 0) (.v 2) (.v 4) (.v 0) op)) c ∧ c.adm ≠ 0 ∧
    (c.rd64 (.v 2) c.lane).toNat = 0x10000 ∧ (c.rd (.v 4) 0 c.lane).toNat = 64 ∧ c.flush.bad = [] ∧
    (c.flush.coreRanges c.blk.core c.blk.ctx (granuleChunks 2 0x10000 128)).isOk = true := by
  have k : [0#20, 1, 2].all (fun op => sees (.cmnt (blank 0 (.v 0) (.v 2) (.v 4) (.v 0) op)) (fun m => reg 4 64 (addrs m)) (fun c => decide (c.adm ≠ 0 ∧
      (c.rd64 (.v 2) c.lane).toNat = 0x10000 ∧ (c.rd (.v 4) 0 c.lane).toNat = 64 ∧ c.flush.bad = [] ∧
      (c.flush.coreRanges c.blk.core c.blk.ctx (granuleChunks 2 0x10000 128)).isOk = true))) = true := by decide +kernel
  exact seen _ (List.all_eq_true.mp k op h)
/-- A warp whose buffer entry 3 maps register 7. -/
def mapped : Warp := { Warp.launch 0 64 0 with map := [(3, 263)] }
theorem result_places : mapped.mapOf 3 = some 7 ∧ (mapped.writeResult r0).bufVal 3 0 = 0xABCD#32 ∧
    (mapped.writeResult { r0 with dest := some (.b 3) }).reg 7 0 = 0 ∧ (mapped.writeResult { r0 with dest := some (.b 3), wt := true }).reg 7 0 = 0xABCD#32 ∧
    ((mapped.writeResult { r0 with preds := [(2, 1)] }).pred 2) = 1 := by decide

/-! #### Values for the statements on rounding -/

def rn0 (ftz : Bool) : Num.Rnd := { rm := .rn, gr := false, ftz := ftz, cnan := true, rand := 0, grand := none }
theorem valueOf_fin (neg : Bool) (m : Nat) (e : Int) : valueOf (.fin neg m e) = (if neg then -1 else 1) * ((m : ℚ) * (2 : ℚ) ^ e) := rfl
/-- A finite value outside FTZ is read as it is; under FTZ a subnormal one is zero. -/
theorem plain_fin (f : Num.Fmt) (neg : Bool) (m : Nat) (e : Int) (hm : m ≠ 0) : Plain f (rn0 false) (.fin neg m e) := by
  refine ⟨⟨neg, m, e, rfl⟩, ?_, fun h => ?_, fun _ => rfl⟩
  · rw [valueOf_fin]
    have : (m : ℚ) * (2 : ℚ) ^ e ≠ 0 := mul_ne_zero (by exact_mod_cast hm) (by positivity)
    cases neg <;> simpa using this
  · simp [rn0] at h
theorem flushed_fin : Reads Num.f32 (rn0 true) (.fin true 1 (-149)) (.zero true) := by
  have small : |valueOf (.fin true 1 (-149))| < (2 : ℚ) ^ Num.f32.emin := by
    rw [valueOf_fin, show Num.f32.emin = -126 by decide]
    norm_num
  refine ⟨fun _ => rfl, fun h => absurd ⟨⟨true, 1, -149, rfl⟩, ?_, small, rfl, rfl⟩ h⟩
  rw [valueOf_fin]
  norm_num
/-- The magnitudes between one power of two and the next, of which a rounding speaks. -/
theorem rounds_between : (2 : ℝ) ^ (0 : ℤ) ≤ 1 ∧ (1 : ℝ) < 2 ^ ((0 : ℤ) + 1) := by norm_num
theorem rounding_operands : Num.decodeF Num.f32 0x3F800000 = .fin false 0x800000 (-23) ∧ Num.decodeF Num.f32 0xBF800000 = .fin true 0x800000 (-23) ∧
    Num.decodeF Num.f32 0 = .fin false 0 (-149) ∧ Num.decodeF Num.f32 0x7F800000 = .inf false ∧ (Num.decodeF Num.f32 0x7FC00000).isNan = true := by decide
theorem special_operands : valueOf (.fin false 3 0) = (3 : ℤ) ∧ valueOf (.fin false 0x800000 (-23)) = (2 : ℚ) ^ (0 : ℤ) ∧
    valueOf (.fin false 3 (-1)) = ((3 : ℤ) : ℚ) / 2 ∧ valueOf (.zero true) = 0 := by
  refine ⟨?_, ?_, ?_, ?_⟩ <;> simp [valueOf_fin, Num.Val.zero] <;> norm_num
/-- An accumulator of binary64 that holds 1 in its first element and nothing elsewhere, and a format-block of binary64. -/
def accOne : Block := { placedBlock 0 0 7 with tiles := [(1, 0x3FF00000)] }
def mmaOp : Op := op0 (.matrix (.mma (blank 0 (.v 0) (.v 2) (.v 4) (.s 6) 0xF)) [] [] [] [] false)
theorem mma_operands : Num.decodeF Num.f64 (accOne.acc? 0 true 0) = .fin false 0x10000000000000 (-52) ∧ Num.decodeF Num.f64 (accOne.acc? 0 true 17) = .fin false 0 (-1074) ∧
    (BitVec.ofNat 32 (mmaOp.onceWord [(0, 0xFFFFFFFF#32)] 0)).getLsbD 0 = true := by decide

/-! ### The step -/

/-- The steps of the statements about a step run: a placed word is fetched and decodes; an event stands first in the inbox. -/
theorem step_runs : ∃ x, (placed 0x190700100000000000000007#96).m.warp 0 0 = some x ∧ x.2.clause.isSome = true ∧ x.2.stop = none ∧
    (placed 0x190700100000000000000007#96).m.focus = some (0, 0) ∧
    ((placed 0x190700100000000000000007#96).m.fetchWord 0 0 12).toOption = some 0x190700100000000000000007#96 ∧
    (decode 0x190700100000000000000007#96).isSome = true := some_of (by decide +kernel)
theorem step_order : State.reset.m.inbox = [] ∧ State.reset.m.focus = none ∧ State.reset.pick = .tick := by decide +kernel
theorem placed_word : (decodeTableWord 96 0x190700100000000000000007).isSome = true ∧ State.reset.m.bad = [] := by decide +kernel

/-! ### The frames -/

theorem register_frame : RegisterOnly (.movi { g := ⟨false, 7⟩, hint := ⟨false, 0, false, false, false, false⟩, fn := 0, d := .v 1, a := .v 0, b := .v 0, imm := 7 }) ∧
    (openCx (.movi { g := ⟨false, 7⟩, hint := ⟨false, 0, false, false, false, false⟩, fn := 0, d := .v 1, a := .v 0, b := .v 0, imm := 7 }) (placed 0)).isSome = true ∧
    ends (exec (.movi { g := ⟨false, 7⟩, hint := ⟨false, 0, false, false, false, false⟩, fn := 0, d := .v 1, a := .v 0, b := .v 0, imm := 7 }) (placed 0))
      (fun t => t.m.mem == (placed 0).m.mem) = true := ⟨trivial, by decide +kernel⟩
theorem start_frame : Starts (.coll collForm) ∧ (openCx (.coll collForm) (placed 0)).isSome = true ∧
    ends (exec (.coll collForm) (placed 0)) (fun t => t.m.mem == (placed 0).m.mem) = true := ⟨trivial, by decide +kernel⟩
theorem store_frame : ends (exec (.storePerform 0 0) stStore) (fun t => t.m.mem.get 0x10004 == stStore.m.mem.get 0x10004) = true := by decide +kernel
theorem step_keeps_form : State.reset.m.mem.wf = true ∧ ends (step State.reset) (fun t => t.m.mem.wf) = true := by decide +kernel

end Sys2Proof.Tests
end

section
/-! PROOFS. The scope of the model (00_scope.md R2, R3, R5): the state after reset, writes of bytes, absent units, and what every
step keeps: CAPS, the clock and the canonical form of memory. -/
namespace Sys2Proof.Machine
open Sys2Proof

/-! ### The state after reset -/

/-- Settles O11: the tables of the state after reset are empty, so every record that they do not list has its reset value. -/
theorem resetState : Obligations.ResetState := by
  refine ⟨rfl, rfl, rfl, rfl, rfl, rfl, rfl, rfl, rfl, rfl, rfl, rfl, rfl, rfl, rfl, fun d => ⟨rfl, rfl, rfl, rfl⟩,
    fun k => ⟨rfl, rfl⟩, fun c => rfl, rfl, rfl, rfl, rfl, rfl, rfl, rfl, rfl, rfl, rfl, rfl, rfl, rfl, ?_⟩
  exact ⟨rfl, rfl, rfl, rfl, rfl, rfl, rfl, rfl⟩

/-! ### Writes of bytes -/

/-- Of writes at distinct places, each place reads the byte that was written to it. -/
theorem put_get (f : FMap 8) (ks : List Nat) (bs : List Byte) (n : Nat) (hk : ks.Nodup) (hl : bs.length = ks.length)
    (hn : n < ks.length) : (Spec.put f ks bs).get (ks.getD n 0) = bs.getD n 0 := by
  induction ks generalizing f bs n with
  | nil => simp at hn
  | cons k ks ih =>
    obtain ⟨hk1, hk2⟩ := List.nodup_cons.1 hk
    cases bs with
    | nil => simp at hl
    | cons b bs =>
      cases n with
      | zero =>
        have later : ∀ e ∈ ks.zip bs, e.1 ≠ k := fun e he h => hk1 (h ▸ (List.of_mem_zip he).1)
        exact (foldl_set_get_ne _ k later _).trans (FMap.get_set_eq f k b)
      | succ n => exact ih (f.set k b) bs n hk2 (by simpa using hl) (by simpa using hn)

/-- Reading after a write of consecutive bytes. -/
theorem setList_get (f : FMap 8) (k : Nat) (bs : List Byte) (a : Nat) :
    (f.setList k bs).get a = if k ≤ a ∧ a < k + bs.length then bs.getD (a - k) 0 else f.get a := by
  induction bs generalizing f k with
  | nil => simp [FMap.setList]
  | cons b bs ih =>
    rw [FMap.setList, ih, FMap.get_set, List.length_cons]
    by_cases h0 : a = k
    · subst h0; simp
    · by_cases h1 : k + 1 ≤ a
      · obtain ⟨j, rfl⟩ := Nat.exists_eq_add_of_le h1
        simp [show k + 1 + j - k = j + 1 by omega, show k + 1 + j < k + (bs.length + 1) ↔ k + 1 + j < k + 1 + bs.length by omega, h0,
          show k ≤ k + 1 + j by omega]
      · rw [if_neg (by omega), if_neg h0, if_neg (by omega)]

/-- Settles O10, by induction on the bytes that are written. -/
theorem memoryWrites : Obligations.MemoryWrites :=
  ⟨reset_mem_wf, fun _ k v h => FMap.set_wf k v h, fun _ ks bs h => foldl_set_wf (ks.zip bs) h,
    fun f ks bs a h => foldl_set_get_ne (ks.zip bs) a (fun _ he hea => h (hea ▸ (List.of_mem_zip he).1)) f,
    put_get, setList_get⟩

/-! ### Absent units -/

/-- Settles O15: only the gossip and the field instructions need a unit, and the issue of each checks it before anything else. -/
theorem absentUnitTraps : Obligations.AbsentUnitTraps := by
  intro s i c ho hu
  obtain ⟨-, -, -, hi, -⟩ := openCx_spec ho
  have needs : i.needsGossip = true ∨ i.needsField = true := by
    simp only [Cx.unitAbsent, hi, Bool.or_eq_true, Bool.and_eq_true] at hu
    exact hu.imp And.left And.left
  cases i with
  | gadd | grd | gsprd | gsync | gctlStart | gctlStop | gctlRate | gctlStep | gmass | fbind | fld | fldg | fst | fstg | fwt
    | fdrn | fclr => exact issue_absent ho hu
  | _ => exact (needs.elim Bool.false_ne_true Bool.false_ne_true).elim

/-! ### CAPS and the clock -/

/-- Every arm of `exec` is the issue of an instruction word, an event of the part, or ERET. -/
theorem exec_shape (i : Instr) (s : State) :
    (∃ act, exec i s = issue i act s) ∨ (∃ r, exec i s = event s r) ∨ ∃ w, i = .eret w := by
  cases i with
  | pageWalk | rmaRead | ueAtomic | doorbellWrite | congestionMark | remoteCpybArrive | rmaWrite | gossipMessageArrive =>
    exact .inr (.inl ⟨some _, rfl⟩)
  | clauseStart | deschedule | packEnter | warpUrgent | operationFault | l2Evict | mmaEngineEntry | gangRendezvous |
    gangBroken | waitPollTimer | sleepTimeout | sleepComplete | batchRetire | cpybNoRoute | warpStop | warpSlotFree |
    blockResume | faultTimeout | packetFetch | tlbInvalidatePacket | codeMap | codeUnmap | completionRecord | partSet |
    partClear | zeroisation | ctxSet | runlistWrite | ringRestart | kill | tlbinv | fwLoad | attest | mcReset | sliceExpiry |
    higherClassReady | graceExpiry | killtExpiry | engineDrained | killComplete | softErrorCorrected | uncorrectableError |
    l1TagError | scrub | flitReceive | linkDown | linkUp | rateRecovery | collAbort | gossipEnquiry | powerOn | railTimeout |
    powerOff | bootStage | currentSample | thermalSustained | thermalShutdown | reset | junctionAt105 | junctionBelow100 |
    hostRmaCompletion | varComplete | storePerform | atomicGroup | mqGateAdmit | fieldPair | copyPieceLand | cpybFinish |
    cpybRecord | haltBroadcast | handlerEntry | launchPacket | blockPlace | launchComplete | contextSave | contextRestore |
    l2TagOrEvictError | collInstanceRun | gossipSnapshot | freeRunTick | gossipDecisionLearned =>
    exact .inr (.inl ⟨_, rfl⟩)
  | eret w => exact .inr (.inr ⟨w, rfl⟩)
  | _ => exact .inl ⟨_, rfl⟩  -- the other instruction words

/-- Whatever an instruction or event leaves is its own state with another machine, at a cycle no earlier. -/
theorem exec_lift {i : Instr} {s t : State} (h : exec i s = .next t) : ∃ n m, t = s.lift n m := by
  obtain ⟨act, e⟩ | ⟨r, e⟩ | ⟨w, rfl⟩ := exec_shape i s
  · rw [e] at h
    obtain ⟨n, m, e⟩ | e := issue_cases i act s <;> rw [e] at h <;> cases h
    exact ⟨n, m, rfl⟩
  · rw [e] at h
    obtain ⟨n, m, -, e⟩ | ⟨-, e⟩ := event_cases s r <;> rw [e] at h <;> cases h
    exact ⟨n, m, rfl⟩
  · change execEret w s = _ at h
    unfold execEret at h
    cases ho : openCx (.eret w) s with
    | none => rw [ho] at h; cases h
    | some c => rw [ho] at h; cases h; exact ⟨_, _, rfl⟩

/-- What every step keeps of a state: CAPS stands and the clock does not fall. -/
def KeepsCapsAndClock (s t : State) : Prop := t.caps = s.caps ∧ s.now ≤ t.now

theorem lift_keeps (s : State) (n : Nat) (m : Mach) : KeepsCapsAndClock s (s.lift n m) := ⟨rfl, Nat.le_max_left _ _⟩

theorem exec_keeps {i : Instr} {s t : State} (h : exec i s = .next t) : KeepsCapsAndClock s t := by
  obtain ⟨n, m, rfl⟩ := exec_lift h
  exact lift_keeps s n m

theorem fetchFault_keeps (s : State) (b w cause : Nat) : KeepsCapsAndClock s (s.fetchFault b w cause) := by
  unfold State.fetchFault
  split
  · exact ⟨rfl, le_rfl⟩
  · split
    · exact ⟨rfl, le_rfl⟩
    · dsimp only
      split <;> exact lift_keeps ..

/-- What the word of the warp in focus leaves: the state of its fault or of its issue, with no warp in focus; or, where no word is due,
the state itself so. -/
theorem runFocus_cases {s t : State} (h : s.runFocus = .next t) :
    ∃ u, t = u.unfocus ∧ (u = s ∨ (∃ b w cause, u = s.fetchFault b w cause) ∨ ∃ i, exec i s = .next u) := by
  unfold State.runFocus at h
  split at h
  · cases h; exact ⟨s, rfl, .inl rfl⟩
  · cases h; exact ⟨_, rfl, .inr (.inl ⟨_, _, _, rfl⟩)⟩
  · split at h
    · cases h
    · rename_i i _
      cases he : exec i s with
      | next u => rw [he] at h; cases h; exact ⟨u, rfl, .inr (.inr ⟨i, he⟩)⟩
      | fault | refused => rw [he] at h; cases h

theorem runFocus_keeps {s t : State} (h : s.runFocus = .next t) : KeepsCapsAndClock s t := by
  obtain ⟨u, rfl, rfl | ⟨b, w, cause, rfl⟩ | ⟨i, he⟩⟩ := runFocus_cases h
  · exact ⟨rfl, le_rfl⟩
  · exact fetchFault_keeps s b w cause
  · exact (exec_keeps he :)

/-- What a step can do: an instruction or event, from outside or of the part's own; the word of the warp in focus, or of the one that
comes into focus; or the next cycle. -/
theorem step_cases {s t : State} (h : step s = .next t) :
    (∃ i rest, s.m.inbox = i :: rest ∧ exec i { s with m := { s.m with inbox := rest } } = .next t) ∨
      s.runFocus = .next t ∨ (∃ i, exec i s = .next t) ∨ (∃ b w, (s.focusOn b w).runFocus = .next t) ∨
      t = s.lift (s.now + 1) (s.m.countReady s.now) := by
  unfold step at h
  split at h
  · exact .inl ⟨_, _, ‹_›, h⟩
  · split at h
    · exact .inr (.inl h)
    · unfold State.advance at h
      split at h
      · exact .inr (.inr (.inl ⟨_, h⟩))
      · exact .inr (.inr (.inr (.inl ⟨_, _, h⟩)))
      · cases h; exact .inr (.inr (.inr (.inr rfl)))

/-- Settles O8: of what a step can do, each part ends in `State.lift`. -/
theorem stepKeepsCapsAndClock : Obligations.StepKeepsCapsAndClock := by
  intro s t h
  obtain ⟨i, rest, -, h⟩ | h | ⟨i, h⟩ | ⟨b, w, h⟩ | rfl := step_cases h
  · exact (exec_keeps h :)
  · exact (runFocus_keeps h :)
  · exact (exec_keeps h :)
  · exact (runFocus_keeps h :)
  · exact lift_keeps ..

end Sys2Proof.Machine
end

section
/-! PROOFS. What the functions of the machine leave of memory: those that write none leave it as it was (`f_mem`), and
those that write keep its canonical form (`f_wf`; 00_scope.md R5). -/
namespace Sys2Proof.Machine
open Sys2Proof Mach
variable {m m' : Mach}

/-! ### Folds over the machine -/

theorem foldl_mem {α : Type} {f : Mach → α → Mach} (hf : ∀ m x, (f m x).mem = m.mem) (l : List α) (m : Mach) :
    (l.foldl f m).mem = m.mem := by
  induction l generalizing m with
  | nil => rfl
  | cons x l ih => exact (ih _).trans (hf m x)

theorem foldl_wf {α : Type} {f : Mach → α → Mach} (hf : ∀ m x, m.mem.wf = true → (f m x).mem.wf = true)
    (l : List α) (m : Mach) (h : m.mem.wf = true) : (l.foldl f m).mem.wf = true := by
  induction l generalizing m with
  | nil => exact h
  | cons x l ih => exact ih _ (hf m x h)

theorem foldl_fst_wf {α β : Type} {f : Mach × β → α → Mach × β}
    (hf : ∀ p x, p.1.mem.wf = true → (f p x).1.mem.wf = true) (l : List α) (p : Mach × β) (h : p.1.mem.wf = true) :
    (l.foldl f p).1.mem.wf = true := by
  induction l generalizing p with
  | nil => exact h
  | cons x l ih => exact ih _ (hf p x h)

@[simp] theorem claimLine_mem (ctx line) : (m.claimLine ctx line).mem = m.mem := by
  obtain ⟨d, hd⟩ := claimLine_eq m ctx line; rw [hd]
@[simp] theorem walked_mem (ctx va) : (m.walked ctx va).mem = m.mem := by
  obtain ⟨d, hd⟩ := walked_eq m ctx va; rw [hd]

theorem getD_wf {r : Option Mach} {d : Mach} (hr : ∀ m', r = some m' → m'.mem.wf = true) (hd : d.mem.wf = true) :
    (r.getD d).mem.wf = true := by
  cases r with
  | none => exact hd
  | some m => exact hr m rfl

/-! ### Translation -/

@[simp] theorem tlbFill_mem (core e) : (m.tlbFill core e).mem = m.mem := rfl
@[simp] theorem translate_mem (core ctx va acc) : (m.translate core ctx va acc).1.mem = m.mem := by
  unfold Mach.translate
  grind [walked_mem, tlbFill_mem]

/-! ### A warp put back -/

@[simp] theorem setWarp_mem (b w x) : (m.setWarp b w x).mem = m.mem := by
  unfold Mach.setWarp
  split <;> rfl

/-! ### Accesses by lane -/

@[simp] theorem l1Fill_mem (part core ctx line) : (m.l1Fill part core ctx line).mem = m.mem := by
  unfold Mach.l1Fill
  grind [claimLine_mem]
@[simp] theorem acquire_mem (part core ctx scope) : (m.acquire part core ctx scope).mem = m.mem := by
  unfold Mach.acquire
  grind
@[simp] theorem l1Drop_mem (part core ctx keys) : (m.l1Drop part core ctx keys).mem = m.mem := rfl
theorem storeThrough_wf (part core ctx keys data) (h : m.mem.wf = true) :
    (m.storeThrough part core ctx keys data).mem.wf = true := by
  unfold Mach.storeThrough
  grind [write_wf]
theorem translateLanes_mem (part core ctx size acc as) : (m.translateLanes part core ctx size acc as).1.mem = m.mem := by
  induction as generalizing m with
  | nil => rfl
  | cons a as ih =>
    obtain ⟨l, a⟩ := a
    unfold Mach.translateLanes
    dsimp only
    split <;> rw [ih] <;> split <;> simp only [translate_mem]
theorem checkLanes_mem (blk la sp atomic acc size ia slot as) :
    (m.checkLanes blk la sp atomic acc size ia slot as).1.mem = m.mem := by
  unfold Mach.checkLanes
  dsimp only
  split
  · rfl
  · cases sp with
    | g => dsimp only; split <;> exact translateLanes_mem ..
    | s | c | a => rfl

/-! ### Kills, write-back and bad data -/

@[simp] theorem countUe_mem (d ch src) : (m.countUe d ch src).mem = m.mem := rfl
@[simp] theorem killNow_mem (t ctx cause status) : (m.killNow t ctx cause status).mem = m.mem := rfl
@[simp] theorem kill_mem (t ctx cause status) : (m.kill t ctx cause status).mem = m.mem := by
  unfold Mach.kill
  grind [killNow_mem, check_mem]
@[simp] theorem killPart_mem (t p cause status) : (m.killPart t p cause status).mem = m.mem := by
  unfold Mach.killPart
  grind [kill_mem, foldl_mem]
@[simp] theorem losePart_mem (t p cause line) : (m.losePart t p cause line).mem = m.mem := by
  unfold Mach.losePart
  grind [setCtx_mem, kill_mem, check_mem, foldl_mem]
theorem writeBackLine_wf (t line) (h : m.mem.wf = true) : (m.writeBackLine t line).mem.wf = true := by
  unfold Mach.writeBackLine
  grind [countUe_mem, loseLine_wf, losePart_mem]
theorem writeBack_wf (t p) (h : m.mem.wf = true) : (m.writeBack t p).mem.wf = true := by
  unfold Mach.writeBack
  grind [writeBackLine_wf, foldl_wf]
theorem dropCached_wf (t ctx) (h : m.mem.wf = true) : (m.dropCached t ctx).mem.wf = true := by
  unfold Mach.dropCached
  grind [writeBack_wf]
@[simp] theorem foundBad_mem (keys) : (m.foundBad keys).mem = m.mem := by
  unfold Mach.foundBad
  split <;> rfl
@[simp] theorem foundEach_mem (keys) : (m.foundEach keys).mem = m.mem := by
  unfold Mach.foundEach
  grind [foundBad_mem, foldl_mem]
@[simp] theorem consumeWalk_mem (t ctx va) : (m.consumeWalk t ctx va).mem = m.mem := by
  unfold Mach.consumeWalk
  grind [kill_mem, foundBad_mem]
@[simp] theorem foundFault_mem (core ctx f) : (m.foundFault core ctx f).mem = m.mem := by
  unfold Mach.foundFault
  grind [foundBad_mem]
@[simp] theorem consume_mem (t ctx keys) : (m.consume t ctx keys).mem = m.mem := by
  unfold Mach.consume
  grind [kill_mem, foundBad_mem]
theorem consumeWrite_wf {wr : Mach → Mach} (t ctx keys) (h : m.mem.wf = true) (hw : (wr m).mem.wf = true) :
    (m.consumeWrite t ctx keys wr).mem.wf = true := by
  unfold Mach.consumeWrite; grind [kill_mem, foundBad_mem]

/-! ### Loads, cache maintenance and atomics -/

@[simp] theorem loadLanes_mem (blk la queue t sp ks) : (m.loadLanes blk la queue t sp ks).1.mem = m.mem := by
  unfold Mach.loadLanes
  grind [l1Fill_mem, foldl_mem]
theorem cmnt_wf {t blk op a n} (h : m.mem.wf = true) (e : m.cmnt t blk op a n = .ok m') : m'.mem.wf = true := by
  unfold Mach.cmnt at e
  grind [foundEach_mem, writeBack_wf]
theorem rmwLane_wf (t b core ctx part size sp op a) (h : m.mem.wf = true) :
    (m.rmwLane t b core ctx part size sp op a).1.mem.wf = true := by
  unfold Mach.rmwLane
  grind [l1Drop_mem, write_wf, setBlock_mem]

/-! ### Writes at virtual addresses -/

theorem writeVirt_wf {t ctx va data} (h : m.mem.wf = true) (e : m.writeVirt t ctx va data = .ok m') : m'.mem.wf = true := by
  unfold Mach.writeVirt at e
  grind [consumeWalk_mem, consumeWrite_wf, write_wf]
theorem writeSeen_wf {t ctx va data} (h : m.mem.wf = true) (e : m.writeSeen t ctx va data = .ok m') : m'.mem.wf = true := by
  unfold Mach.writeSeen at e
  grind [consumeWalk_mem, consumeWrite_wf, purge_mem, write_wf]
theorem putRecord_wf {t ctx va r bytes} (h : m.mem.wf = true) (e : m.putRecord t ctx va r bytes = .ok m') : m'.mem.wf = true := by
  unfold Mach.putRecord at e
  split at e
  · cases e
  · rename_i written
    have hw := writeSeen_wf h written
    split at e
    · cases e; exact hw
    · exact writeSeen_wf hw e
@[simp] theorem reread_mem (t) : (m.reread t).mem = m.mem := by
  unfold Mach.reread
  grind [consume_mem, foldl_mem]

/-! ### The field unit -/

@[simp] theorem fbindRun_mem (t b blk la o f a) : (fbindRun m t b blk la o f a).1.mem = m.mem := by
  unfold fbindRun
  grind [checkLanes_mem, consume_mem, loadLanes_mem, setBlock_mem]
@[simp] theorem fldRun_mem (t blk la o f grad x) : (fldRun m t blk la o f grad x).1.mem = m.mem := by
  unfold fldRun
  grind [checkLanes_mem, consume_mem, loadLanes_mem]
@[simp] theorem fieldRun_mem (t b blk o i a x) : (fieldRun m t b blk o i a x).1.mem = m.mem := by
  unfold fieldRun
  grind [fbindRun_mem, fldRun_mem]
theorem updateAt_wf (t b sp keys data) (h : m.mem.wf = true) : (m.updateAt t b sp keys data).mem.wf = true := by
  unfold Mach.updateAt
  grind [consumeWrite_wf, l1Drop_mem, write_wf, setBlock_mem]
theorem splatPair_wf (t b blk la o i f d x v pair) (h : m.mem.wf = true) :
    (splatPair m t b blk la o i f d x v pair).1.mem.wf = true := by
  unfold splatPair
  grind [checkLanes_mem, updateAt_wf, foldl_fst_wf]
theorem bulkPair_wf (t b blk la o i f d s e) (h : m.mem.wf = true) : (bulkPair m t b blk la o i f d s e).1.mem.wf = true := by
  unfold bulkPair
  grind [checkLanes_mem, consume_mem, claim_mem, updateAt_wf, foldl_fst_wf]
theorem fieldPair_wf {t b w} (h : m.mem.wf = true) (e : m.fieldPair t b w = some m') : m'.mem.wf = true := by
  unfold Mach.fieldPair at e
  split at e
  · cases e
  split at e
  · cases e
  split at e
  · cases e
  split at e
  · split at e
    · cases e
    · grind [setWarp_mem, bulkPair_wf, splatPair_wf]
  · cases e

/-! ### The matrix engine -/

@[simp] theorem coreRead_mem (t blk la o va n) : (m.coreRead t blk la o va n).1.mem = m.mem := by
  unfold Mach.coreRead
  grind [checkLanes_mem, consume_mem, loadLanes_mem]
@[simp] theorem readHeader_mem (t blk la o e) : (readHeader m t blk la o e).1.mem = m.mem := by
  unfold readHeader
  grind [coreRead_mem]
@[simp] theorem mmaEnter_mem (caps t blk la o f b c) : (mmaEnter caps m t blk la o f b c).1.mem = m.mem := by
  unfold mmaEnter
  grind [readHeader_mem]
theorem patina_wf (t la bytes) (h : m.mem.wf = true) : (m.patina t la bytes).mem.wf = true := by
  unfold Mach.patina
  grind [consumeWalk_mem, consume_mem, brought_mem, putRecord_wf, writeVirt_wf]
theorem shadow_wf (t b la f r xs) (h : m.mem.wf = true) : (m.shadow t b la f r xs).mem.wf = true := by
  unfold Mach.shadow
  grind [setBlock_mem, patina_wf]
theorem afterDrain_wf (t b la f r xs) (h : m.mem.wf = true) : (m.afterDrain t b la f r xs).mem.wf = true := by
  unfold Mach.afterDrain
  grind [shadow_wf, setBlock_mem]
theorem mdrnRun_wf (t b w blk la o f c) (h : m.mem.wf = true) : (mdrnRun m t b w blk la o f c).1.mem.wf = true := by
  unfold mdrnRun
  grind [afterDrain_wf, setWarp_mem]
theorem mstpRun_wf (t b blk la o f a s c) (h : m.mem.wf = true) : (mstpRun m t b blk la o f a s c).1.mem.wf = true := by
  unfold mstpRun
  grind [checkLanes_mem, consumeWrite_wf, storeThrough_wf, afterDrain_wf, foldl_wf]
@[simp] theorem coreRows_mem (t blk la o n as) : (m.coreRows t blk la o n as).1.mem = m.mem := by
  unfold Mach.coreRows
  grind [checkLanes_mem, consume_mem, loadLanes_mem]
@[simp] theorem mldbRun_mem (t b blk la o f a s c) : (mldbRun m t b blk la o f a s c).1.mem = m.mem := by
  unfold mldbRun
  grind [coreRows_mem, setBlock_mem]
@[simp] theorem mldcRun_mem (t b blk la o f a s c) : (mldcRun m t b blk la o f a s c).1.mem = m.mem := by
  unfold mldcRun
  grind [coreRows_mem, setBlock_mem]
@[simp] theorem mclrRun_mem (b blk o a s) : (mclrRun m b blk o a s).1.mem = m.mem := by
  unfold mclrRun
  grind [setBlock_mem]
@[simp] theorem permRun_mem (b blk o f a from_) : (permRun m b blk o f a from_).1.mem = m.mem := by
  unfold permRun
  split <;> rfl
@[simp] theorem mredRun_mem (b blk la o f a s) : (mredRun m b blk la o f a s).1.mem = m.mem := by
  unfold mredRun
  split <;> rfl
@[simp] theorem mhistRun_mem (b blk o f) : (mhistRun m b blk o f).1.mem = m.mem := by
  unfold mhistRun
  split <;> rfl
@[simp] theorem gangRun_mem (b w blk o a) : (gangRun m b w blk o a).1.mem = m.mem := by
  unfold gangRun
  grind [setWarp_mem]
theorem matrixRun_wf (t b w blk o i a s c) (h : m.mem.wf = true) : (matrixRun m t b w blk o i a s c).1.mem.wf = true := by
  unfold matrixRun
  grind [gangRun_mem, mldbRun_mem, mldcRun_mem, mclrRun_mem, mdrnRun_wf, mstpRun_wf, permRun_mem, mredRun_mem, mhistRun_mem]
theorem mmaEntry_mem {caps t b w} (e : m.mmaEntry caps t b w = some m') : m'.mem = m.mem := by
  unfold Mach.mmaEntry at e
  split at e
  · cases e
  split at e
  · cases e
  split at e
  · cases e
  split at e
  · extract_lets la f g x at e
    split at e
    · cases e; exact setWarp_mem ..
    split at e
    · cases e; exact setWarp_mem ..
    split at e
    rename_i m1 r entered
    have h1 : m1.mem = m.mem := by simpa using (congrArg (·.1.mem) entered).symm
    split at e
    · cases e; exact h1
    · cases e; exact h1
    · cases e; exact (setWarp_mem ..).trans h1
    · grind [setWarp_mem, setBlock_mem]
  · cases e
theorem gangRendezvous_mem {b mask} (e : m.gangRun? b mask = some m') : m'.mem = m.mem := by
  unfold Mach.gangRun? at e
  grind [setBlock_mem]
theorem gangBreak_mem {b mask} (e : m.gangBreak? b mask = some m') : m'.mem = m.mem := by
  unfold Mach.gangBreak? at e
  grind [setBlock_mem]

/-! ### Copies, barriers and batches -/

theorem setBar_wf (t b global keys x) (h : m.mem.wf = true) : (m.setBar t b global keys x).mem.wf = true := by
  unfold Mach.setBar
  grind [updateAt_wf]
theorem copySource_mem {blk dir src n data bs} (e : m.copySource blk dir src n data = .ok (.inr (m', bs))) : m'.mem = m.mem := by
  cases data with
  | some d => cases e; rfl
  | none => unfold Mach.copySource at e; grind [brought_mem]
theorem copyLand_wf {t b w op piece} (h : m.mem.wf = true) (e : m.copyLand t b w op piece = some m') : m'.mem.wf = true := by
  unfold Mach.copyLand at e
  split at e
  · cases e
  split at e
  · cases e
  split at e
  · split at e
    · cases e
    split at e
    · cases e
    dsimp only at e
    split at e <;>
      grind [copySource_mem, consume_mem, setWarp_mem, consumeWrite_wf, storeThrough_wf, updateAt_wf, setBar_wf]
  · cases e
@[simp] theorem startBulk_mem (t b w op blk r) : (m.startBulk t b w op blk r).mem = m.mem := rfl
theorem cpybTurn_mem {t b w op blk x o a y z} (e : m.cpybTurn t b w op blk x o a y z = some m') : m'.mem = m.mem := by
  unfold Mach.cpybTurn at e
  grind [setWarp_mem, checkLanes_mem, consume_mem, loadLanes_mem, startBulk_mem]
theorem batchRetire_mem {t b w cls} (e : m.batchRetire t b w cls = some m') : m'.mem = m.mem := by
  unfold Mach.batchRetire at e
  grind [setBlock_mem]
theorem barTurn_wf (t b blk o i f a x) (h : m.mem.wf = true) : (m.barTurn t b blk o i f a x).1.mem.wf = true := by
  unfold Mach.barTurn
  grind [checkLanes_mem, consume_mem, claim_mem, setBar_wf]
theorem sleepTimeout_mem {now b w op} (e : m.sleepTimeout now b w op = some m') : m'.mem = m.mem := by
  unfold Mach.sleepTimeout at e
  grind [setWarp_mem]

/-! ### System registers -/

@[simp] theorem sysRead_mem (sel idx) : (m.sysRead sel idx).2.mem = m.mem := by
  unfold Mach.sysRead
  grind [setCluster_mem, setDie_mem]
@[simp] theorem setQuota_mem (part core k x) : (m.setQuota part core k x).mem = m.mem := rfl
@[simp] theorem setCsched_mem (core svc) : (m.setCsched core svc).mem = m.mem := rfl
theorem retag_wf (t ctx old new) (h : m.mem.wf = true) : (m.retag t ctx old new).mem.wf = true := by
  unfold Mach.retag
  grind [dropCached_wf]
theorem sysWrite_wf {t sel idx x} (h : m.mem.wf = true) (e : m.sysWrite t sel idx x = some m') : m'.mem.wf = true := by
  unfold Mach.sysWrite at e
  grind [setCsched_mem, setDie_mem, setChannel_mem, setQuota_mem, setCtx_mem, retag_wf]

/-! ### Gossip -/

@[simp] theorem setGossip_mem (ctx rgn g) : (m.setGossip ctx rgn g).mem = m.mem := rfl
theorem regionWrite_wf (ctx p g va data) (h : m.mem.wf = true) : (m.regionWrite ctx p g va data).mem.wf = true := by
  unfold Mach.regionWrite
  grind [write_wf]
theorem setChunk_wf (ctx p g c vs w) (h : m.mem.wf = true) : (m.setChunk ctx p g c vs w).mem.wf = true := by
  unfold Mach.setChunk
  grind [regionWrite_wf]
theorem snapshot_wf (t ctx rgn c j step g) (h : m.mem.wf = true) : (m.snapshot t ctx rgn c j step g).mem.wf = true := by
  unfold Mach.snapshot
  grind [consume_mem, setChunk_wf, setGossip_mem]
theorem freeRunTick_wf {now ctx rgn} (h : m.mem.wf = true) (e : m.freeRunTick now ctx rgn = some m') : m'.mem.wf = true := by
  unfold Mach.freeRunTick at e
  grind [snapshot_wf, Option.map_eq_some_iff]
theorem gossipSnapshot_wf {now ctx rgn c j} (h : m.mem.wf = true) (e : m.gossipSnapshot now ctx rgn c j = some m') :
    m'.mem.wf = true := by
  unfold Mach.gossipSnapshot at e
  grind [snapshot_wf, setWarp_mem, freeRunTick_wf]
theorem applyMsg_wf (t x g j) (h : m.mem.wf = true) : (m.applyMsg t x g j).mem.wf = true := by
  unfold Mach.applyMsg
  grind [consume_mem, regionWrite_wf, setChunk_wf, setGossip_mem]
theorem gossipArrive_wf (t x) (h : m.mem.wf = true) : (m.gossipArrive t x).mem.wf = true := by
  unfold Mach.gossipArrive
  grind [applyMsg_wf]
theorem gossipEnquiry_mem {now id} (e : m.gossipEnquiry now id = some m') : m'.mem = m.mem := by
  unfold Mach.gossipEnquiry at e
  split at e
  · cases e
  · split at e <;> cases e; rfl
theorem addBack_wf (t x g) (h : m.mem.wf = true) : (m.addBack t x g).mem.wf = true := by
  unfold Mach.addBack
  grind [consume_mem, setChunk_wf, setGossip_mem]
theorem gossipLearned_wf {t id applied} (h : m.mem.wf = true) (e : m.gossipLearned t id applied = some m') :
    m'.mem.wf = true := by
  unfold Mach.gossipLearned at e
  grind [setGossip_mem, addBack_wf, setWarp_mem]
theorem bindRegion_wf (t ctx rgn g) (h : m.mem.wf = true) : (m.bindRegion t ctx rgn g).mem.wf = true := by
  unfold Mach.bindRegion
  grind [consume_mem, consumeWrite_wf, claim_mem, regionWrite_wf, setGossip_mem, foldl_wf]
theorem gctlStart_wf (t blk o rgn a) (h : m.mem.wf = true) : (m.gctlStart t blk o rgn a).1.mem.wf = true := by
  unfold Mach.gctlStart
  grind [consume_mem, brought_mem, bindRegion_wf]
theorem gaddApply_wf (t blk rgn xs) (h : m.mem.wf = true) : (m.gaddApply t blk rgn xs).mem.wf = true := by
  unfold Mach.gaddApply
  grind [consume_mem, setGossip_mem, regionWrite_wf, foldl_wf]
@[simp] theorem grdRun_mem (t blk o f g a b c) : (m.grdRun t blk o f g a b c).1.mem = m.mem := by
  unfold Mach.grdRun
  grind [consume_mem, claim_mem]
@[simp] theorem gsprdRun_mem (t blk o f g b c) : (m.gsprdRun t blk o f g b c).1.mem = m.mem := by
  unfold Mach.gsprdRun
  grind [consume_mem, claim_mem]
theorem gossipRun_wf (t b w op blk o i f a x c) (h : m.mem.wf = true) :
    (m.gossipRun t b w op blk o i f a x c).1.mem.wf = true := by
  unfold Mach.gossipRun
  grind [gctlStart_wf, setWarp_mem, grdRun_mem, gsprdRun_mem, setGossip_mem, setCtx_mem]

/-! ### Collectives -/

theorem collAccept_mem {t blk o f a b c} (e : m.collAccept t blk o f a b c = .ok (m', x)) : m'.mem = m.mem := by
  unfold Mach.collAccept at e
  grind [consume_mem, brought_mem]
theorem collRun_wf {t b w op others} (h : m.mem.wf = true) (e : m.collRun t b w op others = some m') : m'.mem.wf = true := by
  unfold Mach.collRun at e
  grind [setWarp_mem, consume_mem, brought_mem, updateAt_wf]
theorem collAbortOp_mem {b w op} (e : m.collAbortOp b w op = some m') : m'.mem = m.mem := by
  unfold Mach.collAbortOp at e
  grind [setWarp_mem]

/-! ### Scheduling -/

@[simp] theorem mapPack_mem (p f) : (m.mapPack p f).mem = m.mem := by
  unfold Mach.mapPack
  split <;> rfl
@[simp] theorem retimeWarp_mem (t b w) : (m.retimeWarp t b w).mem = m.mem := by
  unfold Mach.retimeWarp
  grind [setWarp_mem]
@[simp] theorem retime_mem (t b p) : (m.retime t b p).mem = m.mem := by
  unfold Mach.retime
  grind [setBlock_mem, retimeWarp_mem, foldl_mem]
theorem packEnter_mem {t core slot} (e : m.packEnter t core slot = some m') : m'.mem = m.mem := by
  unfold Mach.packEnter at e
  grind [mapPack_mem, setSlotOf_mem, retime_mem]
theorem deschedule_mem {t core slot p} (e : m.deschedule t core slot p = some m') : m'.mem = m.mem := by
  unfold Mach.deschedule at e
  grind [mapPack_mem, setSlotOf_mem]
@[simp] theorem startClause_mem (t e) : (m.startClause t e).mem = m.mem := rfl
@[simp] theorem codeSeen_mem (b w) : (m.codeSeen b w).mem = m.mem := by
  unfold Mach.codeSeen
  grind [brought_mem]
theorem clauseStart_mem {t core slot} (e : m.clauseStart t core slot = some m') : m'.mem = m.mem := by
  unfold Mach.clauseStart at e
  grind [setWarp_mem, setSlotOf_mem, codeSeen_mem, startClause_mem, foldl_mem]
theorem warpUrgent_mem {t b w} (e : m.warpUrgent t b w = some m') : m'.mem = m.mem := by
  unfold Mach.warpUrgent at e
  grind [setWarp_mem]
@[simp] theorem countReady_mem (t) : (m.countReady t).mem = m.mem := rfl

/-! ### The maquette -/

theorem mqWrite_wf (t la va data) (h : m.mem.wf = true) : (m.mqWrite t la va data).mem.wf = true := by
  unfold Mach.mqWrite
  grind [writeVirt_wf]
theorem mqBegin_wf (t la) (h : m.mem.wf = true) : (m.mqBegin t la).mem.wf = true := by
  unfold Mach.mqBegin
  grind [mqWrite_wf, foldl_wf]
theorem mqRecord_wf (t id la b w slice) (h : m.mem.wf = true) : (m.mqRecord t id la b w slice).mem.wf = true := by
  unfold Mach.mqRecord
  grind [mqWrite_wf]
theorem mqEnd_wf (t id la) (h : m.mem.wf = true) : (m.mqEnd t id la).mem.wf = true := by
  unfold Mach.mqEnd
  grind [mqWrite_wf]

/-! ### Operations at their turn -/

@[simp] theorem complete_mem (t b w op o r xs) : (m.complete t b w op o r xs).mem = m.mem := by
  unfold Mach.complete
  split <;> rfl
@[simp] theorem took_mem (t b w op o r) : (m.took t b w op o r).mem = m.mem := by
  unfold Mach.took
  grind [setWarp_mem, complete_mem]
theorem loadTurn_mem {t b w op blk x o sp size scope acq as} {fin : Mach → List (Nat × List Byte) → Mach}
    (hf : ∀ m bs, (fin m bs).mem = m.mem)
    (e : m.loadTurn t b w op blk x o sp size scope acq as fin = some m') : m'.mem = m.mem := by
  unfold Mach.loadTurn at e
  grind [checkLanes_mem, setWarp_mem, acquire_mem, consume_mem, loadLanes_mem]
@[simp] theorem storeTurn_mem (b w op blk x o sp rel scope size as data) :
    (m.storeTurn b w op blk x o sp rel scope size as data).mem = m.mem := by
  unfold Mach.storeTurn
  grind [checkLanes_mem, setWarp_mem]
@[simp] theorem atomicTurn_mem (b w op blk x o f k a y z) : (m.atomicTurn b w op blk x o f k a y z).mem = m.mem := by
  unfold Mach.atomicTurn
  grind [checkLanes_mem, setWarp_mem]
theorem mqchkTurn_mem {t b w op blk x o a} (e : m.mqchkTurn t b w op blk x o a = some m') : m'.mem = m.mem := by
  unfold Mach.mqchkTurn at e
  grind [checkLanes_mem, setWarp_mem, complete_mem, consume_mem, loadLanes_mem]
theorem retryTurn_wf {t b w op blk x o i a y z} (h : m.mem.wf = true) (e : m.retryTurn t b w op blk x o i a y z = some m') :
    m'.mem.wf = true := by
  unfold Mach.retryTurn at e
  split at e
  · cases e
  dsimp only at e
  split at e
  · rw [cpybTurn_mem e]; exact h
  · rw [loadTurn_mem (fun _ _ => complete_mem ..) e]; exact h
  · rw [loadTurn_mem (fun _ _ => by split <;> rfl) e]; exact h
  · cases e; simpa using h
  · cases e; simpa using h
  · grind [cmnt_wf, complete_mem, setWarp_mem]
  · grind [checkLanes_mem, setWarp_mem]
  · rw [mqchkTurn_mem e]; exact h
  · grind [atomicTurn_mem, barTurn_wf, setWarp_mem, complete_mem]
theorem termsTurn_wf (t b w op blk rgn xs) (h : m.mem.wf = true) : (m.termsTurn t b w op blk rgn xs).mem.wf = true := by
  unfold Mach.termsTurn
  grind [gaddApply_wf, setWarp_mem]
theorem varComplete_wf {t b w op} (h : m.mem.wf = true) (e : m.varComplete t b w op = some m') : m'.mem.wf = true := by
  unfold Mach.varComplete at e
  split at e
  · cases e
  split at e
  · cases e
  split at e
  · cases e
  extract_lets x' m1 blk' done at e
  have h1 : m1.mem.wf = true := by simpa [m1] using h
  have hd : ∀ {r xs}, done r xs = some m' → m'.mem.wf = true := fun e => by cases e; simpa using h1
  split at e
  · exact hd e
  · split at e
    · cases e
    · exact hd e
  · split at e
    · cases e
    · exact hd e
  · cases e
  · exact hd e
  · split at e
    · exact hd e
    · cases e
  · split at e
    · grind [acquire_mem, complete_mem]
    · cases e
  · exact retryTurn_wf h1 e
  · split at e
    · cases e; simpa using h1
    · cases e
  · cases e
  · grind [setWarp_mem, matrixRun_wf, complete_mem]
  · exact hd e
  · exact hd e
  · split at e
    · exact hd e
    · cases e
  · split at e
    · cases e; simpa using h1
    · cases e
  · cases e
  · split at e
    · cases e; simpa using h1
    · cases e
  · grind [gossipRun_wf, took_mem]
  · cases e; exact termsTurn_wf _ _ _ _ _ _ _ h1
  · grind [setWarp_mem, collAccept_mem]
  · cases e
theorem operationFault_mem {t b w op} (e : m.operationFault t b w op = some m') : m'.mem = m.mem := by
  unfold Mach.operationFault at e
  grind [setBlock_mem]

/-! ### Stores and atomics as they perform -/

theorem storeLanes_wf (t b blk sp acc) (h : m.mem.wf = true) : (m.storeLanes t b blk sp acc).mem.wf = true := by
  unfold Mach.storeLanes
  grind [consumeWrite_wf, storeThrough_wf, setBlock_mem]
theorem atomicGroup_wf {t b w blk q slice} (h : m.mem.wf = true) (e : m.atomicGroup t b w blk q slice = some m') :
    m'.mem.wf = true := by
  unfold Mach.atomicGroup at e
  split at e
  · cases e
  dsimp only at e
  split at e
  · cases e
  split at e
  · cases e; simpa using h
  · grind [rmwLane_wf, acquire_mem, setWarp_mem, foldl_fst_wf]
theorem protectFault_mem {b w x q hit} (e : m.protectFault b w x q hit = some m') : m'.mem = m.mem := by
  unfold Mach.protectFault at e
  grind [setWarp_mem]
theorem groupEvent_wf {t b w slice} (h : m.mem.wf = true) (e : m.groupEvent t b w slice = some m') : m'.mem.wf = true := by
  unfold Mach.groupEvent at e
  grind [protectFault_mem, mqRecord_wf, atomicGroup_wf, Option.map_eq_some_iff]
theorem storePerform_wf {t b w} (h : m.mem.wf = true) (e : m.storePerform t b w = some m') : m'.mem.wf = true := by
  unfold Mach.storePerform at e
  grind [storeLanes_wf, setWarp_mem, protectFault_mem, groupEvent_wf]
@[simp] theorem diverge_mem (launch slice la) : (m.diverge launch slice la).mem = m.mem := rfl
theorem gateAdmit_wf {t b w slice} (h : m.mem.wf = true) (e : m.gateAdmit t b w slice = some m') : m'.mem.wf = true := by
  unfold Mach.gateAdmit at e
  grind [protectFault_mem, consume_mem, diverge_mem, atomicGroup_wf, claim_mem]
theorem l2Evict_wf {t line} (h : m.mem.wf = true) (e : m.l2Evict t line = some m') : m'.mem.wf = true := by
  unfold Mach.l2Evict at e
  grind [writeBackLine_wf, Option.map_eq_some_iff]
theorem waitPoll_mem {t b w op} (e : m.waitPoll t b w op = some m') : m'.mem = m.mem := by
  unfold Mach.waitPoll at e
  grind [consume_mem, setWarp_mem]
theorem sleepComplete_mem {t b w op} (e : m.sleepComplete t b w op = some m') : m'.mem = m.mem := by
  unfold Mach.sleepComplete at e
  grind [acquire_mem, consume_mem, loadLanes_mem, complete_mem, setWarp_mem]
@[simp] theorem pageWalk_mem (core ctx va acc) : (m.pageWalk core ctx va acc).mem = m.mem := by
  unfold Mach.pageWalk
  grind [translate_mem]
theorem warpSlotFree_mem {t b w} (e : m.warpSlotFree t b w = some m') : m'.mem = m.mem := by
  unfold Mach.warpSlotFree at e
  grind [setWarp_mem]

/-! ### Halt records -/


/-! ### Stops and handlers -/

theorem frameWrite_wf {t blk va data} (h : m.mem.wf = true) (e : m.frameWrite t blk va data = some m') : m'.mem.wf = true := by
  unfold Mach.frameWrite at e
  grind [consumeWalk_mem, consumeWrite_wf, storeThrough_wf]
theorem warpStop_mem {t b w} (e : m.warpStop t b w = some m') : m'.mem = m.mem := by
  unfold Mach.warpStop at e
  grind [setWarp_mem, Option.map_eq_some_iff]
@[simp] theorem faultNotices_mem (blk la fs) : (m.faultNotices blk la fs).mem = m.mem := by
  unfold Mach.faultNotices
  grind [notice_mem, foldl_mem]
@[simp] theorem awaitSystem_mem (t b blk la fs) : (m.awaitSystem t b blk la fs).mem = m.mem := by
  unfold Mach.awaitSystem
  grind [faultNotices_mem, setBlock_mem]
@[simp] theorem routeHalt_mem (t b blk) : (m.routeHalt t b blk).mem = m.mem := by
  unfold Mach.routeHalt
  grind [setBlock_mem, kill_mem, foundFault_mem, faultNotices_mem, awaitSystem_mem]
theorem blockHalts_wf (t b blk) (h : m.mem.wf = true) : (m.blockHalts t b blk).mem.wf = true := by
  unfold Mach.blockHalts
  extract_lets la p blk' m1
  have h1 : m1.mem.wf = true := h
  split
  · exact h1
  · exact getD_wf (fun _ e => frameWrite_wf h1 e) (by simpa using h1)
@[simp] theorem handlerFails_mem (t b w blk s) : (m.handlerFails t b w blk s).mem = m.mem := by
  unfold Mach.handlerFails
  grind [kill_mem, awaitSystem_mem, foundFault_mem]
theorem haltBroadcast_wf {t b n} (h : m.mem.wf = true) (e : m.haltBroadcast t b = some (n, m')) : m'.mem.wf = true := by
  unfold Mach.haltBroadcast at e
  split at e
  · cases e
  split at e
  · cases e
  · grind [routeHalt_mem, handlerFails_mem, setBlock_mem, blockHalts_wf]
theorem recordLate_wf (t b w cause) (h : m.mem.wf = true) : (m.recordLate t b w cause).mem.wf = true := by
  unfold Mach.recordLate
  split
  · exact h
  extract_lets isFirst m1
  have h1 : m1.mem.wf = true := h
  split
  · exact getD_wf (fun _ e => frameWrite_wf h1 e) (by simpa using h1)
  · exact h1
theorem faultEvent_wf {t b w op} (h : m.mem.wf = true) (e : m.faultEvent t b w op = some m') : m'.mem.wf = true := by
  unfold Mach.faultEvent at e
  grind [recordLate_wf, kill_mem, foundFault_mem, operationFault_mem, setWarp_mem, Option.map_eq_some_iff]
theorem handlerEntry_wf {t b w} (h : m.mem.wf = true) (e : m.handlerEntry t b w = some m') : m'.mem.wf = true := by
  unfold Mach.handlerEntry at e
  grind [frameWrite_wf, kill_mem, setBlock_mem]
@[simp] theorem covered_mem (ctx va n) : (m.covered ctx va n).mem = m.mem := rfl
@[simp] theorem resumeBlock_mem (t b blk) : (m.resumeBlock t b blk).mem = m.mem := by
  unfold Mach.resumeBlock
  grind [retime_mem, setBlock_mem, kill_mem]
theorem blockResume_mem {t b} (e : m.blockResume t b = some m') : m'.mem = m.mem := by
  unfold Mach.blockResume at e
  grind [setBlock_mem, resumeBlock_mem, kill_mem]
theorem faultTimedOut_mem {t b} (e : m.faultTimedOut t b = some m') : m'.mem = m.mem := by
  unfold Mach.faultTimedOut at e
  grind [kill_mem]

/-! ### Run lists -/

@[simp] theorem dropActive_mem (out) : (m.dropActive out).mem = m.mem := rfl
@[simp] theorem blocksOut_mem (t ctx die) : (m.blocksOut t ctx die).mem = m.mem := rfl
@[simp] theorem blocksIn_mem (t ctx) : (m.blocksIn t ctx).mem = m.mem := by
  unfold Mach.blocksIn
  grind [retime_mem, setBlock_mem, foldl_mem]
@[simp] theorem switchedOut_mem (ctx) : (m.switchedOut ctx).mem = m.mem := by
  unfold Mach.switchedOut
  grind [setCtx_mem]
@[simp] theorem softRequest_mem (t ctx) : (m.softRequest t ctx).mem = m.mem := by
  unfold Mach.softRequest
  grind [switchedOut_mem, setCtx_mem]
@[simp] theorem readyStates_mem (part) : (m.readyStates part).mem = m.mem := by
  unfold Mach.readyStates
  grind [setCtx_mem, foldl_mem]
@[simp] theorem serve_mem (t part) : (m.serve t part).mem = m.mem := by
  unfold Mach.serve
  extract_lets m1 m2 p m3
  have h1 : m1.mem = m.mem := by grind [softRequest_mem]
  have h2 : m2.mem = m.mem := (readyStates_mem ..).trans h1
  have h3 : m3.mem = m.mem := by grind [setPart_mem, blocksIn_mem, setCtx_mem]
  grind [setCtx_mem]
theorem sliceExpiry_mem {t ctx} (e : m.sliceExpiry t ctx = some m') : m'.mem = m.mem := by
  unfold Mach.sliceExpiry at e
  grind [serve_mem, softRequest_mem]
theorem higherReady_mem {t ctx} (e : m.higherReady t ctx = some m') : m'.mem = m.mem := by
  unfold Mach.higherReady at e
  grind [serve_mem, softRequest_mem]
@[simp] theorem forceHalt_mem (t ctx die) : (m.forceHalt t ctx die).mem = m.mem := rfl
theorem graceExpiry_mem {t ctx die} (e : m.graceExpiry t ctx die = some m') : m'.mem = m.mem := by
  unfold Mach.graceExpiry at e
  grind [blocksOut_mem, setCtx_mem, serve_mem, switchedOut_mem, forceHalt_mem]
theorem killtExpiry_mem {t ctx die} (e : m.killtExpiry t ctx die = some m') : m'.mem = m.mem := by
  unfold Mach.killtExpiry at e
  grind [kill_mem]

/-! ### Rings and host accesses -/

@[simp] theorem setRing_mem (r x) : (m.setRing r x).mem = m.mem := by
  unfold Mach.setRing
  split <;> rfl
@[simp] theorem ringBell_mem (t r wc) : (m.ringBell t r wc).mem = m.mem := by
  unfold Mach.ringBell
  grind [setRing_mem, serve_mem]
theorem rmaWrite_wf (t key off data) (h : m.mem.wf = true) : (m.rmaWrite t key off data).mem.wf = true := by
  unfold Mach.rmaWrite
  grind [ringBell_mem, write_wf]
@[simp] theorem rmaRead_mem (key off n) : (m.rmaRead key off n).mem = m.mem := by
  unfold Mach.rmaRead
  grind [foundBad_mem, claim_mem]
@[simp] theorem doorbellWrite_mem (t key off wc) : (m.doorbellWrite t key off wc).mem = m.mem := by
  unfold Mach.doorbellWrite
  grind [ringBell_mem]
@[simp] theorem endPacket_mem (r status cause reason mqst tag tail) :
    (m.endPacket r status cause reason mqst tag tail).mem = m.mem := by
  unfold Mach.endPacket
  grind [setRing_mem]
@[simp] theorem reject_mem (r reason tag) : (m.reject r reason tag).mem = m.mem := by
  unfold Mach.reject
  grind [endPacket_mem]
theorem packetFetch_mem {t r} (e : m.packetFetch t r = some m') : m'.mem = m.mem := by
  unfold Mach.packetFetch at e
  grind [consume_mem, setRing_mem, claim_mem, endPacket_mem, reject_mem]
@[simp] theorem recordDone_mem (t r) : (m.recordDone t r).mem = m.mem := by
  unfold Mach.recordDone
  grind [setRing_mem, serve_mem]
theorem completionRecord_mem {t r} (e : m.completionRecord t r = some m') : m'.mem = m.mem := by
  unfold Mach.completionRecord at e
  grind [setRing_mem, recordDone_mem, sendRma_mem]

/-! ### Launches -/

@[simp] theorem setFusion_mem (la core) : (m.setFusion la core).mem = m.mem := by
  unfold Mach.setFusion
  grind [setCluster_mem]
theorem blockPlace_wf {t id} (h : m.mem.wf = true) (e : m.blockPlace t id = some m') : m'.mem.wf = true := by
  unfold Mach.blockPlace at e
  grind [consume_mem, claim_mem, setFusion_mem, mqWrite_wf]
theorem launchPacket_wf {caps t ctx} (h : m.mem.wf = true) (e : m.launchPacket caps t ctx = some m') : m'.mem.wf = true := by
  unfold Mach.launchPacket at e
  grind [consumeWalk_mem, consume_mem, setRing_mem, claim_mem, mqBegin_wf, reject_mem]
theorem launchComplete_wf {t id} (h : m.mem.wf = true) (e : m.launchComplete t id = some m') : m'.mem.wf = true := by
  unfold Mach.launchComplete at e
  grind [consume_mem, mqEnd_wf, claim_mem, dropActive_mem, endPacket_mem]
@[simp] theorem blockEnds_mem (b) : (m.blockEnds b).mem = m.mem := by
  unfold Mach.blockEnds
  grind [dropActive_mem, setBlock_mem]
theorem slotFreed_mem {t b w} (e : m.slotFreed t b w = some m') : m'.mem = m.mem := by
  unfold Mach.slotFreed at e
  grind [warpSlotFree_mem, blockEnds_mem]
theorem codeMap_mem {t ctx} (e : m.codeMap t ctx = some m') : m'.mem = m.mem := by
  unfold Mach.codeMap at e
  grind [reject_mem, consumeWalk_mem, endPacket_mem, setPart_mem, setRing_mem, consume_mem, claim_mem]
theorem codeUnmap_mem {ctx} (e : m.codeUnmap ctx = some m') : m'.mem = m.mem := by
  unfold Mach.codeUnmap at e
  grind [reject_mem, setPart_mem, endPacket_mem]
@[simp] theorem tlbInv_mem (ctx va n) : (m.tlbInv ctx va n).mem = m.mem := rfl
theorem tlbPacket_mem {ctx} (e : m.tlbPacket ctx = some m') : m'.mem = m.mem := by
  unfold Mach.tlbPacket at e
  grind [reject_mem, endPacket_mem, tlbInv_mem]

/-! ### Administrative commands -/

theorem command_cases {ty zero act} (e : m.command ty zero act = some m') :
    m' = m.reject adminNo 1 0 ∨ ∃ p, act p = some m' := by
  unfold Mach.command at e; grind
@[simp] theorem commandDone_mem (tail) : (m.commandDone tail).mem = m.mem := by
  unfold Mach.commandDone
  grind [endPacket_mem]
@[simp] theorem refuse_mem (cause) : (m.refuse cause).mem = m.mem := by
  unfold Mach.refuse
  grind [endPacket_mem]
@[simp] theorem commandBegun_mem (p) : (m.commandBegun p).mem = m.mem := rfl
theorem partSet_mem {caps} (e : m.partSet caps = some m') : m'.mem = m.mem := by
  obtain rfl | ⟨p, e⟩ := command_cases e <;> grind [reject_mem, refuse_mem, commandDone_mem, setPart_mem]
theorem partClear_mem {t} (e : m.partClear t = some m') : m'.mem = m.mem := by
  obtain rfl | ⟨p, e⟩ := command_cases e <;>
    grind [reject_mem, refuse_mem, kill_mem, commandBegun_mem, setPart_mem, foldl_mem]
theorem zeroise_wf {t p} (h : m.mem.wf = true) (e : m.zeroise t p = some m') : m'.mem.wf = true := by
  unfold Mach.zeroise at e
  grind [zeroChannel_wf, dropCached_wf, setPart_mem, commandDone_mem, foldl_wf]
theorem ctxSetCmd_wf {t} (h : m.mem.wf = true) (e : m.ctxSetCmd t = some m') : m'.mem.wf = true := by
  obtain rfl | ⟨p, e⟩ := command_cases e <;>
    grind [reject_mem, refuse_mem, serve_mem, commandDone_mem, setCtx_mem, retag_wf]
theorem runlistWrite_mem {t} (e : m.runlistWrite t = some m') : m'.mem = m.mem := by
  obtain rfl | ⟨p, e⟩ := command_cases e <;> grind [reject_mem, refuse_mem, serve_mem, commandDone_mem, foldl_mem]
theorem ringRestart_mem {t} (e : m.ringRestart t = some m') : m'.mem = m.mem := by
  obtain rfl | ⟨p, e⟩ := command_cases e <;> grind [reject_mem, refuse_mem, serve_mem, commandDone_mem, setCtx_mem]
theorem killCmd_mem {t} (e : m.killCmd t = some m') : m'.mem = m.mem := by
  obtain rfl | ⟨p, e⟩ := command_cases e <;> grind [reject_mem, commandDone_mem, commandBegun_mem, kill_mem]
theorem tlbinvCmd_mem (e : m.tlbinvCmd = some m') : m'.mem = m.mem := by
  obtain rfl | ⟨p, e⟩ := command_cases e <;> grind [reject_mem, refuse_mem, commandDone_mem, covered_mem, tlbInv_mem]
theorem fwLoad_mem (e : m.fwLoad = some m') : m'.mem = m.mem := by
  obtain rfl | ⟨p, e⟩ := command_cases e <;> grind [reject_mem, refuse_mem, commandDone_mem]
theorem attestCmd_mem {caps} (e : m.attestCmd caps = some m') : m'.mem = m.mem := by
  obtain rfl | ⟨p, e⟩ := command_cases e <;> grind [reject_mem, refuse_mem, commandDone_mem]
theorem mcReset_wf {caps} (h : m.mem.wf = true) (e : m.mcReset caps = some m') : m'.mem.wf = true := by
  obtain rfl | ⟨p, e⟩ := command_cases e <;>
    grind [reject_mem, refuse_mem, commandBegun_mem, zeroChannel_wf, commandDone_mem, setChannel_mem]
theorem engineDrained_mem {ctx engine} (e : m.engineDrained ctx engine = some m') : m'.mem = m.mem := by
  unfold Mach.engineDrained at e
  grind [setCtx_mem]
@[simp] theorem killRecords_mem (ctx) : (m.killRecords ctx).mem = m.mem := by
  unfold Mach.killRecords
  grind [endPacket_mem, setRing_mem, notice_mem]
theorem killComplete_wf {t ctx} (h : m.mem.wf = true) (e : m.killComplete t ctx = some m') : m'.mem.wf = true := by
  unfold Mach.killComplete at e
  grind [killRecords_mem, dropCached_wf, dropActive_mem, setPart_mem, setCtx_mem, commandDone_mem, serve_mem]

/-! ### Save and restore -/

theorem writeSave_wf (t ctx off data) (h : m.mem.wf = true) : (m.writeSave t ctx off data).mem.wf = true := by
  unfold Mach.writeSave
  grind [consumeWrite_wf, write_wf]
theorem saveStack_wf (t blk w la n x) (h : m.mem.wf = true) : (m.saveStack t blk w la n x).1.mem.wf = true := by
  induction n generalizing m x with
  | zero => exact h
  | succ n ih => unfold Mach.saveStack; grind [writeVirt_wf]
theorem saveBlock_wf (t b) (h : m.mem.wf = true) : (m.saveBlock t b).1.mem.wf = true := by
  unfold Mach.saveBlock
  exact foldl_fst_wf (fun _ e hp => saveStack_wf t b e.1 (m.launchOf b) 32 e.2 hp) _ _ h
theorem saveBegin_wf (t ctx) (h : m.mem.wf = true) : (m.saveBegin t ctx).mem.wf = true := by
  unfold Mach.saveBegin
  grind [setCtx_mem, writeSave_wf]
theorem saveEnd_wf (t ctx n) (h : m.mem.wf = true) : (m.saveEnd t ctx n).mem.wf = true := by
  unfold Mach.saveEnd
  grind [writeSave_wf, dropActive_mem, setCtx_mem]
theorem saveStep_wf (caps t ctx n k img) (h : m.mem.wf = true) : (m.saveStep caps t ctx n k img).mem.wf = true := by
  unfold Mach.saveStep
  grind [setCtx_mem, saveBlock_wf, writeSave_wf, saveEnd_wf]
theorem contextSave_wf {caps t ctx} (h : m.mem.wf = true) (e : m.contextSave caps t ctx = some m') : m'.mem.wf = true := by
  unfold Mach.contextSave at e
  grind [serve_mem, saveStep_wf, saveBegin_wf]
theorem checkImage_mem {caps t ctx} (e : m.checkImage caps t ctx = .inl m') : m'.mem = m.mem := by
  unfold Mach.checkImage at e
  grind [kill_mem, consume_mem]
@[simp] theorem restore_mem (caps t ctx y4) : (m.restore caps t ctx y4).1.mem = m.mem := by
  unfold Mach.restore
  grind [checkImage_mem, claim_mem, setCtx_mem]
theorem contextRestore_mem {caps t ctx} (e : m.contextRestore caps t ctx = some m') : m'.mem = m.mem := by
  unfold Mach.contextRestore at e
  grind [serve_mem, restore_mem]
theorem ctxsvTurn_wf {caps t b w op o i ctx save} (h : m.mem.wf = true) (e : m.ctxsvTurn caps t b w op o i ctx save = some m') :
    m'.mem.wf = true := by
  unfold Mach.ctxsvTurn at e
  grind [complete_mem, setWarp_mem, saveBegin_wf, restore_mem]
theorem opTurn_wf {caps t b w op} (h : m.mem.wf = true) (e : m.opTurn caps t b w op = some m') : m'.mem.wf = true := by
  unfold Mach.opTurn at e
  grind [ctxsvTurn_wf, varComplete_wf]

/-! ### Links and bulk transfers -/

@[simp] theorem sourceRead_mem (x) : (m.sourceRead x).mem = m.mem := by
  unfold Mach.sourceRead
  grind [setWarp_mem]
@[simp] theorem bulkEnds_mem (n x moved cause) : (m.bulkEnds n x moved cause).mem = m.mem := rfl
theorem bulkLand_wf {t n x data cause far} (h : m.mem.wf = true) (e : m.bulkLand t n x data cause far = some m') :
    m'.mem.wf = true := by
  unfold Mach.bulkLand at e
  grind [consumeWalk_mem, writeSeen_wf, bulkEnds_mem, sendRma_mem, setBulk_mem]
theorem cpybFinish_wf {t n far} (h : m.mem.wf = true) (e : m.cpybFinish t n far = some m') : m'.mem.wf = true := by
  unfold Mach.cpybFinish at e
  grind [bulkLand_wf, consumeWalk_mem, consume_mem, sourceRead_mem, brought_mem, bulkEnds_mem, sendRma_mem, setBulk_mem]
theorem cpybNoRoute_mem {t n} (e : m.cpybNoRoute t n = some m') : m'.mem = m.mem := by
  unfold Mach.cpybNoRoute at e
  grind [bulkEnds_mem, sourceRead_mem]
theorem cpybRecord_wf {t n} (h : m.mem.wf = true) (e : m.cpybRecord t n = some m') : m'.mem.wf = true := by
  unfold Mach.cpybRecord at e
  grind [consume_mem, putRecord_wf, brought_mem, consumeWalk_mem]
theorem remoteArrive_wf (t b) (h : m.mem.wf = true) : (m.remoteArrive t b).mem.wf = true := by
  unfold Mach.remoteArrive
  grind [answer_mem, consumeWalk_mem, consumeWrite_wf, purge_mem, write_wf, consume_mem, brought_mem]
theorem hostRmaDone_mem {t id data} (e : m.hostRmaDone t id data = some m') : m'.mem = m.mem := by
  unfold Mach.hostRmaDone at e
  grind [sendRma_mem, setRing_mem, recordDone_mem, bulkEnds_mem, setBulk_mem, sourceRead_mem]
theorem flitReceive_mem {t way seq crcOk} (e : m.flitReceive t way seq crcOk = some m') : m'.mem = m.mem := by
  unfold Mach.flitReceive at e
  grind
@[simp] theorem setLink_mem (t link down) : (m.setLink t link down).mem = m.mem := rfl
theorem linkTurns_mem {t link far down} (e : m.linkTurns t link far down = some m') : m'.mem = m.mem := by
  unfold Mach.linkTurns at e
  grind [setLink_mem, notice_mem]
@[simp] theorem congestionMark_mem (t ctl) : (m.congestionMark t ctl).mem = m.mem := by
  unfold Mach.congestionMark
  grind
theorem rateRecovery_mem {t ctl} (e : m.rateRecovery t ctl = some m') : m'.mem = m.mem := by
  unfold Mach.rateRecovery at e
  grind

/-! ### Errors, power and reset -/

theorem softError_mem {caps die} (e : m.softError caps die = some m') : m'.mem = m.mem := by
  unfold Mach.softError at e
  grind [setDie_mem]
@[simp] theorem retire_mem (ch) : (m.retire ch).mem = m.mem := by
  unfold Mach.retire
  split <;> rfl
@[simp] theorem spoil_mem (g l2) : (m.spoil g l2).mem = m.mem := by
  unfold Mach.spoil
  grind [retire_mem, countUe_mem]
theorem uncorrectable_mem {caps t loc ctx} (e : m.uncorrectable caps t loc ctx = some m') : m'.mem = m.mem := by
  unfold Mach.uncorrectable at e
  grind [spoil_mem, countUe_mem, kill_mem]
theorem l1Error_mem {caps core line tag} (e : m.l1Error caps core line tag = some m') : m'.mem = m.mem := by
  unfold Mach.l1Error at e
  grind [setCluster_mem]
theorem l2Error_wf {caps t line tag} (h : m.mem.wf = true) (e : m.l2Error caps t line tag = some m') : m'.mem.wf = true := by
  unfold Mach.l2Error at e
  grind [retire_mem, countUe_mem, loseLine_wf, losePart_mem, check_mem, foldl_wf]
theorem scrub_mem {caps line} (e : m.scrub caps line = some m') : m'.mem = m.mem := by
  unfold Mach.scrub at e
  grind [countUe_mem]
theorem resetTo_wf (t off) : (m.resetTo t off).mem.wf = true := rfl
theorem moduleReset_wf {t} (e : m.moduleReset t = some m') : m'.mem.wf = true := by
  unfold Mach.moduleReset at e
  grind [resetTo_wf]
theorem powerOn_mem {t} (e : m.powerOn t = some m') : m'.mem = m.mem := by
  unfold Mach.powerOn at e
  grind
theorem railTimeout_mem {t rail} (e : m.railTimeout t rail = some m') : m'.mem = m.mem := by
  unfold Mach.railTimeout at e
  grind
theorem powerOff_wf {t} (h : m.mem.wf = true) (e : m.powerOff t = some m') : m'.mem.wf = true := by
  unfold Mach.powerOff at e
  grind [resetTo_wf]
theorem bootStage_wf {t digest signature pkg} (h : m.mem.wf = true) (e : m.bootStage t digest signature pkg = some m') :
    m'.mem.wf = true := by
  unfold Mach.bootStage at e
  grind [FMap.wf, FMap.wfFrom]
@[simp] theorem stackOff_mem (t die) : (m.stackOff t die).mem = m.mem := by
  unfold Mach.stackOff
  grind [setDie_mem, killPart_mem, notice_mem, foldl_mem]
theorem currentSample_mem {caps t die amps tj} (e : m.currentSample caps t die amps tj = some m') : m'.mem = m.mem := by
  unfold Mach.currentSample at e
  grind [setDie_mem, stackOff_mem]
theorem junctionHot_mem {caps t die} (e : m.junctionHot caps t die = some m') : m'.mem = m.mem := by
  unfold Mach.junctionHot at e
  grind [setDie_mem]
theorem thermalSustained_mem {t die} (e : m.thermalSustained t die = some m') : m'.mem = m.mem := by
  unfold Mach.thermalSustained at e
  dsimp only at e
  split at e
  · split at e <;> cases e; rfl
  · cases e
theorem junctionCool_mem {t die tj} (e : m.junctionCool t die tj = some m') : m'.mem = m.mem := by
  unfold Mach.junctionCool at e
  grind [setDie_mem]
theorem thermalShutdown_mem {caps t die} (e : m.thermalShutdown caps t die = some m') : m'.mem = m.mem := by
  unfold Mach.thermalShutdown at e
  grind [stackOff_mem, setDie_mem]

end Sys2Proof.Machine
end

section
/-! PROOFS. Every instruction, every event and so every step keeps memory in its canonical form (00_scope.md R5). An effect at issue
leaves a machine in its view, or in the trap that it takes; `Kept` speaks of both. -/
namespace Sys2Proof.Machine
open Sys2Proof Mach

/-! ### The view of an issue -/

/-- A result whose machines hold their memory in canonical form: the value's own, and the one that a trap carries. -/
structure Kept {α : Type} (mach : α → Mach) (r : Except Trap α) : Prop where
  ok : ∀ a, r = .ok a → (mach a).mem.wf = true
  trap : ∀ tr m, r = .error tr → tr.mach = some m → m.mem.wf = true

theorem kept_ok {α : Type} {mach : α → Mach} {a : α} (h : (mach a).mem.wf = true) : Kept mach (.ok a) where
  ok _ e := by cases e; exact h
  trap _ _ e _ := by cases e

/-- A trap that carries no machine. -/
theorem kept_trap {α : Type} {mach : α → Mach} {tr : Trap} (h : tr.mach = none) : Kept mach (.error tr) where
  ok _ e := by cases e
  trap _ _ e hm := by cases e; rw [h] at hm; cases hm

/-- A trap that carries a machine of its own. -/
theorem kept_trap_mach {α : Type} {mach : α → Mach} {tr : Trap} {m : Mach} (h : tr.mach = some m) (hm : m.mem.wf = true) :
    Kept mach (.error tr) where
  ok _ e := by cases e
  trap _ _ e hs := by cases e; rw [h] at hs; cases hs; exact hm

/-- The trap of one step, as the whole's. -/
theorem Kept.error {α β : Type} {f : α → Mach} {g : β → Mach} {r : Except Trap α} {tr : Trap} (h : Kept f r)
    (e : r = .error tr) : Kept g (.error tr) where
  ok _ e := by cases e
  trap _ _ e' hm := by cases e'; exact h.trap _ _ e hm

/-- An effect that keeps memory in its canonical form. -/
def KeepsForm (act : Act) : Prop := ∀ c : Cx, c.m.mem.wf = true → Kept Cx.m (act c)

@[simp] theorem Cx.flush_mem (c : Cx) : c.flush.mem = c.m.mem := rfl
@[simp] theorem Cx.armWrite_m (c : Cx) (t : Nat) (wr : ArmWrite) : (c.armWrite t wr).m = c.m := rfl
@[simp] theorem Cx.armOvf_m (c : Cx) (t : Nat) (x : Num.Exc) : (c.armOvf t x).m = c.m := by unfold Cx.armOvf; split <;> rfl
@[simp] theorem Cx.fixed_m (c : Cx) (lat : Nat) (latch : Bool) (clr : BitVec 5) (r : Result) : (c.fixed lat latch clr r).m = c.m :=
  Cx.armOvf_m ..
@[simp] theorem Cx.startTracked_m (c : Cx) (flag cls : Option Nat) (p : Payload) : (c.startTracked flag cls p).m = c.m := rfl
@[simp] theorem Cx.start_m (c : Cx) (cls : Option Nat) (p : Payload) : (c.start cls p).m = c.m := by unfold Cx.start; split <;> rfl
@[simp] theorem Cx.startFault_m (c : Cx) (cls : Option Nat) (p : Payload) (f : FaultInfo) : (c.startFault cls p f).m = c.m := rfl
@[simp] theorem Cx.startFaultFold_m (c : Cx) (p : Payload) (f : FaultInfo) : (c.startFaultFold p f).m = c.m := by
  unfold Cx.startFaultFold; split <;> rfl
@[simp] theorem Cx.enterStore_m (c : Cx) (sp : Space) (rel : Bool) (scope : Nat) (acc : List LaneAcc) :
    (c.enterStore sp rel scope acc).m = c.m := Cx.start_m ..
@[simp] theorem Cx.enterAtomic_m (c : Cx) (f : Fields) (op : RmwOp) (b x : FMap 32) (as : List (Nat × Nat))
    (ks : List (Nat × List Nat)) : (c.enterAtomic f op b x as ks).m = c.m := Cx.start_m ..
@[simp] theorem Cx.batchDone_m (c : Cx) (op : Nat) : (c.batchDone op).m = c.m := rfl
@[simp] theorem Cx.endClause_m (c : Cx) : c.endClause.m = c.m := rfl
@[simp] theorem Cx.advance_m (c : Cx) : c.advance.m = c.m := by unfold Cx.advance; dsimp only; split <;> rfl
@[simp] theorem Cx.reload_m (c : Cx) (m : Mach) : (c.reload m).m = m := by unfold Cx.reload; split <;> rfl
@[simp] theorem Cx.viaMach_m (c : Cx) (f : Mach → Mach) : (c.viaMach f).m = f c.flush := Cx.reload_m ..
@[simp] theorem Cx.setS_m (c : Cx) (p : PcSlot) : (c.setS p).m = c.m := rfl
@[simp] theorem Cx.setO_m (c : Cx) (p : PcSlot) : (c.setO p).m = c.m := rfl
@[simp] theorem Cx.goTo_m (c : Cx) (pc : Nat) : (c.goTo pc).m = c.m := rfl
@[simp] theorem Cx.endWarp_m (c : Cx) : c.endWarp.m = c.m := rfl
@[simp] theorem Cx.nextFirst_m (c : Cx) : c.nextFirst.m = c.m := rfl
@[simp] theorem Cx.unbinds_mem (c : Cx) : c.unbinds.m.mem = c.m.mem := by
  unfold Cx.unbinds
  split
  · split <;> rfl
  · rfl

theorem Cx.takeTrap_m (c : Cx) (tr : Trap) : (c.takeTrap tr).m = tr.mach.getD c.m := by
  unfold Cx.takeTrap
  dsimp only
  split
  · rfl
  · exact Cx.fixed_m ..

/-- An issue, with its guards, keeps the form that its effect keeps. -/
theorem run_wf {act : Act} (ha : KeepsForm act) {c : Cx} (h : c.m.mem.wf = true) : (c.run act).m.mem.wf = true := by
  have hg : Kept Cx.m (c.guarded act) := by
    unfold Cx.guarded
    split
    · exact kept_trap rfl
    · split
      · exact kept_trap rfl
      · exact ha c h
  unfold Cx.run
  cases hr : c.guarded act with
  | ok d => rw [hr] at hg; simpa using hg.ok d rfl
  | error tr =>
    rw [hr] at hg
    simp only [Cx.takeTrap_m]
    exact getD_wf (fun m hm => hg.trap tr m rfl hm) h

theorem issue_wf {i : Instr} {act : Act} (ha : KeepsForm act) {s t : State} (e : issue i act s = .next t)
    (h : s.m.mem.wf = true) : t.m.mem.wf = true := by
  unfold issue issueState at e
  cases ho : openCx i s with
  | none => rw [ho] at e; cases e
  | some c =>
    rw [ho] at e; cases e
    obtain ⟨-, -, -, -, -, hm, -⟩ := openCx_spec ho
    exact run_wf ha (hm ▸ h)

/-! ### Effects of the register file and the armature -/

theorem ok_keeps {f : Cx → Cx} (hf : ∀ c, (f c).m.mem = c.m.mem) : KeepsForm (fun c => .ok (f c)) :=
  fun c h => kept_ok ((hf c).symm ▸ h)

/-- An effect under a guard that otherwise leaves the view as it is. -/
theorem unless_keeps {p : Cx → Prop} [DecidablePred p] {act : Act} (ha : KeepsForm act) :
    KeepsForm (fun c => if p c then .ok c else act c) := by
  intro c h
  dsimp only
  split
  · exact kept_ok h
  · exact ha c h

theorem fixedAct_keeps (lat : Nat) (r : Cx → Result) : KeepsForm (fixedAct lat r) := ok_keeps fun c => by rw [Cx.fixed_m]

theorem fixedExcAct_keeps (lat : Nat) (latch : Bool) (r : Cx → Result) : KeepsForm (fixedExcAct lat latch r) := by
  intro c h
  unfold fixedExcAct
  dsimp only
  split
  · exact kept_trap rfl
  · exact kept_ok (by simpa using h)

theorem varExcAct_keeps (r : Cx → Result) (exc : Cx → List (Nat × Num.Exc)) : KeepsForm (varExcAct r exc) := by
  intro c h
  unfold varExcAct
  dsimp only
  split
  · exact kept_ok h
  · split <;> exact kept_ok (by simpa using h)

theorem fpAct_keeps (srcs : Fields → List Operand) (rand : Fields → Operand)
    (g : Num.Fmt → Num.Rnd → Nat → Nat → List Num.Val → Nat × Num.Exc) : KeepsForm (fpAct srcs rand g) := by
  intro c h
  unfold fpAct
  exact fixedExcAct_keeps _ _ _ c h

theorem fpVarAct_keeps (srcs : Fields → List Operand)
    (g : Num.Fmt → Num.Rnd → Nat → Nat → List Num.Val → Nat × Num.Exc) : KeepsForm (fpVarAct srcs g) := by
  intro c h
  unfold fpVarAct
  exact varExcAct_keeps _ _ c h

theorem cvtAct_keeps (bits : Cx → Nat) (g : Cx → Nat → Nat × Num.Exc) : KeepsForm (cvtAct bits g) := fixedExcAct_keeps _ _ _

theorem actFscl_keeps : KeepsForm actFscl := by
  intro c h
  unfold actFscl
  exact fpAct_keeps _ _ _ c h

theorem actFxtr_keeps : KeepsForm actFxtr := by
  intro c h
  unfold actFxtr
  exact fixedExcAct_keeps _ _ _ c h

theorem actFcls_keeps : KeepsForm actFcls := by
  intro c h
  unfold actFcls
  exact fixedExcAct_keeps _ _ _ c h

theorem actFsetp_keeps : KeepsForm actFsetp := by
  intro c h
  unfold actFsetp
  exact fixedExcAct_keeps _ _ _ c h

theorem actWfred_keeps : KeepsForm actWfred := by
  intro c h
  unfold actWfred
  exact varExcAct_keeps _ _ c h

theorem actMatch_keeps : KeepsForm actMatch := by
  intro c h
  unfold actMatch
  exact varExcAct_keeps _ _ c h

theorem actIsetp_keeps : KeepsForm actIsetp := ok_keeps fun c => by rw [Cx.fixed_m]
theorem actPlop_keeps : KeepsForm actPlop := ok_keeps fun c => by rw [Cx.fixed_m]
theorem actPmovV2p_keeps : KeepsForm actPmovV2p := ok_keeps fun c => by rw [Cx.fixed_m]
theorem actShfl_keeps : KeepsForm actShfl := ok_keeps fun c => by rw [Cx.fixed_m]

theorem actVote_keeps : KeepsForm actVote := by
  intro c h
  unfold actVote
  dsimp only
  split <;> exact kept_ok (by simpa using h)

theorem actS2v_keeps : KeepsForm actS2v := by
  intro c h
  unfold actS2v
  dsimp only
  split <;> exact kept_ok (by simpa using h)

theorem actFlagsClr_keeps : KeepsForm actFlagsClr := unless_keeps (ok_keeps fun c => by rw [Cx.fixed_m])
theorem actPrio_keeps : KeepsForm actPrio := unless_keeps (ok_keeps fun _ => rfl)
theorem actNop_keeps : KeepsForm actNop := ok_keeps fun _ => rfl

/-- A trap with a given cause, where a lane is admitted. -/
theorem actTrap_keeps (cause : Nat) (x : Word) : KeepsForm (actTrap cause x) := unless_keeps fun _ _ => kept_trap rfl
theorem actHalt_keeps : KeepsForm actHalt := unless_keeps fun _ _ => kept_trap rfl

theorem armWrites_m (ws : List ArmWrite) (c : Cx) : (ws.foldl (fun c w => c.armWrite (c.t + 1) w) c).m = c.m := by
  induction ws generalizing c with
  | nil => rfl
  | cons w ws ih => exact ih _

/-- An instruction of the armature: its traps carry no machine. -/
theorem armAct_keeps {g : Cx → Except Trap (List ArmWrite)} (hg : ∀ c tr, g c = .error tr → tr.mach = none) :
    KeepsForm (armAct g) := by
  refine unless_keeps fun c h => ?_
  split
  · exact kept_trap (hg c _ ‹_›)
  · exact kept_ok (by rw [armWrites_m]; exact h)

/-- Writes of the armature that trap on a test, with a cause alone. -/
theorem of_mach_of_ite {p : Prop} [Decidable p] {ws : List ArmWrite} {cause : Nat} {tr : Trap}
    (e : (if p then .ok ws else .error (Trap.of cause) : Except Trap (List ArmWrite)) = .error tr) : tr.mach = none := by
  split at e <;> cases e; rfl

theorem of_mach_of_ite_not {p : Prop} [Decidable p] {ws : List ArmWrite} {cause : Nat} {tr : Trap}
    (e : (if p then .error (Trap.of cause) else .ok ws : Except Trap (List ArmWrite)) = .error tr) : tr.mach = none := by
  split at e <;> cases e; rfl

theorem armWord_keeps (g : Cx → Word) : KeepsForm (armWord g) := armAct_keeps fun _ _ e => of_mach_of_ite e
theorem actClaim_keeps : KeepsForm actClaim := armAct_keeps fun _ _ e => of_mach_of_ite e
theorem actRel_keeps : KeepsForm actRel := armAct_keeps fun _ _ e => of_mach_of_ite e
theorem actShpwWr_keeps : KeepsForm actShpwWr := armAct_keeps fun _ _ e => of_mach_of_ite_not e
theorem actShpwMk_keeps : KeepsForm actShpwMk := armAct_keeps fun _ _ e => of_mach_of_ite_not e
theorem actLsclSet_keeps : KeepsForm actLsclSet := armAct_keeps fun _ _ e => of_mach_of_ite_not e
theorem actLsclUpd_keeps : KeepsForm actLsclUpd := armAct_keeps fun _ _ e => of_mach_of_ite_not e
theorem actOvftClr_keeps : KeepsForm actOvftClr := armAct_keeps fun _ _ e => nomatch e

theorem actSbr_keeps : KeepsForm actSbr := unless_keeps (ok_keeps fun c => by dsimp only; split <;> rfl)
theorem actShash_keeps (x : Cx → Word) : KeepsForm (actShash x) := unless_keeps (ok_keeps fun _ => rfl)
theorem actOpf_keeps : KeepsForm actOpf := ok_keeps fun _ => rfl

/-! ### Effects that start an operation -/

theorem actFence_keeps : KeepsForm actFence := ok_keeps fun c => by rw [Cx.start_m]
theorem actField_keeps (a b : Cx → FMap 32) : KeepsForm (actField a b) := ok_keeps fun c => by rw [Cx.start_m]
theorem actSplat_keeps (bulk : Bool) (a b : Cx → FMap 32) : KeepsForm (actSplat bulk a b) := by
  refine unless_keeps (ok_keeps fun c => ?_)
  cases bulk <;> rfl
theorem actMatrix_keeps : KeepsForm actMatrix := unless_keeps (ok_keeps fun _ => congrArg Mach.mem (Cx.start_m ..))
theorem actBclose_keeps : KeepsForm actBclose := unless_keeps (ok_keeps fun c => by rw [Cx.start_m])
theorem actBar_keeps (na nb : Nat) : KeepsForm (actBar na nb) := ok_keeps fun c => by rw [Cx.start_m]
theorem actWake_keeps : KeepsForm actWake := ok_keeps fun c => by rw [Cx.start_m]
theorem actColl_keeps : KeepsForm actColl := ok_keeps fun c => by rw [Cx.start_m]
theorem actCtxsv_keeps : KeepsForm actCtxsv := unless_keeps (ok_keeps fun c => by rw [Cx.start_m])
theorem actGossip_keeps : KeepsForm actGossip := ok_keeps fun c => by rw [Cx.start_m, Cx.unbinds_mem]
theorem actGsync_keeps : KeepsForm actGsync := unless_keeps actGossip_keeps

theorem actBwait_keeps : KeepsForm actBwait := by
  refine unless_keeps fun c h => ?_
  dsimp only
  split <;> exact kept_ok (by simpa using h)

theorem actCpy_keeps : KeepsForm actCpy := by
  refine unless_keeps fun c h => ?_
  dsimp only
  split
  · exact kept_trap rfl
  · split
    · exact kept_ok h
    · split <;> exact kept_ok (by simpa using h)

theorem actSld_keeps : KeepsForm actSld := by
  refine unless_keeps fun c h => ?_
  split
  · exact kept_trap rfl
  · exact kept_ok (by simpa using h)

/-! ### Effects that check their accesses as they issue -/

@[simp] theorem Cx.doLoad_mem (c : Cx) (sp : Space) (acq : Bool) (scope : Nat) (ks : List (Nat × List Nat))
    (r : List (Nat × List Byte) → Result) (retry : Payload) : (c.doLoad sp acq scope ks r retry).m.mem = c.m.mem := by
  unfold Cx.doLoad
  dsimp only
  split <;> split <;> simp

theorem actLd_keeps : KeepsForm actLd := by
  refine unless_keeps fun c h => ?_
  dsimp only
  split
  · exact kept_ok (by simpa [checkLanes_mem] using h)
  · split <;> exact kept_ok (by simpa [checkLanes_mem] using h)

theorem actSt_keeps : KeepsForm actSt := by
  refine unless_keeps fun c h => ?_
  dsimp only
  split <;> exact kept_ok (by simpa [checkLanes_mem] using h)

theorem actSst_keeps : KeepsForm actSst := by
  refine unless_keeps fun c h => ?_
  dsimp only
  split <;> exact kept_ok (by simpa [checkLanes_mem] using h)

theorem actAtomic_keeps (op : Fields → RmwOp) : KeepsForm (actAtomic op) := by
  refine unless_keeps fun c h => ?_
  dsimp only
  split
  · split <;> exact kept_ok (by simpa [checkLanes_mem] using h)
  · exact kept_ok (by simpa [checkLanes_mem] using h)

theorem actMqchk_keeps : KeepsForm actMqchk := by
  refine unless_keeps fun c h => ?_
  dsimp only
  split <;> exact kept_ok (by simpa [checkLanes_mem] using h)

theorem actPrf_keeps : KeepsForm actPrf := by
  refine ok_keeps fun c => ?_
  rw [Cx.start_m]
  refine foldl_mem (fun m l => ?_) _ _
  extract_lets a
  split
  · rfl
  · split
    · split
      · exact foundBad_mem _
      · rfl
    · split
      · exact foundEach_mem _
      · split
        · exact l1Fill_mem ..
        · rfl

theorem actSleep_keeps : KeepsForm actSleep := by
  refine unless_keeps fun c h => ?_
  extract_lets f l sp addr acq scope
  split
  rename_i m r hm
  replace hm : m.mem.wf = true := by rw [← congrArg (Mach.mem ·.1) hm, checkLanes_mem]; exact h
  extract_lets c op n reads
  split
  · exact kept_ok hm
  · extract_lets keys key read claimed started w w' asleep
    have hc : claimed.m.mem.wf = true := by
      unfold claimed
      split
      · exact (claim_mem ..).symm ▸ hm
      · exact hm
    have ha : asleep.m.mem.wf = true := (congrArg Mach.mem (Cx.start_m ..)).symm ▸ hc
    refine kept_ok ?_
    split
    · rw [Cx.viaMach_m, consume_mem]
      exact ha
    · exact ha

theorem actCpyb_keeps : KeepsForm actCpyb := by
  refine unless_keeps fun c h => ?_
  dsimp only
  split
  · exact kept_trap rfl
  · split
    · exact kept_ok (by simpa using h)
    · split
      · exact kept_ok (by simpa [checkLanes_mem] using h)
      · split
        · exact kept_ok (by simpa [checkLanes_mem] using h)
        · split
          · exact kept_ok (by simpa [checkLanes_mem] using h)
          · split <;> exact kept_ok (by simpa [checkLanes_mem] using h)

theorem actSysr_keeps : KeepsForm actSysr := by
  refine unless_keeps fun c h => ?_
  dsimp only
  split <;> exact kept_ok (by simpa using h)

theorem actSysw_keeps : KeepsForm actSysw := by
  refine unless_keeps fun c h => ?_
  dsimp only
  split
  · split
    · exact kept_ok (by simpa using sysWrite_wf h ‹_›)
    · exact kept_ok (by simpa using h)
  · exact kept_ok (by simpa using h)

theorem actCmnt_keeps : KeepsForm actCmnt := by
  intro c h
  unfold actCmnt
  dsimp only
  split
  · exact kept_ok h
  · split
    · exact kept_ok (by simpa using h)
    · exact kept_ok (by simpa using cmnt_wf (show c.flush.mem.wf = true from h) ‹_›)

/-! ### Control flow -/

theorem checkTarget_mach {c : Cx} {va : Nat} {tr : Trap} (e : c.checkTarget va = .error tr) : tr.mach = none := by
  unfold Cx.checkTarget at e
  split at e <;> cases e <;> rfl

theorem checkDirect_mach {c : Cx} {va : Nat} {tr : Trap} (e : c.checkDirect va = .error tr) : tr.mach = none := by
  unfold Cx.checkDirect at e
  split at e
  · cases e
  · exact checkTarget_mach e

theorem nextOf_mach {c : Cx} {h : Nat} {tr : Trap} (e : c.nextOf h = .error tr) : tr.mach = none := by
  unfold Cx.nextOf at e
  split at e
  · cases e
  · split at e <;> cases e
    rfl

/-- A push writes at most the entry that it spills. -/
theorem push_kept {c : Cx} (h : c.m.mem.wf = true) (e : StackEntry) : Kept Cx.m (c.push e) := by
  unfold Cx.push
  split
  · exact kept_ok h
  · split
    · exact kept_trap_mach rfl h
    · extract_lets k old va
      split
      · exact kept_trap_mach rfl h
      · split
        · exact kept_trap_mach rfl h
        · refine kept_ok ?_
          rw [Cx.viaMach_m, reread_mem]
          exact consumeWrite_wf _ _ _ h (storeThrough_wf _ _ _ _ _ h)

theorem fill_kept {c : Cx} (h : c.m.mem.wf = true) : Kept Cx.m c.fill := by
  unfold Cx.fill
  split
  · extract_lets va
    split
    · exact kept_trap_mach rfl h
    · refine kept_ok ?_
      rw [Cx.viaMach_m, consume_mem, brought_mem]
      exact h
  · exact kept_ok h

theorem top_kept {c : Cx} (h : c.m.mem.wf = true) : Kept (·.1.m) c.top := by
  unfold Cx.top
  split
  · exact (fill_kept h).error ‹_›
  · exact kept_ok ((fill_kept h).ok _ ‹_›)

theorem pop_kept {c : Cx} (h : c.m.mem.wf = true) : Kept (·.1.m) c.pop := by
  unfold Cx.pop
  split
  · exact (top_kept h).error ‹_›
  · exact kept_ok ((top_kept h).ok _ ‹_› :)

theorem unwind_kept {c : Cx} (h : c.m.mem.wf = true) (n : Nat) : Kept Cx.m (c.unwind n) := by
  induction n generalizing c with
  | zero => exact kept_ok h
  | succ n ih =>
    unfold Cx.unwind
    split
    · exact (pop_kept h).error ‹_›
    · exact kept_ok ((pop_kept h).ok _ ‹_› :)
    · rename_i d e hpop
      have hd : d.m.mem.wf = true := (pop_kept h).ok _ hpop
      extract_lets l
      split
      · exact (top_kept hd).error ‹_›
      · rename_i d' top htop
        have hd' : d'.m.mem.wf = true := (top_kept hd).ok _ htop
        extract_lets parked w c1 k w1
        clear_value parked
        have h1 : c1.m.mem.wf = true := by
          unfold c1
          split <;> exact hd'
        split
        · rename_i hn
          split at hn
          · exact kept_trap (nextOf_mach hn)
          · cases hn
        · extract_lets c2 w2 c3
          have h2 : c2.m.mem.wf = true := by
            unfold c2
            split <;> exact h1
          have h3 : c3.m.mem.wf = true := by
            unfold c3
            split
            · split <;> exact h2
            · exact h2
          split
          · exact kept_ok h3
          · exact ih h3

theorem settleSlots_kept {c : Cx} (h : c.m.mem.wf = true) : Kept Cx.m c.settleSlots := by
  unfold Cx.settleSlots
  split
  · exact kept_ok h
  · split
    · exact kept_ok h
    · exact unwind_kept h _

theorem Kept.map {r : Except Trap Cx} {f : Cx → Cx} (h : Kept Cx.m r) (hf : ∀ c, (f c).m = c.m) : Kept Cx.m (r.map f) := by
  cases r with
  | error tr => exact h.error rfl
  | ok c => exact kept_ok ((hf c).symm ▸ h.ok c rfl)

theorem park_kept {c : Cx} (h : c.m.mem.wf = true) : Kept Cx.m c.park := by
  unfold Cx.park
  split
  · exact (push_kept h _).map fun _ => rfl
  · exact kept_ok h

theorem exitLanes_kept {c : Cx} (h : c.m.mem.wf = true) (t : Mask) : Kept Cx.m (c.exitLanes t) := by
  unfold Cx.exitLanes
  refine settleSlots_kept ?_
  split <;> exact h

theorem actBra_keeps (off rcv : Int) : KeepsForm (actBra off rcv) := by
  intro c h
  unfold actBra
  extract_lets m f target
  split
  · exact kept_ok h
  · split
    · split
      · exact kept_trap (checkDirect_mach ‹_›)
      · exact kept_ok h
    · split
      · exact kept_trap rfl
      · split
        · exact kept_trap (checkDirect_mach ‹_›)
        · exact kept_trap (checkDirect_mach ‹_›)
        · split
          · exact (park_kept h).error ‹_›
          · rename_i d hpark
            have hd : d.m.mem.wf = true := (park_kept h).ok _ hpark
            split
            · exact (push_kept hd _).error ‹_›
            · exact kept_ok ((push_kept hd _).ok _ ‹_› :)

theorem actBrx_keeps : KeepsForm actBrx := by
  intro c h
  unfold actBrx
  split
  · exact kept_ok h
  · extract_lets target
    split
    · exact kept_trap (checkTarget_mach ‹_›)
    · exact kept_ok h

theorem actLoop_keeps (off : Int) : KeepsForm (actLoop off) := by
  intro c h
  unfold actLoop
  split
  · exact kept_ok h
  · extract_lets target
    split
    · exact kept_trap (checkDirect_mach ‹_›)
    · exact kept_ok h

theorem actExit_keeps : KeepsForm actExit := fun _ h => exitLanes_kept h _

theorem actRcv_keeps : KeepsForm actRcv := by
  intro c h
  unfold actRcv
  split
  · exact kept_ok h
  · split
    · exact (top_kept h).error ‹_›
    · rename_i d top htop
      have hd : d.m.mem.wf = true := (top_kept h).ok _ htop
      extract_lets arrives
      split
      · exact settleSlots_kept hd
      · exact kept_ok hd

/-- What CALL makes of a trap by overflow: its frame resumes at the target. -/
def resumedAt (target : Nat) : Except Trap Cx → Except Trap Cx
  | .error t => .error (if t.cause = rstackOverflow then { t with next := some target } else t)
  | .ok c => .ok c

/-- Another place to resume at changes no machine of a trap. -/
theorem Kept.resumedAt {r : Except Trap Cx} (h : Kept Cx.m r) (target : Nat) : Kept Cx.m (resumedAt target r) := by
  cases r with
  | ok c => exact h
  | error tr =>
    refine { ok := fun _ e => (by cases e), trap := fun _ m e hm => ?_ }
    cases e
    refine h.trap tr m rfl ?_
    split at hm <;> exact hm

theorem actCall_keeps (off : Int) : KeepsForm (actCall off) := by
  intro c h
  unfold actCall
  split
  · exact kept_ok h
  · extract_lets target at_
    have hat {r : Except Trap Cx} (hr : Kept Cx.m r) : Kept Cx.m (at_ r) := hr.resumedAt target
    split
    · exact kept_trap (checkDirect_mach ‹_›)
    · split
      · exact (hat (park_kept h)).error ‹_›
      · exact hat ((push_kept ((hat (park_kept h)).ok _ ‹_›) _).map fun _ => rfl)

theorem actRet_keeps : KeepsForm actRet := by
  intro c h
  unfold actRet
  split
  · exact kept_ok h
  · extract_lets m
    split
    · exact (pop_kept h).error ‹_›
    · rename_i d hpop
      have hd : d.m.mem.wf = true := (pop_kept h).ok _ hpop
      exact exitLanes_kept hd _
    · rename_i d e hpop
      have hd : d.m.mem.wf = true := (pop_kept h).ok _ hpop
      extract_lets keep d1
      have h1 : d1.m.mem.wf = true := hd
      split
      · exact (top_kept h1).error ‹_›
      · rename_i d2 top htop
        have h2 : d2.m.mem.wf = true := (top_kept h1).ok _ htop
        refine settleSlots_kept ?_
        split
        · split <;> exact h2
        · exact h2

/-! ### ERET -/

theorem eret_mem (c : Cx) (sh : Shadow) : (c.eret sh).mem = c.m.mem := by
  unfold Cx.eret
  extract_lets m blk w x
  split
  · split <;> simp [m]
  · extract_lets read m1 bs byte rhdr
    split
    · simp [m]
    · have h1 : m1.mem = c.m.mem := brought_mem ..
      split
      · rw [kill_mem, h1]
      · split
        · rw [kill_mem, h1]
        · split
          · rw [kill_mem, h1]
          · exact h1

theorem runEret_mem (c : Cx) : c.runEret.mem = c.m.mem := by
  unfold Cx.runEret
  split
  · rw [Cx.flush_mem, Cx.advance_m]
  · split
    · rw [Cx.flush_mem, Cx.takeTrap_m]; rfl
    · split
      · exact eret_mem ..
      · rfl

theorem execEret_mem {w : ZForm} {s t : State} (e : execEret w s = .next t) : t.m.mem = s.m.mem := by
  unfold execEret at e
  cases ho : openCx (.eret w) s with
  | none => rw [ho] at e; cases e
  | some c =>
    rw [ho] at e; cases e
    obtain ⟨-, -, -, -, -, hm, -⟩ := openCx_spec ho
    rw [← hm]
    exact runEret_mem c

/-! ### Events of the part -/

theorem event_some_wf {s t : State} {n : Nat} {m : Mach} (h : m.mem.wf = true) (e : event s (some (n, m)) = .next t) :
    t.m.mem.wf = true := by
  cases e; exact h

theorem event_map_wf {s t : State} {n : Nat} {r : Option Mach} (hr : ∀ m, r = some m → m.mem.wf = true)
    (e : event s (r.map (fun m => (n, m))) = .next t) : t.m.mem.wf = true := by
  cases r with
  | none => cases e
  | some m => exact event_some_wf (hr m rfl) e

theorem event_map_mem {s t : State} {n : Nat} {r : Option Mach} (h : s.m.mem.wf = true)
    (hr : ∀ m, r = some m → m.mem = s.m.mem) (e : event s (r.map (fun m => (n, m))) = .next t) : t.m.mem.wf = true :=
  event_map_wf (fun m hm => (hr m hm).symm ▸ h) e

theorem eventW_some_wf {s t : State} {n : Nat} {m : Mach} (h : m.mem.wf = true) (e : eventW s (some (n, m)) = .next t) :
    t.m.mem.wf = true :=
  event_some_wf (m := m.reread n) ((reread_mem n).symm ▸ h) e

theorem eventW_wf {s t : State} {r : Option (Nat × Mach)} (hr : ∀ n m, r = some (n, m) → m.mem.wf = true)
    (e : eventW s r = .next t) : t.m.mem.wf = true := by
  cases r with
  | none => cases e
  | some p => exact eventW_some_wf (hr p.1 p.2 rfl) e

theorem eventW_map_wf {s t : State} {n : Nat} {r : Option Mach} (hr : ∀ m, r = some m → m.mem.wf = true)
    (e : eventW s (r.map (fun m => (n, m))) = .next t) : t.m.mem.wf = true := by
  cases r with
  | none => cases e
  | some m => exact eventW_some_wf (hr m rfl) e

theorem eventW_map_mem {s t : State} {n : Nat} {r : Option Mach} (h : s.m.mem.wf = true)
    (hr : ∀ m, r = some m → m.mem = s.m.mem) (e : eventW s (r.map (fun m => (n, m))) = .next t) : t.m.mem.wf = true :=
  eventW_map_wf (fun m hm => (hr m hm).symm ▸ h) e

/-! ### Every step -/

/-- For each instruction and event, the rule by which it keeps the form. -/
theorem exec_wf {i : Instr} {s t : State} (e : exec i s = .next t) (h : s.m.mem.wf = true) : t.m.mem.wf = true := by
  cases i with
  | nop => exact issue_wf actNop_keeps e h
  | iadd | isub | imul | imad | imadw | imnmx | iabs | lop | lop3 | shl | shr | rot | shf | bfx | bfi | popc | clz | brev |
    prmb | iadd64 | lea | lea64 | mov | movi | sel | idp4 | mix | cvti | rand | pmovP2v | flagsRd =>
    exact issue_wf (fixedAct_keeps _ _) e h
  | idiv | wred | wscan => exact issue_wf (varExcAct_keeps _ _) e h
  | fadd | fmul | ffma | fmin | fmax | frnd => exact issue_wf (fpAct_keeps _ _ _) e h
  | fdot2 => exact issue_wf (fixedExcAct_keeps _ _ _) e h
  | fdiv | fsqrt | frcp | frsq | fex2 | flg2 | fsinp | fcosp => exact issue_wf (fpVarAct_keeps _ _) e h
  | fscl => exact issue_wf actFscl_keeps e h
  | fxtr => exact issue_wf actFxtr_keeps e h
  | fcls => exact issue_wf actFcls_keeps e h
  | cvtf | cvtif | cvtfi | cvtnEnc | cvtnDec | cvtwFx | cvtwFp | srnd | pack | unpk => exact issue_wf (cvtAct_keeps _ _) e h
  | isetp => exact issue_wf actIsetp_keeps e h
  | fsetp => exact issue_wf actFsetp_keeps e h
  | plop => exact issue_wf actPlop_keeps e h
  | pmovV2p => exact issue_wf actPmovV2p_keeps e h
  | vote => exact issue_wf actVote_keeps e h
  | shfl => exact issue_wf actShfl_keeps e h
  | wfred => exact issue_wf actWfred_keeps e h
  | s2v => exact issue_wf actS2v_keeps e h
  | flagsClr => exact issue_wf actFlagsClr_keeps e h
  | prio => exact issue_wf actPrio_keeps e h
  | bra => exact issue_wf (actBra_keeps _ _) e h
  | brx => exact issue_wf actBrx_keeps e h
  | rcv => exact issue_wf actRcv_keeps e h
  | call => exact issue_wf (actCall_keeps _) e h
  | ret => exact issue_wf actRet_keeps e h
  | exit => exact issue_wf actExit_keeps e h
  | loop => exact issue_wf (actLoop_keeps _) e h
  | bkpt | trap => exact issue_wf (actTrap_keeps _ _) e h
  | ld => exact issue_wf actLd_keeps e h
  | st => exact issue_wf actSt_keeps e h
  | prf => exact issue_wf actPrf_keeps e h
  | opf => exact issue_wf actOpf_keeps e h
  | cmnt => exact issue_wf actCmnt_keeps e h
  | fence => exact issue_wf actFence_keeps e h
  | axch | acas | aadd | amnmx | alop | agadd | ainc => exact issue_wf (actAtomic_keeps _) e h
  | fbind | fld | fldg | fwt => exact issue_wf (actField_keeps _ _) e h
  | fst | fstg | fdrn | fclr => exact issue_wf (actSplat_keeps _ _ _) e h
  | gang | mma | mldb | mldc | mclr | mdrn | mstp | mperm | mred | mtrn | mhist => exact issue_wf actMatrix_keeps e h
  | cpy => exact issue_wf actCpy_keeps e h
  | cpyb => exact issue_wf actCpyb_keeps e h
  | bclose => exact issue_wf actBclose_keeps e h
  | bwait => exact issue_wf actBwait_keeps e h
  | barArrive | barWait | barSync | barx | cbarArrive | cbarWait | cbarSync => exact issue_wf (actBar_keeps _ _) e h
  | sleep => exact issue_wf actSleep_keeps e h
  | wake => exact issue_wf actWake_keeps e h
  | smov | salu | ssetp | v2s | lsclRd | ovftRd => exact issue_wf (armWord_keeps _) e h
  | sld => exact issue_wf actSld_keeps e h
  | sst => exact issue_wf actSst_keeps e h
  | sbr => exact issue_wf actSbr_keeps e h
  | shpwWr => exact issue_wf actShpwWr_keeps e h
  | shpwMk => exact issue_wf actShpwMk_keeps e h
  | lsclSet => exact issue_wf actLsclSet_keeps e h
  | lsclUpd => exact issue_wf actLsclUpd_keeps e h
  | sclaimClaim => exact issue_wf actClaim_keeps e h
  | sclaimRel => exact issue_wf actRel_keeps e h
  | ovftClr => exact issue_wf actOvftClr_keeps e h
  | gadd | grd | gsprd | gctlStart | gctlStop | gctlRate | gctlStep | gmass => exact issue_wf actGossip_keeps e h
  | gsync => exact issue_wf actGsync_keeps e h
  | coll => exact issue_wf actColl_keeps e h
  | halt => exact issue_wf actHalt_keeps e h
  | mqchk => exact issue_wf actMqchk_keeps e h
  | shashSet | shashClr => exact issue_wf (actShash_keeps _) e h
  | sysr => exact issue_wf actSysr_keeps e h
  | sysw => exact issue_wf actSysw_keeps e h
  | ctxsvSave | ctxsvRest => exact issue_wf actCtxsv_keeps e h
  | clauseStart => exact event_map_mem h (fun _ => clauseStart_mem) e
  | deschedule => exact event_map_mem h (fun _ => deschedule_mem) e
  | packEnter => exact event_map_mem h (fun _ => packEnter_mem) e
  | warpUrgent => exact event_map_mem h (fun _ => warpUrgent_mem) e
  | operationFault => exact event_map_wf (fun _ => faultEvent_wf h) e
  | l2Evict => exact event_map_wf (fun _ => l2Evict_wf h) e
  | pageWalk => exact event_some_wf ((pageWalk_mem ..).symm ▸ h) e
  | mmaEngineEntry => exact event_map_mem h (fun _ => mmaEntry_mem) e
  | gangRendezvous => exact event_map_mem h (fun _ => gangRendezvous_mem) e
  | gangBroken => exact event_map_mem h (fun _ => gangBreak_mem) e
  | waitPollTimer => exact event_map_mem h (fun _ => waitPoll_mem) e
  | sleepTimeout => exact event_map_mem h (fun _ => sleepTimeout_mem) e
  | sleepComplete => exact event_map_mem h (fun _ => sleepComplete_mem) e
  | batchRetire => exact event_map_mem h (fun _ => batchRetire_mem) e
  | cpybNoRoute => exact event_map_mem h (fun _ => cpybNoRoute_mem) e
  | warpStop => exact event_map_mem h (fun _ => warpStop_mem) e
  | warpSlotFree => exact event_map_mem h (fun _ => slotFreed_mem) e
  | blockResume => exact event_map_mem h (fun _ => blockResume_mem) e
  | faultTimeout => exact event_map_mem h (fun _ => faultTimedOut_mem) e
  | rmaRead => exact event_some_wf ((rmaRead_mem ..).symm ▸ h) e
  | ueAtomic => exact event_some_wf h e
  | doorbellWrite => exact event_some_wf ((doorbellWrite_mem ..).symm ▸ h) e
  | packetFetch => exact event_map_mem h (fun _ => packetFetch_mem) e
  | tlbInvalidatePacket => exact event_map_mem h (fun _ => tlbPacket_mem) e
  | codeMap => exact event_map_mem h (fun _ => codeMap_mem) e
  | codeUnmap => exact event_map_mem h (fun _ => codeUnmap_mem) e
  | completionRecord => exact event_map_mem h (fun _ => completionRecord_mem) e
  | partSet => exact event_map_mem h (fun _ => partSet_mem) e
  | partClear => exact event_map_mem h (fun _ => partClear_mem) e
  | zeroisation => exact event_map_wf (fun _ => zeroise_wf h) e
  | ctxSet => exact event_map_wf (fun _ => ctxSetCmd_wf h) e
  | runlistWrite => exact event_map_mem h (fun _ => runlistWrite_mem) e
  | ringRestart => exact event_map_mem h (fun _ => ringRestart_mem) e
  | kill => exact event_map_mem h (fun _ => killCmd_mem) e
  | tlbinv => exact event_map_mem h (fun _ => tlbinvCmd_mem) e
  | fwLoad => exact event_map_mem h (fun _ => fwLoad_mem) e
  | attest => exact event_map_mem h (fun _ => attestCmd_mem) e
  | mcReset => exact event_map_wf (fun _ => mcReset_wf h) e
  | sliceExpiry => exact event_map_mem h (fun _ => sliceExpiry_mem) e
  | higherClassReady => exact event_map_mem h (fun _ => higherReady_mem) e
  | graceExpiry => exact event_map_mem h (fun _ => graceExpiry_mem) e
  | killtExpiry => exact event_map_mem h (fun _ => killtExpiry_mem) e
  | engineDrained => exact event_map_mem h (fun _ => engineDrained_mem) e
  | killComplete => exact event_map_wf (fun _ => killComplete_wf h) e
  | softErrorCorrected => exact event_map_mem h (fun _ => softError_mem) e
  | uncorrectableError => exact event_map_mem h (fun _ => uncorrectable_mem) e
  | l1TagError => exact event_map_mem h (fun _ => l1Error_mem) e
  | scrub => exact event_map_mem h (fun _ => scrub_mem) e
  | flitReceive => exact event_map_mem h (fun _ => flitReceive_mem) e
  | linkDown | linkUp => exact event_map_mem h (fun _ => linkTurns_mem) e
  | congestionMark => exact event_some_wf ((congestionMark_mem ..).symm ▸ h) e
  | rateRecovery => exact event_map_mem h (fun _ => rateRecovery_mem) e
  | collAbort => exact event_map_mem h (fun _ => collAbortOp_mem) e
  | gossipEnquiry => exact event_map_mem h (fun _ => gossipEnquiry_mem) e
  | powerOn => exact event_map_mem h (fun _ => powerOn_mem) e
  | railTimeout => exact event_map_mem h (fun _ => railTimeout_mem) e
  | powerOff => exact event_map_wf (fun _ => powerOff_wf h) e
  | bootStage => exact event_map_wf (fun _ => bootStage_wf h) e
  | currentSample => exact event_map_mem h (fun _ => currentSample_mem) e
  | thermalSustained => exact event_map_mem h (fun _ => thermalSustained_mem) e
  | thermalShutdown => exact event_map_mem h (fun _ => thermalShutdown_mem) e
  | reset => exact event_map_wf (fun _ => moduleReset_wf) e
  | junctionAt105 => exact event_map_mem h (fun _ => junctionHot_mem) e
  | junctionBelow100 => exact event_map_mem h (fun _ => junctionCool_mem) e
  | hostRmaCompletion => exact event_map_mem h (fun _ => hostRmaDone_mem) e
  | varComplete => exact eventW_map_wf (fun _ => opTurn_wf h) e
  | storePerform => exact eventW_map_wf (fun _ => storePerform_wf h) e
  | atomicGroup => exact eventW_map_wf (fun _ => groupEvent_wf h) e
  | mqGateAdmit => exact eventW_map_wf (fun _ => gateAdmit_wf h) e
  | fieldPair => exact eventW_map_wf (fun _ => fieldPair_wf h) e
  | copyPieceLand => exact eventW_map_wf (fun _ => copyLand_wf h) e
  | cpybFinish => exact eventW_map_wf (fun _ => cpybFinish_wf h) e
  | cpybRecord => exact eventW_map_wf (fun _ => cpybRecord_wf h) e
  | remoteCpybArrive => exact eventW_some_wf (remoteArrive_wf _ _ h) e
  | haltBroadcast => exact eventW_wf (fun _ _ => haltBroadcast_wf h) e
  | handlerEntry => exact eventW_map_wf (fun _ => handlerEntry_wf h) e
  | rmaWrite => exact eventW_some_wf (rmaWrite_wf _ _ _ _ h) e
  | launchPacket => exact eventW_map_wf (fun _ => launchPacket_wf h) e
  | blockPlace => exact eventW_map_wf (fun _ => blockPlace_wf h) e
  | launchComplete => exact eventW_map_wf (fun _ => launchComplete_wf h) e
  | contextSave => exact eventW_map_wf (fun _ => contextSave_wf h) e
  | contextRestore => exact eventW_map_mem h (fun _ => contextRestore_mem) e
  | l2TagOrEvictError => exact eventW_map_wf (fun _ => l2Error_wf h) e
  | collInstanceRun => exact eventW_map_wf (fun _ => collRun_wf h) e
  | gossipSnapshot => exact eventW_map_wf (fun _ => gossipSnapshot_wf h) e
  | freeRunTick => exact eventW_map_wf (fun _ => freeRunTick_wf h) e
  | gossipMessageArrive => exact eventW_some_wf (gossipArrive_wf _ _ h) e
  | gossipDecisionLearned => exact eventW_map_wf (fun _ => gossipLearned_wf h) e
  | eret => exact (execEret_mem e).symm ▸ h
  | _ => exact issue_wf actMatch_keeps e h  -- MATCH, whose constructor has a keyword's name

theorem fetchFault_mem (s : State) (b w cause : Nat) : (s.fetchFault b w cause).m.mem = s.m.mem := by
  unfold State.fetchFault
  split
  · rfl
  · split
    · rfl
    · dsimp only
      split
      · rw [State.lift_m, kill_mem, foundFault_mem]
      · rw [State.lift_m, setWarp_mem]

theorem runFocus_wf {s t : State} (e : s.runFocus = .next t) (h : s.m.mem.wf = true) : t.m.mem.wf = true := by
  obtain ⟨u, rfl, rfl | ⟨b, w, cause, rfl⟩ | ⟨i, he⟩⟩ := runFocus_cases e
  · exact h
  · exact (fetchFault_mem s b w cause).symm ▸ h
  · exact (exec_wf he h :)

/-- Settles O9: of what a step can do, every instruction, event and fetch fault keeps the form, and no other part touches memory. -/
theorem stepKeepsMemoryForm : Obligations.StepKeepsMemoryForm := by
  intro s t h e
  obtain ⟨i, rest, -, e⟩ | e | ⟨i, e⟩ | ⟨b, w, e⟩ | rfl := step_cases e
  · exact exec_wf e h
  · exact runFocus_wf e h
  · exact exec_wf e h
  · exact runFocus_wf e h
  · rw [State.lift_m, countReady_mem]
    exact h

end Sys2Proof.Machine
end

section
/-! PROOFS. Rounding a magnitude m × 2^e onto the multiples of a unit (04_numbers.md R72, R73): `cut` is the integer part and the
rest of the magnitude in units, `topExp` its binade, and `roundAt` the neighbour that the direction names. -/
namespace Sys2Proof.Num
open Sys2Proof

section
variable {K : Type*} [Field K] [LinearOrder K] [IsStrictOrderedRing K]

/-! ### The binade of a magnitude -/

theorem two_zpow_pos (e : ℤ) : (0 : K) < (2 : K) ^ e := zpow_pos two_pos e

theorem two_zpow_le {i j : ℤ} : (2 : K) ^ i ≤ (2 : K) ^ j ↔ i ≤ j := zpow_le_zpow_iff_right₀ one_lt_two

theorem two_zpow_lt {i j : ℤ} : (2 : K) ^ i < (2 : K) ^ j ↔ i < j := zpow_lt_zpow_iff_right₀ one_lt_two

theorem two_zpow_split (m : ℕ) (e q : ℤ) : (m : K) * 2 ^ e = m * 2 ^ (e - q) * 2 ^ q := by
  rw [mul_assoc, ← zpow_add₀ two_ne_zero, sub_add_cancel]

theorem topExp_le {m : ℕ} (hm : m ≠ 0) (e : ℤ) : (2 : K) ^ topExp m e ≤ m * 2 ^ e := by
  rw [topExp, zpow_add₀ two_ne_zero, zpow_natCast]
  exact mul_le_mul_of_nonneg_right (by exact_mod_cast Nat.log2_self_le hm) (two_zpow_pos e).le

theorem lt_topExp (m : ℕ) (e : ℤ) : (m : K) * 2 ^ e < 2 ^ (topExp m e + 1) := by
  rw [topExp, add_right_comm, zpow_add₀ two_ne_zero, ← Nat.cast_succ, zpow_natCast]
  exact mul_lt_mul_of_pos_right (by exact_mod_cast Nat.lt_log2_self) (two_zpow_pos e)

/-- A magnitude lies in the binades from E up exactly when it is 2^E or more. -/
theorem le_topExp_iff {m : ℕ} (hm : m ≠ 0) (e E : ℤ) : E ≤ topExp m e ↔ (2 : K) ^ E ≤ m * 2 ^ e := by
  constructor
  · intro h
    exact (two_zpow_le.2 h).trans (topExp_le hm e)
  · intro h
    have := two_zpow_lt.1 (h.trans_lt (lt_topExp m e))
    omega

theorem topExp_lt_iff {m : ℕ} (hm : m ≠ 0) (e E : ℤ) : topExp m e < E ↔ (m : K) * 2 ^ e < 2 ^ E := by
  rw [← not_le, le_topExp_iff (K := K) hm, not_le]

theorem topExp_eq {m : ℕ} (hm : m ≠ 0) {e E : ℤ} (h₁ : (2 : K) ^ E ≤ m * 2 ^ e) (h₂ : (m : K) * 2 ^ e < 2 ^ (E + 1)) :
    topExp m e = E := by
  have := (le_topExp_iff (K := K) hm e E).2 h₁
  have := (topExp_lt_iff (K := K) hm e (E + 1)).2 h₂
  omega

/-! ### The integer part and the rest -/

theorem cut_rest_lt (m : ℕ) (e q : ℤ) : (cut m e q).2.1 < 2 ^ (cut m e q).2.2 := by
  unfold cut
  split
  · simp
  · exact Nat.mod_lt _ (by positivity)

/-- A magnitude in units of 2^q is its integer part and the rest of the bits cut. -/
theorem cut_value (m : ℕ) (e q : ℤ) :
    (m : K) * 2 ^ (e - q) = (cut m e q).1 + (cut m e q).2.1 / 2 ^ (cut m e q).2.2 := by
  unfold cut
  split
  next h =>
    obtain ⟨s, hs⟩ := Int.eq_ofNat_of_zero_le (sub_nonneg.2 h)
    simp [hs]
  next h =>
    obtain ⟨s, hs⟩ := Int.eq_ofNat_of_zero_le (sub_nonneg.2 (not_le.1 h).le)
    have hd : (m : K) = (m / 2 ^ s : ℕ) * 2 ^ s + (m % 2 ^ s : ℕ) := by exact_mod_cast (Nat.div_add_mod' m (2 ^ s)).symm
    rw [← neg_sub q e, hs, Int.toNat_natCast, zpow_neg, zpow_natCast, ← div_eq_mul_inv, div_eq_iff (by positivity), add_mul,
      div_mul_cancel₀ _ (by positivity)]
    exact hd

/-- Where nothing but zeros is cut the magnitude is a multiple of the unit. -/
theorem cut_exact {m : ℕ} {e q : ℤ} (h : (cut m e q).2.1 = 0) : ((cut m e q).1 : K) * 2 ^ q = m * 2 ^ e := by
  have hv := cut_value (K := K) m e q
  rw [h, Nat.cast_zero, zero_div, add_zero] at hv
  rw [← hv, ← two_zpow_split]

theorem cut_of_le {m : ℕ} {e q : ℤ} (h : q ≤ e) : (cut m e q).2.1 = 0 := by simp [cut, h]

theorem cut_self (m : ℕ) (q : ℤ) : cut m q q = (m, 0, 0) := by simp [cut]

/-- A magnitude that is a multiple of the unit is cut to that multiple, with no rest. -/
theorem cut_of_multiple {m t : ℕ} {e q : ℤ} (h : (m : K) * 2 ^ e = t * 2 ^ q) :
    (cut m e q).1 = t ∧ (cut m e q).2.1 = 0 := by
  have hlt : ((cut m e q).2.1 : K) / 2 ^ (cut m e q).2.2 < 1 :=
    (div_lt_one (by positivity)).2 (by exact_mod_cast cut_rest_lt m e q)
  have hv : ((cut m e q).1 : K) + (cut m e q).2.1 / 2 ^ (cut m e q).2.2 = t := by
    rw [← cut_value, zpow_sub₀ two_ne_zero, ← mul_div_assoc, h, mul_div_cancel_right₀ _ (two_zpow_pos q).ne']
  have hle : (cut m e q).1 = t := by
    have h₀ : (0 : K) ≤ (cut m e q).2.1 / 2 ^ (cut m e q).2.2 := by positivity
    have h₁ : ((cut m e q).1 : K) ≤ t := by linarith
    have h₂ : (t : K) < (cut m e q).1 + 1 := by linarith
    have h₃ : (cut m e q).1 ≤ t := by exact_mod_cast h₁
    have h₄ : t < (cut m e q).1 + 1 := by exact_mod_cast h₂
    omega
  refine ⟨hle, ?_⟩
  rw [hle, add_eq_left, div_eq_zero_iff] at hv
  exact_mod_cast hv.resolve_right (by positivity)

end

/-! ### The neighbour that a direction names -/

section
variable {T R s : ℕ} (hR : R < 2 ^ s)
include hR

theorem floor_add_rest : ⌊(T : ℝ) + R / 2 ^ s⌋ = T := by
  rw [Int.floor_natCast_add, add_eq_left, Int.floor_eq_zero_iff]
  exact ⟨by positivity, (div_lt_one (by positivity)).2 (by exact_mod_cast hR)⟩

theorem ceil_add_rest : ⌈(T : ℝ) + R / 2 ^ s⌉ = if R = 0 then (T : ℤ) else T + 1 := by
  split
  next h => simp [h]
  next h =>
    have h₁ : (R : ℝ) / 2 ^ s ≤ 1 := (div_le_one (by positivity)).2 (by exact_mod_cast hR.le)
    have h₀ : (0 : ℝ) < R / 2 ^ s := div_pos (by exact_mod_cast Nat.pos_of_ne_zero h) (by positivity)
    rw [Int.ceil_natCast_add, (Int.ceil_eq_iff (z := 1)).2 ⟨by simpa using h₀, by simpa using h₁⟩]

/-- The first n bits of the rest. -/
theorem floor_rest (n : ℕ) :
    ⌊((T : ℝ) + R / 2 ^ s - ⌊(T : ℝ) + R / 2 ^ s⌋) * 2 ^ n⌋ = (R * 2 ^ n / 2 ^ s : ℕ) := by
  rw [floor_add_rest hR, Int.cast_natCast, add_sub_cancel_left, div_mul_eq_mul_div]
  have := Nat.floor_div_eq_div (K := ℝ) (R * 2 ^ n) (2 ^ s)
  push_cast at this
  rw [← this, Int.natCast_floor_eq_floor (by positivity)]

theorem add_rest_eq_floor : (⌊(T : ℝ) + R / 2 ^ s⌋ : ℝ) = T + R / 2 ^ s ↔ R = 0 := by
  rw [floor_add_rest hR]
  simp

/-- To nearest: up above one half of the unit, and at one half from an odd multiple. -/
theorem roundsTo_nearest (neg : Bool) (rand r n : ℕ) :
    Spec.RoundsTo .rn neg ((T : ℝ) + R / 2 ^ s) rand n (if roundsUp .rn neg T R s r n then T + 1 else T) := by
  have hlt : (R : ℝ) / 2 ^ s < 1 := (div_lt_one (by positivity)).2 (by exact_mod_cast hR)
  have h₀ : (0 : ℝ) ≤ R / 2 ^ s := by positivity
  have hlo : (R : ℝ) / 2 ^ s < 1 / 2 ↔ 2 * R < 2 ^ s := by
    rw [div_lt_div_iff₀ (by positivity) two_pos, one_mul, mul_comm]
    exact_mod_cast Iff.rfl
  have heq : (R : ℝ) / 2 ^ s = 1 / 2 ↔ 2 * R = 2 ^ s := by
    rw [div_eq_div_iff (by positivity) two_ne_zero, one_mul, mul_comm]
    exact_mod_cast Iff.rfl
  have hz : R = 0 → 2 * R < 2 ^ s := fun h => by rw [h]; positivity
  rcases lt_trichotomy (2 * R) (2 ^ s) with h | h | h
  · have hx := hlo.2 h
    have : roundsUp .rn neg T R s r n = false := by simp [roundsUp]; omega
    rw [this, if_neg (by simp), Spec.RoundsTo, sub_add_cancel_left, abs_neg, abs_of_nonneg h₀]
    exact ⟨hx.le, fun h => absurd h hx.ne⟩
  · have hx := heq.2 h
    have hR0 : R ≠ 0 := fun h' => (hz h').ne h
    have : roundsUp .rn neg T R s r n = decide (T % 2 = 1) := by simp [roundsUp, h, hR0]
    rw [this, hx]
    simp only [decide_eq_true_eq, Spec.RoundsTo]
    split
    · refine ⟨?_, fun _ => by omega⟩
      push_cast
      rw [show (T : ℝ) + 1 - (T + 1 / 2) = 1 / 2 by ring, abs_of_pos (by norm_num)]
    · refine ⟨?_, fun _ => by omega⟩
      rw [sub_add_cancel_left, abs_neg, abs_of_pos (by norm_num)]
  · have hx : 1 / 2 < (R : ℝ) / 2 ^ s := by
      rcases lt_trichotomy ((R : ℝ) / 2 ^ s) (1 / 2) with g | g | g
      · have := hlo.1 g
        omega
      · have := heq.1 g
        omega
      · exact g
    have : roundsUp .rn neg T R s r n = true := by simp [roundsUp]; omega
    rw [this, if_pos rfl, Spec.RoundsTo]
    push_cast
    rw [show (T : ℝ) + 1 - (T + R / 2 ^ s) = 1 - R / 2 ^ s by ring, abs_of_pos (by linarith)]
    exact ⟨by linarith, fun h => by linarith⟩

/-- Each direction's neighbour of a magnitude given by its integer part and its rest. -/
theorem roundsTo_roundsUp (rm : Rm) (neg : Bool) (r n : ℕ) :
    Spec.RoundsTo rm neg ((T : ℝ) + R / 2 ^ s) r n (if roundsUp rm neg T R s r n then T + 1 else T) := by
  cases rm with
  | rn => exact roundsTo_nearest hR neg r r n
  | rz => simp [Spec.RoundsTo, roundsUp, floor_add_rest hR]
  | ru =>
    rw [Spec.RoundsTo, floor_add_rest hR, ceil_add_rest hR]
    cases neg <;> by_cases h : R = 0 <;> simp [roundsUp, h]
  | rd =>
    rw [Spec.RoundsTo, floor_add_rest hR, ceil_add_rest hR]
    cases neg <;> by_cases h : R = 0 <;> simp [roundsUp, h]
  | sr =>
    rw [Spec.RoundsTo, floor_rest hR, floor_add_rest hR]
    have hr : r % 2 ^ n < 2 ^ n := Nat.mod_lt _ (by positivity)
    by_cases h : R = 0
    · simp [roundsUp, h]
      omega
    · have : (2 : ℤ) ^ n ≤ (R * 2 ^ n / 2 ^ s : ℕ) + (r % 2 ^ n : ℕ) ↔ 2 ^ n ≤ R * 2 ^ n / 2 ^ s + r % 2 ^ n := by
        exact_mod_cast Iff.rfl
      simp only [roundsUp, bne_iff_ne, ne_eq, h, not_false_eq_true, decide_eq_true_eq, Bool.and_eq_true, true_and, this]
      split <;> simp

end

/-- `roundAt` gives the multiple of the unit that the direction names. -/
theorem roundAt_roundsTo (rm : Rm) (neg : Bool) (m : ℕ) (e q : ℤ) (r n : ℕ) :
    Spec.RoundsTo rm neg ((m : ℝ) * 2 ^ (e - q)) r n (roundAt rm neg m e q r n).1 := by
  rw [cut_value]
  exact roundsTo_roundsUp (cut_rest_lt m e q) rm neg r n

/-- It is reported as changing the value exactly when the value is no multiple of the unit. -/
theorem roundAt_snd (rm : Rm) (neg : Bool) (m : ℕ) (e q : ℤ) (r n : ℕ) :
    (roundAt rm neg m e q r n).2 = true ↔ (⌊(m : ℝ) * 2 ^ (e - q)⌋ : ℝ) ≠ m * 2 ^ (e - q) := by
  rw [cut_value, Ne, add_rest_eq_floor (cut_rest_lt m e q)]
  simp [roundAt]

/-- The multiple is the value itself exactly where no change is reported. -/
theorem roundAt_eq_iff (rm : Rm) (neg : Bool) (m : ℕ) (e q : ℤ) (r n : ℕ) :
    ((roundAt rm neg m e q r n).1 : ℝ) = m * 2 ^ (e - q) ↔ (roundAt rm neg m e q r n).2 = false := by
  rw [← Bool.not_eq_true, roundAt_snd, not_not]
  constructor
  · intro h
    rw [← h, Int.floor_natCast, Int.cast_natCast]
  · intro h
    rw [cut_value, add_rest_eq_floor (cut_rest_lt m e q)] at h
    rw [cut_value]
    simp [roundAt, roundsUp, h]

/-- Rounding goes up by one unit at most. -/
theorem roundAt_le (rm : Rm) (neg : Bool) {m : ℕ} {e q : ℤ} (r n : ℕ) {N : ℕ} (h : (m : ℝ) * 2 ^ (e - q) < N) :
    (roundAt rm neg m e q r n).1 ≤ N := by
  have hT : ((cut m e q).1 : ℝ) < N := by
    rw [cut_value] at h
    exact lt_of_le_of_lt (le_add_of_nonneg_right (by positivity)) h
  have hT : (cut m e q).1 < N := by exact_mod_cast hT
  simp only [roundAt]
  split <;> omega

/-- A multiple of the unit is its own rounding. -/
theorem roundAt_exact {m t : ℕ} {e q : ℤ} (h : (m : ℝ) * 2 ^ e = t * 2 ^ q) (rm : Rm) (neg : Bool) (r n : ℕ) :
    roundAt rm neg m e q r n = (t, false) := by
  obtain ⟨h₁, h₂⟩ := cut_of_multiple h
  simp [roundAt, roundsUp, h₁, h₂]

end Sys2Proof.Num
end

section
/-! PROOFS. The IEEE formats (04_numbers.md R69): an encoding is a sign, a biased exponent and a fraction; what a format holds, its
encoding reads back as, and a finite encoding is the encoding of the value that it reads as. -/
namespace Sys2Proof.Num
open Sys2Proof

/-- What the four formats of R69 have in common. -/
structure Fmt.IsIeee (f : Fmt) : Prop where
  p_pos : 1 ≤ f.p
  emin_eq : f.emin = 1 - f.emax
  two_pow_eb : (2 : ℤ) ^ f.eb = 2 * f.emax + 2
  fb_lt_emax : (f.fb : ℤ) < f.emax
  fb_le : f.fb ≤ 52

theorem isIeee_of_mem {f : Fmt} (hf : f ∈ Spec.ieee) : f.IsIeee := by
  simp only [Spec.ieee, List.mem_cons, List.not_mem_nil, or_false] at hf
  rcases hf with rfl | rfl | rfl | rfl <;> exact ⟨by decide, by decide, by decide, by decide, by decide⟩

theorem Fmt.rbits_le (f : Fmt) : f.rbits ≤ 32 := by unfold Fmt.rbits; split <;> omega

/-- The magnitude of a number of units is below a power of two exactly when the number is. -/
theorem units_lt_pow (c n : ℕ) (q : ℤ) : (c : ℝ) * 2 ^ q < 2 ^ (q + n) ↔ c < 2 ^ n := by
  rw [add_comm, zpow_add₀ two_ne_zero, mul_lt_mul_iff_left₀ (two_zpow_pos q), zpow_natCast]
  exact_mod_cast Iff.rfl

/-- The exponent of the last place at a magnitude of binade x. -/
def Fmt.last (f : Fmt) (x : ℤ) : ℤ := Max.max x f.emin - f.fb

/-- The encoding of a sign, a biased exponent and a fraction. -/
def Fmt.pack (f : Fmt) (neg : Bool) (b c : ℕ) : ℕ := f.zero neg + b * 2 ^ f.fb + c

namespace Fmt.IsIeee
variable {f : Fmt} (hf : f.IsIeee)
include hf

theorem p_eq : f.p = f.fb + 1 := by
  have := hf.p_pos
  unfold Fmt.fb
  omega

theorem bits_eq : f.bits = f.fb + f.eb + 1 := by
  rw [Fmt.bits, hf.p_eq]
  omega

theorem zero_eq (neg : Bool) : f.zero neg = neg.toNat * 2 ^ (f.fb + f.eb) := by
  rw [Fmt.zero, hf.bits_eq]
  cases neg <;> simp

theorem eb_pow_nat : ((2 ^ f.eb : ℕ) : ℤ) = 2 * f.emax + 2 := by
  exact_mod_cast hf.two_pow_eb

/-! ### Sign, exponent and fraction -/

section
variable {neg : Bool} {b c : ℕ} (hb : b < 2 ^ f.eb) (hc : c < 2 ^ f.fb)
include hb hc

omit hf in
theorem pack_fields_lt : b * 2 ^ f.fb + c < 2 ^ (f.fb + f.eb) := by
  calc b * 2 ^ f.fb + c < (b + 1) * 2 ^ f.fb := by rw [Nat.succ_mul]; omega
    _ ≤ 2 ^ f.eb * 2 ^ f.fb := Nat.mul_le_mul_right _ hb
    _ = 2 ^ (f.fb + f.eb) := by rw [← pow_add, Nat.add_comm]

theorem pack_lt : f.pack neg b c < 2 ^ f.bits := by
  have := pack_fields_lt hb hc
  rw [Fmt.pack, hf.zero_eq, hf.bits_eq, pow_succ]
  cases neg <;> simp <;> omega

theorem pack_sign : (f.pack neg b c).testBit (f.bits - 1) = neg := by
  have h := pack_fields_lt hb hc
  rw [Nat.testBit_eq_decide_div_mod_eq, Fmt.pack, hf.zero_eq, hf.bits_eq, Nat.add_sub_cancel, Nat.add_assoc, Nat.add_comm,
    Nat.add_mul_div_right _ _ (by positivity), Nat.div_eq_of_lt h]
  cases neg <;> simp

theorem pack_div : f.pack neg b c / 2 ^ f.fb % 2 ^ f.eb = b := by
  have h : f.pack neg b c = c + (neg.toNat * 2 ^ f.eb + b) * 2 ^ f.fb := by
    rw [Fmt.pack, hf.zero_eq, pow_add]
    ring
  rw [h, Nat.add_mul_div_right _ _ (by positivity), Nat.div_eq_of_lt hc, Nat.zero_add, Nat.mul_add_mod_self_right,
    Nat.mod_eq_of_lt hb]

omit hb in
theorem pack_mod : f.pack neg b c % 2 ^ f.fb = c := by
  have h : f.pack neg b c = (neg.toNat * 2 ^ f.eb + b) * 2 ^ f.fb + c := by
    rw [Fmt.pack, hf.zero_eq, pow_add]
    ring
  rw [h, Nat.mul_add_mod_self_right, Nat.mod_eq_of_lt hc]

/-- What an encoding reads as, by its fields. -/
theorem decodeF_pack : decodeF f (f.pack neg b c) =
    if b = 2 ^ f.eb - 1 then (if c = 0 then .inf neg else .nan neg c f.fb)
    else if b = 0 then .fin neg c (f.emin - f.fb) else .fin neg (2 ^ f.fb + c) (b - f.emax - f.fb) := by
  simp only [decodeF, Nat.mod_eq_of_lt (hf.pack_lt hb hc), hf.pack_sign hb hc, hf.pack_div hb hc, hf.pack_mod hc]

end

theorem exists_pack {x : ℕ} (hx : x < 2 ^ f.bits) :
    ∃ neg b c, b < 2 ^ f.eb ∧ c < 2 ^ f.fb ∧ x = f.pack neg b c := by
  have hx : x < 2 ^ (f.fb + f.eb) * 2 := by rwa [← pow_succ, ← hf.bits_eq]
  refine ⟨decide (2 ^ (f.fb + f.eb) ≤ x), x / 2 ^ f.fb % 2 ^ f.eb, x % 2 ^ f.fb, Nat.mod_lt _ (by positivity),
    Nat.mod_lt _ (by positivity), ?_⟩
  have h₁ : x / 2 ^ f.fb / 2 ^ f.eb = (decide (2 ^ (f.fb + f.eb) ≤ x)).toNat := by
    rw [Nat.div_div_eq_div_mul, ← pow_add]
    by_cases h : 2 ^ (f.fb + f.eb) ≤ x
    · rw [Nat.div_eq_sub_div (by positivity) h, Nat.div_eq_of_lt (by omega)]
      simp [h]
    · rw [Nat.div_eq_of_lt (by omega)]
      simp [h]
  rw [Fmt.pack, hf.zero_eq, ← h₁, pow_add, Nat.mul_comm (2 ^ f.fb), ← Nat.mul_assoc, ← Nat.add_mul, Nat.div_add_mod',
    Nat.div_add_mod']

/-! ### What a format holds -/

/-- The fields of a finite encoding, subnormal or normal, and the binade of its value. -/
theorem decodeF_fin {x : ℕ} {neg : Bool} {m : ℕ} {e : ℤ} (hx : x < 2 ^ f.bits) (h : decodeF f x = .fin neg m e) :
    (x = f.pack neg 0 m ∧ m < 2 ^ f.fb ∧ e = f.emin - f.fb ∧ (m ≠ 0 → topExp m e < f.emin)) ∨
    ∃ b c, x = f.pack neg b c ∧ 1 ≤ b ∧ (b : ℤ) ≤ 2 * f.emax ∧ c < 2 ^ f.fb ∧ m = 2 ^ f.fb + c ∧ e = b - f.emax - f.fb ∧
      topExp m e = b - f.emax := by
  obtain ⟨n, b, c, hb, hc, rfl⟩ := hf.exists_pack hx
  have heb := hf.eb_pow_nat
  rw [hf.decodeF_pack hb hc] at h
  split at h
  · split at h <;> cases h
  next hb' =>
    split at h
    next hb₀ =>
      cases h
      subst hb₀
      refine .inl ⟨rfl, hc, rfl, fun h₀ => ?_⟩
      rw [topExp_lt_iff (K := ℝ) h₀]
      simpa using (units_lt_pow _ f.fb (f.emin - f.fb)).2 hc
    next hb₀ =>
      cases h
      have hlog : (2 ^ f.fb + c).log2 = f.fb := (Nat.log2_eq_iff (by omega)).2 ⟨by omega, by rw [pow_succ]; omega⟩
      exact .inr ⟨b, c, rfl, by omega, by omega, hc, rfl, rfl, by rw [topExp, hlog]; omega⟩

end Fmt.IsIeee

theorem decodeF_mod (f : Fmt) (x : ℕ) : decodeF f (x % 2 ^ f.bits) = decodeF f x := by simp [decodeF]

/-- A magnitude t × 2^q that the format holds. -/
structure Fmt.Holds (f : Fmt) (t : ℕ) (q : ℤ) : Prop where
  le_emax : t ≠ 0 → topExp t q ≤ f.emax
  exact : (cut t q (f.last (topExp t q))).2.1 = 0

theorem encodeF_zero (f : Fmt) (neg : Bool) (q : ℤ) : encodeF f neg 0 q = f.pack neg 0 0 := by
  simp [encodeF, Fmt.pack]

theorem encodeF_subnormal {f : Fmt} {t : ℕ} {q : ℤ} (ht : t ≠ 0) (h : topExp t q < f.emin) (neg : Bool) :
    encodeF f neg t q = f.pack neg 0 (cut t q (f.emin - f.fb)).1 := by
  simp [encodeF, Fmt.pack, ht, h]

theorem encodeF_normal {f : Fmt} {t : ℕ} {q : ℤ} (ht : t ≠ 0) (h : ¬topExp t q < f.emin) (neg : Bool) :
    encodeF f neg t q =
      f.pack neg (topExp t q + f.emax).toNat ((cut t q (topExp t q - f.fb)).1 - 2 ^ f.fb) := by
  simp [encodeF, Fmt.pack, ht, h]

namespace Fmt.IsIeee
variable {f : Fmt} (hf : f.IsIeee)
include hf

/-- What a format holds is encoded to what reads as the same sign and magnitude. -/
theorem decodeF_encodeF {t : ℕ} {q : ℤ} (h : f.Holds t q) (neg : Bool) :
    encodeF f neg t q < 2 ^ f.bits ∧
      ∃ m e, decodeF f (encodeF f neg t q) = .fin neg m e ∧ (m : ℝ) * 2 ^ e = t * 2 ^ q := by
  have heb := hf.eb_pow_nat
  have hfb := hf.fb_lt_emax
  have hemin := hf.emin_eq
  have hpos : 0 < 2 ^ f.fb := by positivity
  by_cases ht : t = 0
  · subst ht
    rw [encodeF_zero, hf.decodeF_pack (by omega) hpos, if_neg (by omega), if_pos rfl]
    exact ⟨hf.pack_lt (by omega) hpos, _, _, rfl, by simp⟩
  by_cases hs : topExp t q < f.emin
  · have hlast : f.last (topExp t q) = f.emin - f.fb := by rw [Fmt.last, max_eq_right hs.le]
    have hv := cut_exact (K := ℝ) (hlast ▸ h.exact)
    have hc : (cut t q (f.emin - f.fb)).1 < 2 ^ f.fb := by
      rw [← units_lt_pow _ _ (f.emin - f.fb), hv, sub_add_cancel]
      exact (topExp_lt_iff ht q _).1 hs
    rw [encodeF_subnormal ht hs, hf.decodeF_pack (by omega) hc, if_neg (by omega), if_pos rfl]
    exact ⟨hf.pack_lt (by omega) hc, _, _, rfl, hv⟩
  · have hlast : f.last (topExp t q) = topExp t q - f.fb := by rw [Fmt.last, max_eq_left (not_lt.1 hs)]
    have hv := cut_exact (K := ℝ) (hlast ▸ h.exact)
    have hlo : ¬(cut t q (topExp t q - f.fb)).1 < 2 ^ f.fb := by
      rw [← units_lt_pow _ _ (topExp t q - f.fb), hv, sub_add_cancel]
      exact (topExp_le ht q).not_gt
    have hhi : (cut t q (topExp t q - f.fb)).1 < 2 ^ (f.fb + 1) := by
      rw [← units_lt_pow _ _ (topExp t q - f.fb), hv, Nat.cast_succ, ← add_assoc, sub_add_cancel]
      exact lt_topExp t q
    have hmax := h.le_emax ht
    rw [pow_succ] at hhi
    rw [encodeF_normal ht hs, hf.decodeF_pack (by omega) (by omega), if_neg (by omega), if_neg (by omega)]
    refine ⟨hf.pack_lt (by omega) (by omega), _, _, rfl, ?_⟩
    rw [Int.toNat_of_nonneg (by omega), add_sub_cancel_right, Nat.add_sub_cancel' (by omega), hv]

/-- A magnitude of at most p bits, on the multiples of the smallest subnormal, is held where it is not too large. -/
theorem holds_of_le {t : ℕ} {q : ℤ} (ht : t ≤ 2 ^ f.p) (hq : f.emin - f.fb ≤ q) (hmax : t ≠ 0 → topExp t q ≤ f.emax) :
    f.Holds t q := by
  refine ⟨hmax, ?_⟩
  have hp := hf.p_eq
  by_cases h : f.last (topExp t q) ≤ q
  · exact cut_of_le h
  rcases ht.lt_or_eq with ht | rfl
  · have hlog : t.log2 < f.p := by
      rcases eq_or_ne t 0 with rfl | h₀
      · exact hf.p_pos
      · exact (Nat.log2_lt h₀).2 ht
    unfold Fmt.last topExp at h
    omega
  · have : f.last (topExp (2 ^ f.p) q) = q + 1 := by
      unfold Fmt.last topExp at h ⊢
      rw [Nat.log2_two_pow] at h ⊢
      omega
    rw [this]
    refine (cut_of_multiple (K := ℝ) (t := 2 ^ f.fb) ?_).2
    rw [hp, zpow_add₀ two_ne_zero]
    push_cast
    ring

/-- A finite encoding's exponent is that of its last place, and its significand has at most p bits. -/
theorem decodeF_grid {x : ℕ} {neg : Bool} {m : ℕ} {e : ℤ} (h : decodeF f x = .fin neg m e) :
    m < 2 ^ f.p ∧ f.emin - f.fb ≤ e ∧ (m ≠ 0 → e = f.last (topExp m e) ∧ topExp m e ≤ f.emax) := by
  have hemin := hf.emin_eq
  have hfb := hf.fb_lt_emax
  rw [← decodeF_mod] at h
  rw [hf.p_eq, pow_succ, Fmt.last]
  obtain ⟨-, hm, rfl, htop⟩ | ⟨b, c, -, hb₁, hb₂, hc, rfl, rfl, htop⟩ := hf.decodeF_fin (Nat.mod_lt _ (by positivity)) h
  · refine ⟨by omega, le_rfl, fun h₀ => ?_⟩
    have := htop h₀
    omega
  · refine ⟨by omega, by omega, fun _ => ?_⟩
    rw [htop]
    omega

/-- A finite encoding is that of the value that it reads as. -/
theorem encodeF_decodeF {x : ℕ} {neg : Bool} {m : ℕ} {e : ℤ} (hx : x < 2 ^ f.bits) (h : decodeF f x = .fin neg m e) :
    encodeF f neg m e = x := by
  have hemin := hf.emin_eq
  have hpos : 0 < 2 ^ f.fb := by positivity
  obtain ⟨rfl, -, rfl, htop⟩ | ⟨b, c, rfl, hb₁, -, -, rfl, rfl, htop⟩ := hf.decodeF_fin hx h
  · rcases eq_or_ne m 0 with rfl | hm₀
    · exact encodeF_zero f neg _
    · rw [encodeF_subnormal hm₀ (htop hm₀), cut_self]
  · rw [encodeF_normal (by omega) (by rw [htop]; omega), htop, cut_self, Nat.add_sub_cancel_left, sub_add_cancel,
      Int.toNat_natCast]

end Fmt.IsIeee

end Sys2Proof.Num
end

section
/-! PROOFS. One rounding into a format (04_numbers.md R70, R73 to R75, R87). `roundedTo` is the part of it that FTZ and the choice of
direction leave: the neighbour on the grid of `g`, encoded in `f`, with its exceptions. `roundF` is `roundedTo` on the format's own
grid; SRND is `roundedTo` on a coarser one. -/
namespace Sys2Proof.Num
open Sys2Proof

/-! ### The random word of the gradient class -/

theorem toNat_xor_shift (x : Word) (i : ℕ) : (x ^^^ (x >>> i)).toNat = Nat.xor x.toNat (x.toNat / 2 ^ i) := by
  rw [BitVec.toNat_xor, BitVec.toNat_ushiftRight, Nat.shiftRight_eq_div_pow]
  rfl

theorem toNat_mul_const (x : Word) (c : ℕ) : (x * BitVec.ofNat 32 c).toNat = c * x.toNat % 2 ^ 32 := by
  rw [BitVec.toNat_mul, BitVec.toNat_ofNat, Nat.mul_mod_mod, Nat.mul_comm]

theorem toNat_counter (a b key c : ℕ) :
    ((BitVec.ofNat 32 a ^^^ BitVec.ofNat 32 key) + BitVec.ofNat 32 b * BitVec.ofNat 32 c).toNat =
      (Nat.xor (a % 2 ^ 32) (key % 2 ^ 32) + c * (b % 2 ^ 32)) % 2 ^ 32 := by
  rw [BitVec.toNat_add, toNat_mul_const, Nat.add_mod_mod, BitVec.toNat_xor, BitVec.toNat_ofNat, BitVec.toNat_ofNat,
    BitVec.toNat_ofNat]
  rfl

theorem toNat_randWord (a b key : ℕ) :
    (Spec.randWord (BitVec.ofNat 32 a) (BitVec.ofNat 32 b) (BitVec.ofNat 32 key)).toNat = rand32 a b key := by
  rw [Spec.randWord, toNat_xor_shift, toNat_mul_const, toNat_xor_shift, toNat_mul_const, toNat_xor_shift, toNat_counter, rand32]

/-- D and T of R75, as the random word's counter and stream. -/
theorem gradWord_eq (m : ℕ) (e q : ℤ) (n : ℕ) {k : Rnd} (hk : k.grand = none) :
    Spec.gradWord k ((m : ℝ) * 2 ^ (e - q)) n (gradWord m e q n) := by
  have hR := cut_rest_lt m e q
  rw [Spec.gradWord, hk]
  dsimp only
  rw [cut_value, floor_rest hR, floor_add_rest hR, BitVec.ofInt_natCast, BitVec.ofInt_natCast, toNat_randWord,
    Nat.mul_comm _ (2 ^ 32)]
  rfl

/-! ### The rounding and its exceptions -/

/-- A grid at most as fine as the format's own. -/
structure Fmt.Within (g f : Fmt) : Prop where
  p_pos : 1 ≤ g.p
  p_le : g.p ≤ f.p
  emin_eq : g.emin = f.emin
  emax_eq : g.emax = f.emax

theorem Fmt.IsIeee.within {f : Fmt} (hf : f.IsIeee) : f.Within f := ⟨hf.p_pos, le_rfl, rfl, rfl⟩

/-- Whether the rounding of an overflow gives an infinity, and not the largest finite value (R70). -/
def toInfinity (rm : Rm) (neg : Bool) : Bool :=
  match rm with
  | .rn => true
  | .sr => true
  | .ru => !neg
  | .rd => neg
  | .rz => false

/-- The rounding of ±m × 2^e onto the grid of `g` in direction `rm` with the random word `r`, encoded in `f`. -/
def roundedTo (g f : Fmt) (rm : Rm) (neg : Bool) (m : ℕ) (e : ℤ) (r : ℕ) : ℕ × Exc :=
  let x := topExp m e
  let t := roundAt rm neg m e (g.last x) r f.rbits
  let u := roundAt rm neg m e (x - g.fb) r f.rbits
  if t.1 ≠ 0 ∧ g.emax < topExp t.1 (g.last x) then
    (if toInfinity rm neg then f.inf neg else f.max neg, ovf ||| nx)
  else
    (encodeF f neg t.1 (g.last x),
      (if t.2 then nx else 0#5) |||
        if t.2 ∧ x < g.emin ∧ (u.1 = 0 ∨ topExp u.1 (x - g.fb) < g.emin) then unf else 0#5)

theorem above_iff (t : ℕ) (q E : ℤ) : (t ≠ 0 ∧ E < topExp t q) ↔ (2 : ℝ) ^ (E + 1) ≤ t * 2 ^ q := by
  by_cases ht : t = 0
  · simpa [ht] using two_zpow_pos (K := ℝ) (E + 1)
  · rw [← le_topExp_iff ht, Int.add_one_le_iff]
    exact and_iff_right ht

theorem below_iff (t : ℕ) (q E : ℤ) : (t = 0 ∨ topExp t q < E) ↔ (t : ℝ) * 2 ^ q < 2 ^ E := by
  by_cases ht : t = 0
  · simpa [ht] using two_zpow_pos (K := ℝ) E
  · rw [← topExp_lt_iff ht]
    exact or_iff_right ht

theorem ite_toInfinity (rm : Rm) (neg : Bool) (x y : ℕ) :
    (if toInfinity rm neg then x else y) = if rm = .rz ∨ (rm = .ru ∧ neg = true) ∨ (rm = .rd ∧ neg = false) then y else x := by
  cases rm <;> cases neg <;> rfl

theorem mul_zpow_div (m : ℕ) (e q : ℤ) : (m : ℝ) * 2 ^ e / 2 ^ q = m * 2 ^ (e - q) := by
  rw [zpow_sub₀ two_ne_zero, mul_div_assoc]

/-- What a rounding onto a coarser grid leaves is held by the format. -/
theorem holds_roundAt {g f : Fmt} (hf : f.IsIeee) (hg : g.Within f) (rm : Rm) (neg : Bool) (m : ℕ) (e : ℤ) (r n : ℕ)
    (hmax : ¬((roundAt rm neg m e (g.last (topExp m e)) r n).1 ≠ 0 ∧
      g.emax < topExp (roundAt rm neg m e (g.last (topExp m e)) r n).1 (g.last (topExp m e)))) :
    f.Holds (roundAt rm neg m e (g.last (topExp m e)) r n).1 (g.last (topExp m e)) := by
  obtain ⟨hp, hle, hemin, hemax⟩ := hg
  have hgb : g.fb + 1 = g.p := Nat.sub_add_cancel hp
  have hfb : f.fb + 1 = f.p := Nat.sub_add_cancel hf.p_pos
  have hu : (m : ℝ) * 2 ^ (e - g.last (topExp m e)) < (2 ^ g.p : ℕ) := by
    rw [← mul_zpow_div, div_lt_iff₀ (two_zpow_pos _), Nat.cast_pow, Nat.cast_two, ← zpow_natCast, ← zpow_add₀ two_ne_zero]
    refine (lt_topExp m e).trans_le (two_zpow_le.2 ?_)
    unfold Fmt.last
    omega
  refine hf.holds_of_le ((roundAt_le rm neg r n hu).trans (Nat.pow_le_pow_right two_pos hle)) ?_ ?_
  · unfold Fmt.last
    omega
  · intro h₀
    rw [← hemax]
    exact not_lt.1 fun h => hmax ⟨h₀, h⟩

/-- The rounding onto a grid is what R70 and R87 want of it, where FTZ does not come in and the direction and the random word
are those of the class. -/
theorem roundsOnto_roundedTo {g f : Fmt} (hf : f.IsIeee) (hg : g.Within f) {k : Rnd} {neg : Bool} {m : ℕ} {e : ℤ} {rm : Rm}
    {r : ℕ} (hm : m ≠ 0) (hflush : ¬(topExp m e < g.emin ∧ k.ftz = true ∧ k.gr = false))
    (hmode : if topExp m e < g.emin ∧ k.gr = true then rm = .sr ∧ (if k.rm = .sr then r = k.rand
        else Spec.gradWord k ((m : ℝ) * 2 ^ (e - g.last (topExp m e))) f.rbits r)
      else rm = k.rm ∧ r = k.rand) :
    Spec.RoundsOnto g f k neg (m * 2 ^ e) (roundedTo g f rm neg m e r) := by
  intro E h₁ h₂
  obtain rfl := topExp_eq hm h₁ h₂
  have hq : Max.max (topExp m e) g.emin - (g.fb : ℤ) = g.last (topExp m e) := rfl
  dsimp only
  rw [if_neg hflush, hq, mul_zpow_div, mul_zpow_div]
  refine ⟨rm, r, _, _, hmode, roundAt_roundsTo rm neg m e _ r f.rbits, roundAt_roundsTo rm neg m e _ r f.rbits, ?_⟩
  simp only [roundedTo, ← above_iff, ← below_iff, roundAt_eq_iff]
  split
  · rw [ite_toInfinity]
  next hmax =>
    obtain ⟨hlt, m', e', hd, hv⟩ := hf.decodeF_encodeF (holds_roundAt hf hg rm neg m e r f.rbits hmax) neg
    refine ⟨hlt, ⟨neg, m', e', hd⟩, by rw [hd]; rfl, ?_, ?_⟩
    · rw [hd, ← hv, Spec.valueOf]
      push_cast
      split <;> simp
    · cases (roundAt rm neg m e (g.last (topExp m e)) r f.rbits).2
      · simp
      · simp only [true_and, if_true, Bool.true_eq_false, if_false]
        split <;> rfl

/-- One rounding into a format is the flushed zero of R74, or the rounding on its own grid. -/
theorem roundF_eq (f : Fmt) (k : Rnd) (neg : Bool) {m : ℕ} (hm : m ≠ 0) (e : ℤ) :
    roundF f k neg m e =
      if topExp m e < f.emin ∧ k.ftz = true ∧ k.gr = false then (f.zero neg, unf ||| nx)
      else if topExp m e < f.emin ∧ k.gr = true then
        roundedTo f f .sr neg m e
          (if k.rm = .sr then k.rand else k.grand.getD (gradWord m e (f.last (topExp m e)) f.rbits))
      else roundedTo f f k.rm neg m e k.rand := by
  by_cases h : topExp m e < f.emin
  · have hl : f.last (topExp m e) = f.emin - f.fb := by rw [Fmt.last, max_eq_right h.le]
    by_cases hg : k.gr = true
    · simp [roundF, roundedTo, toInfinity, hm, h, hg, hl]
    · by_cases hz : k.ftz = true
      · simp [roundF, hm, h, hg, hz]
      · simp [roundF, roundedTo, toInfinity, hm, h, hg, hz, hl] <;> rfl
  · have hl : f.last (topExp m e) = topExp m e - f.fb := by rw [Fmt.last, max_eq_left (not_lt.1 h)]
    simp [roundF, roundedTo, toInfinity, hm, h, hl] <;> rfl

/-- One rounding into a format (R70, R74, R75, R87). -/
theorem roundsInto_roundF {f : Fmt} (hf : f.IsIeee) (k : Rnd) (neg : Bool) {m : ℕ} (hm : m ≠ 0) (e : ℤ) :
    Spec.RoundsInto f k neg (m * 2 ^ e) (roundF f k neg m e) := by
  rw [roundF_eq f k neg hm]
  split
  next hflush =>
    intro E h₁ h₂
    obtain rfl := topExp_eq hm h₁ h₂
    dsimp only
    rw [if_pos hflush]
  next hflush =>
    split
    next hg =>
      refine roundsOnto_roundedTo hf hf.within hm hflush ?_
      rw [if_pos hg]
      refine ⟨rfl, ?_⟩
      split
      · rfl
      · cases hk : k.grand with
        | none => exact gradWord_eq m e _ _ hk
        | some g => simp [Spec.gradWord, hk]
    next hg => exact roundsOnto_roundedTo hf hf.within hm hflush (by rw [if_neg hg]; exact ⟨rfl, rfl⟩)

end Sys2Proof.Num
end

section
/-! PROOFS. Rounding (04_numbers.md R70, R72 to R75, R87): onto the multiples of a unit in each direction, and once into a format. -/
namespace Sys2Proof.Num
open Sys2Proof

theorem units_cast (m : ℕ) (e q : ℤ) : (Spec.units m e q : ℝ) = (m : ℝ) * 2 ^ (e - q) := by
  simp [Spec.units]

/-- The neighbour that a direction names, of a magnitude in units. -/
theorem roundAt_units (rm : Rm) (neg : Bool) (m : ℕ) (e q : ℤ) (r n : ℕ) :
    Spec.RoundsTo rm neg (Spec.units m e q) r n (roundAt rm neg m e q r n).1 := by
  rw [units_cast]
  exact roundAt_roundsTo rm neg m e q r n

/-- To nearest: within half a unit, and the even one of two. -/
theorem nearest_units (neg : Bool) (m : ℕ) (e q : ℤ) (r n : ℕ) :
    |((roundAt .rn neg m e q r n).1 : ℚ) - Spec.units m e q| ≤ 1 / 2 ∧
      (|((roundAt .rn neg m e q r n).1 : ℚ) - Spec.units m e q| = 1 / 2 → (roundAt .rn neg m e q r n).1 % 2 = 0) := by
  obtain ⟨h₁, h₂⟩ := roundAt_units .rn neg m e q r n
  rw [show (1 / 2 : ℝ) = ((1 / 2 : ℚ) : ℝ) by norm_num] at h₁ h₂
  exact ⟨by exact_mod_cast h₁, fun h => h₂ (by exact_mod_cast h)⟩

theorem stochastic_units (neg : Bool) (m : ℕ) (e q : ℤ) (r n : ℕ) :
    ((roundAt .sr neg m e q r n).1 : ℤ) =
      (if 2 ^ n ≤ ⌊(Spec.units m e q - ⌊Spec.units m e q⌋) * 2 ^ n⌋ + (r % 2 ^ n : ℕ) then ⌊Spec.units m e q⌋ + 1
        else ⌊Spec.units m e q⌋) := by
  have h := roundAt_units .sr neg m e q r n
  simp only [Spec.RoundsTo] at h
  exact_mod_cast h

/-- Settles O19: a magnitude is its integer part and a rest below the unit, and each direction's rule compares that rest with nothing,
one half or the random word. -/
theorem rounding : Obligations.Rounding := by
  intro neg m e q r n
  obtain ⟨hnear, heven⟩ := nearest_units neg m e q r n
  have hrz := roundAt_units .rz neg m e q r n
  have hru := roundAt_units .ru neg m e q r n
  have hrd := roundAt_units .rd neg m e q r n
  simp only [Spec.RoundsTo, Rat.floor_cast, Rat.ceil_cast] at hrz hru hrd
  refine ⟨hnear, heven, hrz, hru, hrd, stochastic_units neg m e q r n, fun rm => ?_, fun f hf k hm => ?_⟩
  · rw [roundAt_snd, ← units_cast, Rat.floor_cast]
    norm_cast
  · exact roundsInto_roundF (isIeee_of_mem hf) k neg hm e

end Sys2Proof.Num
end

section
/-! PROOFS. Values of the formats are exact (04_numbers.md R69, R70, R76 to R79): a value of a format, rounded into its own format, keeps
its pattern and raises nothing. -/
namespace Sys2Proof.Num
open Sys2Proof

/-! ### The IEEE formats -/

/-- A magnitude on the grid in the format's range is its own rounding. -/
theorem roundedTo_exact {f : Fmt} (rm : Rm) (neg : Bool) {m : ℕ} {e : ℤ} (r : ℕ)
    (he : e = f.last (topExp m e)) (hmax : topExp m e ≤ f.emax) : roundedTo f f rm neg m e r = (encodeF f neg m e, 0) := by
  have ht := roundAt_exact (m := m) (t := m) (q := f.last (topExp m e)) (by rw [← he]) rm neg r f.rbits
  rw [roundedTo, ht, ← he, if_neg (fun h => absurd h.2 (not_lt.2 hmax))]
  simp

/-- A finite encoding's value rounds to that encoding. -/
theorem roundF_decodeF {f : Fmt} (hf : f.IsIeee) {k : Rnd} {x : ℕ} {neg : Bool} {m : ℕ} {e : ℤ} (hx : x < 2 ^ f.bits)
    (h : decodeF f x = .fin neg m e) (hm : m ≠ 0) (hk : k.ftz = false ∨ k.gr = true) : roundF f k neg m e = (x, 0) := by
  obtain ⟨-, -, hgrid⟩ := hf.decodeF_grid h
  obtain ⟨he, hmax⟩ := hgrid hm
  have hflush : ¬(topExp m e < f.emin ∧ k.ftz = true ∧ k.gr = false) := by
    rcases hk with hk | hk <;> simp [hk]
  rw [roundF_eq f k neg hm, if_neg hflush]
  simp only [roundedTo_exact _ neg _ he hmax, hf.encodeF_decodeF hx h, ite_self]

/-! ### The narrow formats -/

/-- A finite value counted in units of 2^e0, for e0 at or below its exponent. -/
theorem scaled_value (neg : Bool) (m : ℕ) {e e0 : ℤ} (h : e0 ≤ e) :
    (scaled e0 (.fin neg m e) : ℚ) * 2 ^ e0 = Spec.valueOf (.fin neg m e) := by
  obtain ⟨s, hs⟩ := Int.eq_ofNat_of_zero_le (sub_nonneg.2 h)
  have he : (2 : ℚ) ^ e = 2 ^ s * 2 ^ e0 := by rw [← zpow_natCast, ← zpow_add₀ two_ne_zero, ← hs, sub_add_cancel]
  rw [scaled, hs, Spec.valueOf, he, Int.toNat_natCast]
  cases neg <;> simp [mul_assoc]

/-- The order of two finite magnitudes. -/
theorem cmp_fin (m m' : ℕ) (e e' : ℤ) :
    cmp (.fin false m e) (.fin false m' e') = .lt ↔ (m : ℚ) * 2 ^ e < m' * 2 ^ e' := by
  have h := scaled_value false m (min_le_left e e')
  have h' := scaled_value false m' (min_le_right e e')
  simp only [Spec.valueOf, Bool.false_eq_true, if_false, one_mul] at h h'
  simp only [cmp, minExp]
  rw [compare_lt_iff_lt, ← h, ← h', mul_lt_mul_iff_left₀ (two_zpow_pos _)]
  exact Int.cast_lt.symm

/-- What R76 and R77 leave of a narrow format. -/
structure NFmt.Ok (f : NFmt) : Prop where
  s_le : f.s ≤ 1
  w_pos : 1 ≤ f.w
  ieee : f.pol = 0 → 2 ≤ f.e ∧ 1 ≤ f.m

theorem ok_of_nfOk {nf : Word} (h : nfOk nf = true) : (nfOf nf).Ok := by
  have hs : (nfOf nf).s < 2 := Nat.mod_lt _ (by norm_num)
  simp [nfOk] at h
  obtain ⟨⟨⟨⟨⟨hw, -⟩, -⟩, -⟩, -⟩, hi⟩ := h
  exact ⟨by omega, by omega, fun hp => by omega⟩

/-- What the encoding of a finite code's value takes from its format: the value is on the grid at its place, no larger than the
largest of its sign, and of that code. -/
structure NFmt.Places (f : NFmt) (neg : Bool) (m : ℕ) (e : ℤ) (code : ℕ) : Prop where
  sign : neg = true → f.s ≠ 0
  ulp : m ≠ 0 → f.ulp m e = e
  code : f.code neg m e = code
  le_max : m ≠ 0 → ∃ n mm me, decodeNF f (f.maxCode neg) = .fin n mm me ∧ (m : ℚ) * 2 ^ e ≤ mm * 2 ^ me

/-- A value that the format places is encoded to its code, with no exception. -/
theorem encodeNF_of_places {f : NFmt} {neg : Bool} {m : ℕ} {e : ℤ} {code : ℕ} (h : f.Places neg m e code) (nsat : Bool) (rm : Rm)
    (rand : ℕ) : encodeNF f nsat rm rand (.fin neg m e) = (code, 0) := by
  obtain ⟨hsign, hulp, hcode, hmax⟩ := h
  by_cases hm : m = 0
  · subst hm
    have : f.code neg 0 0 = f.code neg 0 e := by simp [NFmt.code]
    simp [encodeNF, this, hcode]
  obtain ⟨n, mm, me, hd, hle⟩ := hmax hm
  have hround := roundAt_exact (m := m) (t := m) (e := e) (q := e) rfl rm neg rand 32
  have hbig : ¬cmp (.fin false mm me) (.fin false m e) = .lt := by
    rw [cmp_fin]
    exact not_lt.2 hle
  have hneg : (neg && decide (f.s = 0)) = false := by
    cases neg
    · rfl
    · simp [hsign rfl]
  simp [encodeNF, hm, hulp hm, hround, hd, hbig, hneg, hcode]

/-! #### The scaled integers, with E = 0 -/

/-- A code of E = 0 as the integer that it holds (R78). -/
def NFmt.intOf (f : NFmt) (c : ℕ) : ℤ := if f.s = 1 && 2 ^ (f.w - 1) ≤ c then (c : ℤ) - 2 ^ f.w else c

theorem intOf_of_neg {f : NFmt} {c : ℕ} (hs : f.s = 1 ∧ 2 ^ (f.w - 1) ≤ c) (hc : c ≤ 2 ^ f.w) :
    f.intOf c = -((2 ^ f.w - c : ℕ) : ℤ) := by
  rw [NFmt.intOf, if_pos (by simpa using hs), Nat.cast_sub hc]
  push_cast
  ring

theorem intOf_of_nonneg {f : NFmt} {c : ℕ} (hs : ¬(f.s = 1 ∧ 2 ^ (f.w - 1) ≤ c)) : f.intOf c = c := by
  rw [NFmt.intOf, if_neg (by simpa using hs)]

theorem decodeNF_int {f : NFmt} (hE : f.e = 0) {c : ℕ} (hc : c < 2 ^ f.w) :
    decodeNF f c = if f.pol = 1 && c = f.nanCode then .cnan else ofInt (f.intOf c) (-f.bias) := by
  rw [decodeNF, Nat.mod_eq_of_lt hc, if_pos hE]
  rfl

theorem two_pow_w {f : NFmt} (hf : f.Ok) : 2 ^ f.w = 2 * 2 ^ (f.w - 1) := by
  rw [← pow_succ', Nat.sub_add_cancel hf.w_pos]

/-- A code that is no NaN reads as a bound of the magnitudes up to its own. -/
theorem bound_int {f : NFmt} (hE : f.e = 0) {c m : ℕ} (hc : c < 2 ^ f.w) (hnan : ¬(f.pol = 1 ∧ c = f.nanCode))
    (hm : m ≤ (f.intOf c).natAbs) :
    ∃ n mm me, decodeNF f c = .fin n mm me ∧ (m : ℚ) * 2 ^ (-f.bias) ≤ mm * 2 ^ me := by
  refine ⟨_, _, _, (decodeNF_int hE hc).trans (if_neg (by simpa using hnan)), ?_⟩
  exact mul_le_mul_of_nonneg_right (by exact_mod_cast hm) (two_zpow_pos _).le

/-- The codes of the negative integers. -/
theorem places_int_neg {f : NFmt} (hf : f.Ok) (hE : f.e = 0) {c : ℕ} (hc : c < 2 ^ f.w) (hs : f.s = 1) (hle : 2 ^ (f.w - 1) ≤ c)
    (hnan : ¬(f.pol = 1 ∧ c = f.nanCode)) : f.Places true (2 ^ f.w - c) (-f.bias) c := by
  have hw := two_pow_w hf
  have hw₁ : f.w = 1 ∨ 2 ≤ 2 ^ (f.w - 1) := by
    rcases hf.w_pos.eq_or_lt with h | h
    · exact .inl h.symm
    · exact .inr (Nat.le_self_pow (by omega) 2)
  have hw₂ : f.w = 1 → 2 ^ (f.w - 1) = 1 := fun h => by rw [h, Nat.sub_self, pow_zero]
  simp only [NFmt.nanCode, hE, hs, decide_true, Bool.and_self, if_true] at hnan
  refine ⟨fun _ => by omega, fun _ => by simp [NFmt.ulp, hE], ?_, fun _ => ?_⟩
  · rw [NFmt.code, if_neg (by omega), if_pos hE, cut_self, if_pos rfl]
    dsimp only
    omega
  · have hmax : f.maxCode true = if f.pol = 1 then (if f.w = 1 then 0 else 2 ^ (f.w - 1) + 1) else 2 ^ (f.w - 1) := by
      simp [NFmt.maxCode, hE]
    have hlt : f.maxCode true < 2 ^ f.w := by rw [hmax]; split_ifs <;> omega
    refine bound_int hE hlt ?_ ?_
    · simp only [NFmt.nanCode, hE, hs, decide_true, Bool.and_self, if_true, hmax]
      split_ifs <;> omega
    · have hge : 2 ^ (f.w - 1) ≤ f.maxCode true := by rw [hmax]; split_ifs <;> omega
      rw [intOf_of_neg ⟨hs, hge⟩ hlt.le, Int.natAbs_neg, Int.natAbs_natCast, hmax]
      split_ifs <;> omega

/-- The codes of the integers that are not negative. -/
theorem places_int_nonneg {f : NFmt} (hf : f.Ok) (hE : f.e = 0) {c : ℕ} (hc : c < 2 ^ f.w) (hs : ¬(f.s = 1 ∧ 2 ^ (f.w - 1) ≤ c))
    (hnan : ¬(f.pol = 1 ∧ c = f.nanCode)) : f.Places false c (-f.bias) c := by
  have hw := two_pow_w hf
  have hpos : 0 < 2 ^ (f.w - 1) := by positivity
  have hnanCode : f.nanCode = if f.s = 1 then 2 ^ (f.w - 1) else 2 ^ f.w - 1 := by simp [NFmt.nanCode, hE]
  rw [hnanCode] at hnan
  refine ⟨fun h => by simp at h, fun _ => by simp [NFmt.ulp, hE], ?_, fun hc₀ => ?_⟩
  · by_cases hc₀ : c = 0
    · simp [NFmt.code, hc₀]
    · simp [NFmt.code, hc₀, hE, cut_self]
  · have hmax : f.maxCode false = if f.s = 1 then 2 ^ (f.w - 1) - 1 else if f.pol = 1 then 2 ^ f.w - 2 else 2 ^ f.w - 1 := by
      simp [NFmt.maxCode, hE]
    have hlt : f.maxCode false < 2 ^ f.w := by rw [hmax]; split_ifs <;> omega
    have hi : ¬(f.s = 1 ∧ 2 ^ (f.w - 1) ≤ f.maxCode false) := by
      rw [hmax]
      split_ifs <;> omega
    refine bound_int hE hlt ?_ ?_
    · rw [hnanCode, hmax]
      split_ifs <;> omega
    · rw [intOf_of_nonneg hi, Int.natAbs_natCast, hmax]
      split_ifs at hnan ⊢ <;> omega

theorem places_int {f : NFmt} (hf : f.Ok) (hE : f.e = 0) {c : ℕ} {neg : Bool} {m : ℕ} {e : ℤ} (hc : c < 2 ^ f.w)
    (h : decodeNF f c = .fin neg m e) : f.Places neg m e c := by
  rw [decodeNF_int hE hc] at h
  split at h
  · cases h
  next hnan =>
    have hnan : ¬(f.pol = 1 ∧ c = f.nanCode) := by simpa using hnan
    by_cases hs : f.s = 1 ∧ 2 ^ (f.w - 1) ≤ c
    · have hpos : 0 < 2 ^ f.w - c := Nat.sub_pos_of_lt hc
      rw [intOf_of_neg hs hc.le, ofInt, Int.natAbs_neg, Int.natAbs_natCast, decide_eq_true (by omega)] at h
      cases h
      exact places_int_neg hf hE hc hs.1 hs.2 hnan
    · rw [intOf_of_nonneg hs, ofInt, Int.natAbs_natCast, decide_eq_false (by omega)] at h
      cases h
      exact places_int_nonneg hf hE hc hs hnan

/-! #### The floating formats, with E ≥ 1 -/

/-- The sign bit of a code. -/
def NFmt.sgn (f : NFmt) (neg : Bool) : ℕ := if neg then 2 ^ (f.w - 1) else 0

/-- The significand of the exponent and mantissa bits `c`. -/
def NFmt.mag (f : NFmt) (c : ℕ) : ℕ := if c / 2 ^ f.m = 0 then c % 2 ^ f.m else 2 ^ f.m + c % 2 ^ f.m

/-- The exponent of their last place. -/
def NFmt.place (f : NFmt) (c : ℕ) : ℤ := Max.max ((c / 2 ^ f.m : ℕ) : ℤ) 1 - f.bias - f.m

theorem two_pow_em (f : NFmt) : 2 ^ f.w = 2 ^ f.s * 2 ^ (f.e + f.m) ∧
    (f.s = 1 → 2 ^ (f.w - 1) = 2 ^ (f.e + f.m)) := by
  refine ⟨by rw [← pow_add, NFmt.w, Nat.add_assoc], fun h => ?_⟩
  congr 1
  unfold NFmt.w
  omega

/-- A code of a floating format is its sign and the bits below. -/
theorem exists_sgn {f : NFmt} (hf : f.Ok) {code : ℕ} (hc : code < 2 ^ f.w) :
    ∃ neg c, c < 2 ^ (f.e + f.m) ∧ (neg = true → f.s = 1) ∧ code = f.sgn neg + c := by
  obtain ⟨hw, hw₁⟩ := two_pow_em f
  rcases Nat.le_one_iff_eq_zero_or_eq_one.1 hf.s_le with hs | hs
  · refine ⟨false, code, ?_, by simp, by simp [NFmt.sgn]⟩
    rwa [hw, hs, pow_zero, one_mul] at hc
  · rw [hw, hs, pow_one] at hc
    by_cases h : 2 ^ (f.e + f.m) ≤ code
    · exact ⟨true, code - 2 ^ (f.e + f.m), by omega, fun _ => hs, by rw [NFmt.sgn, if_pos rfl, hw₁ hs]; omega⟩
    · exact ⟨false, code, by omega, by simp, by simp [NFmt.sgn]⟩

section
variable {f : NFmt} (hE : f.e ≠ 0) {neg : Bool} {c : ℕ} (hc : c < 2 ^ (f.e + f.m)) (hneg : neg = true → f.s = 1)
include hc hneg

theorem sgn_add_lt : f.sgn neg + c < 2 ^ f.w := by
  obtain ⟨hw, hw₁⟩ := two_pow_em f
  cases neg with
  | false =>
    have : 2 ^ (f.e + f.m) ≤ 2 ^ f.w := by rw [hw]; exact Nat.le_mul_of_pos_left _ (by positivity)
    simp only [NFmt.sgn, Bool.false_eq_true, if_false]
    omega
  | true =>
    rw [NFmt.sgn, if_pos rfl, hw₁ (hneg rfl), hw, hneg rfl]
    omega

theorem sgn_bit : (decide (f.s = 1) && (f.sgn neg + c).testBit (f.w - 1)) = neg := by
  obtain ⟨-, hw₁⟩ := two_pow_em f
  cases neg with
  | false =>
    by_cases hs : f.s = 1
    · rw [← hw₁ hs] at hc
      simp [NFmt.sgn, Nat.testBit_lt_two_pow hc]
    · simp [hs]
  | true =>
    have hs := hneg rfl
    rw [← hw₁ hs] at hc
    simp [NFmt.sgn, hs, Nat.testBit_two_pow_add_eq, Nat.testBit_lt_two_pow hc]

theorem sgn_div : (f.sgn neg + c) / 2 ^ f.m % 2 ^ f.e = c / 2 ^ f.m := by
  obtain ⟨-, hw₁⟩ := two_pow_em f
  have hlt : c / 2 ^ f.m < 2 ^ f.e := Nat.div_lt_of_lt_mul (by rwa [← pow_add, Nat.add_comm f.m])
  cases neg with
  | false => simpa [NFmt.sgn] using Nat.mod_eq_of_lt hlt
  | true =>
    rw [NFmt.sgn, if_pos rfl, hw₁ (hneg rfl), pow_add, Nat.add_comm, Nat.add_mul_div_right _ _ (by positivity),
      Nat.add_mod_right, Nat.mod_eq_of_lt hlt]

omit hc in
theorem sgn_mod : (f.sgn neg + c) % 2 ^ f.m = c % 2 ^ f.m := by
  obtain ⟨-, hw₁⟩ := two_pow_em f
  cases neg with
  | false => simp [NFmt.sgn]
  | true => rw [NFmt.sgn, if_pos rfl, hw₁ (hneg rfl), pow_add, Nat.mul_add_mod_self_right]

include hE in
/-- What a code of a floating format reads as. -/
theorem decodeNF_float : decodeNF f (f.sgn neg + c) =
    if f.pol = 0 && c / 2 ^ f.m = 2 ^ f.e - 1 then (if c % 2 ^ f.m = 0 then .inf neg else .cnan)
    else if f.pol = 1 && f.sgn neg + c = 2 ^ f.w - 1 then .cnan
    else .fin neg (f.mag c) (f.place c) := by
  rw [decodeNF, Nat.mod_eq_of_lt (sgn_add_lt hc hneg), if_neg hE]
  dsimp only
  rw [sgn_bit hc hneg, sgn_div hc hneg, sgn_mod hneg]
  by_cases h : c / 2 ^ f.m = 0
  · simp [NFmt.mag, NFmt.place, h]
  · have : (1 : ℤ) ≤ (c / 2 ^ f.m : ℕ) := by exact_mod_cast Nat.one_le_iff_ne_zero.2 h
    rw [NFmt.mag, NFmt.place, max_eq_left this]
    simp only [h, if_false]

end

/-- The significand's binade: below the smallest normal with a zero exponent field, that of the exponent field otherwise. -/
theorem topExp_mag {f : NFmt} {c : ℕ} (h : f.mag c ≠ 0) :
    if c / 2 ^ f.m = 0 then topExp (f.mag c) (f.place c) < 1 - f.bias
    else topExp (f.mag c) (f.place c) = (c / 2 ^ f.m : ℕ) - f.bias := by
  have hlt : c % 2 ^ f.m < 2 ^ f.m := Nat.mod_lt _ (by positivity)
  split
  next h₀ =>
    have hp : f.place c = 1 - f.bias - f.m := by simp [NFmt.place, h₀]
    rw [topExp_lt_iff (K := ℝ) h, hp]
    have : f.mag c < 2 ^ f.m := by rwa [NFmt.mag, if_pos h₀]
    simpa using (units_lt_pow _ f.m (1 - f.bias - f.m)).2 this
  next h₀ =>
    have hp : f.place c = (c / 2 ^ f.m : ℕ) - f.bias - f.m := by
      rw [NFmt.place, max_eq_left (by exact_mod_cast Nat.one_le_iff_ne_zero.2 h₀)]
    have hlog : (f.mag c).log2 = f.m := (Nat.log2_eq_iff h).2 (by rw [NFmt.mag, if_neg h₀, pow_succ]; omega)
    rw [topExp, hlog, hp]
    omega

/-- The value of the bits below the sign rises with them. -/
theorem mag_le {f : NFmt} {c d : ℕ} (h : c ≤ d) :
    (f.mag c : ℚ) * 2 ^ f.place c ≤ f.mag d * 2 ^ f.place d := by
  have hunit (x : ℕ) : (f.mag x : ℚ) * 2 ^ f.place x = (f.mag x * 2 ^ (x / 2 ^ f.m - 1) : ℕ) * 2 ^ (1 - f.bias - f.m) := by
    have : f.place x = (x / 2 ^ f.m - 1 : ℕ) + (1 - f.bias - f.m) := by
      rw [NFmt.place]
      generalize x / 2 ^ f.m = b
      omega
    rw [this, zpow_add₀ two_ne_zero, zpow_natCast]
    push_cast
    ring
  rw [hunit, hunit]
  refine mul_le_mul_of_nonneg_right (Nat.cast_le.2 ?_) (two_zpow_pos _).le
  have hc := Nat.mod_lt c (show 0 < 2 ^ f.m by positivity)
  rcases (Nat.div_le_div_right (c := 2 ^ f.m) h).eq_or_lt with he | he
  · have hcd := Nat.div_add_mod c (2 ^ f.m)
    have hdd := Nat.div_add_mod d (2 ^ f.m)
    rw [he] at hcd
    refine Nat.mul_le_mul ?_ (by rw [he])
    rw [NFmt.mag, NFmt.mag, he]
    split <;> omega
  · have hd : f.mag d = 2 ^ f.m + d % 2 ^ f.m := if_neg ((Nat.zero_le _).trans_lt he).ne'
    calc f.mag c * 2 ^ (c / 2 ^ f.m - 1) ≤ 2 ^ f.m * 2 ^ (c / 2 ^ f.m) := by
          by_cases h₀ : c / 2 ^ f.m = 0
          · rw [NFmt.mag, if_pos h₀, h₀]
            simpa using hc.le
          · rw [NFmt.mag, if_neg h₀]
            obtain ⟨b, hb⟩ := Nat.exists_eq_succ_of_ne_zero h₀
            rw [hb, Nat.succ_sub_one, pow_succ, ← Nat.mul_assoc, Nat.mul_right_comm]
            exact Nat.mul_le_mul_right _ (by omega)
      _ ≤ f.mag d * 2 ^ (d / 2 ^ f.m - 1) :=
          Nat.mul_le_mul (by omega) (Nat.pow_le_pow_right two_pos (by omega))

/-- The bits of the largest finite magnitude of a sign. -/
def NFmt.top (f : NFmt) (neg : Bool) : ℕ :=
  if f.pol = 0 then (2 ^ f.e - 2) * 2 ^ f.m + (2 ^ f.m - 1)
  else if f.pol = 1 ∧ (neg = true ∨ f.s = 0) then 2 ^ (f.e + f.m) - 2 else 2 ^ (f.e + f.m) - 1

theorem maxCode_float {f : NFmt} (hE : f.e ≠ 0) (neg : Bool) : f.maxCode neg = f.sgn neg + f.top neg := by
  have : 2 ≤ 2 ^ (f.e + f.m) := Nat.le_self_pow (by omega) 2
  simp only [NFmt.maxCode, hE, NFmt.top, NFmt.sgn, if_false, Bool.and_eq_true, decide_eq_true_eq, Bool.or_eq_true]
  generalize 2 ^ (f.e + f.m) = P, 2 ^ (f.w - 1) = Q at this ⊢
  split_ifs <;> omega

/-- Whether bits below the sign are those of a finite value. -/
def NFmt.IsFin (f : NFmt) (neg : Bool) (c : ℕ) : Prop :=
  ¬(f.pol = 0 ∧ c / 2 ^ f.m = 2 ^ f.e - 1) ∧ ¬(f.pol = 1 ∧ f.sgn neg + c = 2 ^ f.w - 1)

theorem decodeNF_isFin {f : NFmt} (hE : f.e ≠ 0) {neg : Bool} (hneg : neg = true → f.s = 1) {c : ℕ}
    (hc : c < 2 ^ (f.e + f.m)) (h : f.IsFin neg c) : decodeNF f (f.sgn neg + c) = .fin neg (f.mag c) (f.place c) := by
  rw [decodeNF_float hE hc hneg, if_neg (by simpa using h.1), if_neg (by simpa using h.2)]

/-- With an exponent field of ones kept for the infinities and NaNs, the largest finite bits are those below it. -/
theorem top_ieee {f : NFmt} (hf : f.Ok) (hp : f.pol = 0) (neg : Bool) :
    f.top neg < 2 ^ (f.e + f.m) ∧ f.top neg / 2 ^ f.m = 2 ^ f.e - 2 ∧ ∀ c, c / 2 ^ f.m ≤ 2 ^ f.e - 2 → c ≤ f.top neg := by
  have hB : 0 < 2 ^ f.m := by positivity
  have hA : 2 ≤ 2 ^ f.e := Nat.le_self_pow (by have := hf.ieee hp; omega) 2
  have htop : f.top neg = (2 ^ f.e - 2) * 2 ^ f.m + (2 ^ f.m - 1) := if_pos hp
  have hdiv : f.top neg / 2 ^ f.m = 2 ^ f.e - 2 := by
    rw [htop, Nat.add_comm, Nat.add_mul_div_right _ _ hB, Nat.div_eq_of_lt (by omega), Nat.zero_add]
  refine ⟨?_, hdiv, fun c hc => ?_⟩
  · rw [pow_add]
    exact (Nat.div_lt_iff_lt_mul hB).1 (by omega)
  · have := Nat.div_add_mod' c (2 ^ f.m)
    have := Nat.mod_lt c hB
    have := Nat.mul_le_mul_right (2 ^ f.m) hc
    omega

theorem top_nan {f : NFmt} (hp : f.pol = 1) (neg : Bool) :
    f.top neg = if neg = true ∨ f.s = 0 then 2 ^ (f.e + f.m) - 2 else 2 ^ (f.e + f.m) - 1 := by
  simp [NFmt.top, hp]

section
variable {f : NFmt} (hf : f.Ok) (hE : f.e ≠ 0) {neg : Bool} (hneg : neg = true → f.s = 1)
include hf hE

theorem top_lt : f.top neg < 2 ^ (f.e + f.m) := by
  by_cases hp : f.pol = 0
  · exact (top_ieee hf hp neg).1
  · have : 2 ≤ 2 ^ (f.e + f.m) := Nat.le_self_pow (by omega) 2
    rw [NFmt.top, if_neg hp]
    split <;> omega

include hneg

theorem isFin_top : f.IsFin neg (f.top neg) := by
  have hP : 2 ≤ 2 ^ (f.e + f.m) := Nat.le_self_pow (by omega) 2
  refine ⟨fun ⟨hp, h⟩ => ?_, fun ⟨hp, h⟩ => ?_⟩
  · have hA : 2 ≤ 2 ^ f.e := Nat.le_self_pow hE 2
    have := (top_ieee hf hp neg).2.1
    omega
  · obtain ⟨hw, hw₁⟩ := two_pow_em f
    rw [top_nan hp, hw] at h
    cases neg with
    | true =>
      simp only [NFmt.sgn, hw₁ (hneg rfl), hneg rfl, if_true, true_or] at h
      omega
    | false =>
      rcases Nat.le_one_iff_eq_zero_or_eq_one.1 hf.s_le with hs | hs
      · simp only [NFmt.sgn, hs, Bool.false_eq_true, or_true, if_true, if_false, pow_zero] at h
        omega
      · simp only [NFmt.sgn, hs, Bool.false_eq_true, one_ne_zero, or_self, if_false, pow_one] at h
        omega

omit hE in
theorem le_top {c : ℕ} (hc : c < 2 ^ (f.e + f.m)) (h : f.IsFin neg c) : c ≤ f.top neg := by
  obtain ⟨h₀, h₁⟩ := h
  by_cases hp : f.pol = 0
  · have hlt : c / 2 ^ f.m < 2 ^ f.e := Nat.div_lt_of_lt_mul (by rwa [← pow_add, Nat.add_comm f.m])
    exact (top_ieee hf hp neg).2.2 c (by omega)
  · obtain ⟨hw, hw₁⟩ := two_pow_em f
    rw [NFmt.top, if_neg hp]
    split
    next hn =>
      have hne : f.sgn neg + c ≠ 2 ^ f.w - 1 := fun h => h₁ ⟨hn.1, h⟩
      rw [hw] at hne
      cases neg with
      | true =>
        rw [NFmt.sgn, if_pos rfl, hw₁ (hneg rfl), hneg rfl] at hne
        omega
      | false =>
        simp only [NFmt.sgn, hn.2.resolve_left Bool.false_ne_true, Bool.false_eq_true, if_false, pow_zero] at hne
        omega
    next => omega

end

theorem ulp_float {f : NFmt} (hE : f.e ≠ 0) {c : ℕ} (h : f.mag c ≠ 0) : f.ulp (f.mag c) (f.place c) = f.place c := by
  have ht := topExp_mag h
  rw [NFmt.ulp, if_neg hE, NFmt.place]
  rw [NFmt.place] at ht
  generalize c / 2 ^ f.m = b at *
  split at ht <;> omega

theorem code_float {f : NFmt} (hE : f.e ≠ 0) {neg : Bool} (hneg : neg = true → f.s = 1) (c : ℕ) :
    f.code neg (f.mag c) (f.place c) = f.sgn neg + c := by
  have hdm := Nat.div_add_mod' c (2 ^ f.m)
  have hpos : 0 < 2 ^ f.m := by positivity
  by_cases h₀ : c / 2 ^ f.m = 0
  · have hmag : f.mag c = c := by rw [NFmt.mag, if_pos h₀, Nat.mod_eq_of_lt ((Nat.div_eq_zero_iff_lt hpos).1 h₀)]
    by_cases hc : c = 0
    · subst hc
      rw [hmag]
      cases neg with
      | true => simp [NFmt.code, NFmt.sgn, hE, hneg rfl]
      | false => simp [NFmt.code, NFmt.sgn]
    · have ht := topExp_mag (f := f) (c := c) (by rwa [hmag])
      have hp : f.place c = 1 - f.bias - f.m := by simp [NFmt.place, h₀]
      rw [if_pos h₀, hmag] at ht
      rw [hmag, NFmt.code, if_neg hc, if_neg hE]
      dsimp only
      rw [if_pos ht, hp, cut_self]
      rfl
  · have hmag : f.mag c = 2 ^ f.m + c % 2 ^ f.m := if_neg h₀
    have hne : f.mag c ≠ 0 := by omega
    have ht := topExp_mag hne
    have hp : f.place c = (c / 2 ^ f.m : ℕ) - f.bias - f.m := by
      rw [NFmt.place, max_eq_left (by exact_mod_cast Nat.one_le_iff_ne_zero.2 h₀)]
    have hb : 1 ≤ c / 2 ^ f.m := Nat.one_le_iff_ne_zero.2 h₀
    rw [if_neg h₀] at ht
    rw [NFmt.code, if_neg hne, if_neg hE]
    dsimp only
    rw [ht, hp, cut_self, hmag, Nat.add_sub_cancel_left, sub_add_cancel, Int.toNat_natCast, if_neg]
    · rw [Nat.add_assoc, hdm]
      rfl
    · generalize c / 2 ^ f.m = b at hb ⊢
      omega

theorem places_float {f : NFmt} (hf : f.Ok) (hE : f.e ≠ 0) {code : ℕ} {neg : Bool} {m : ℕ} {e : ℤ} (hc : code < 2 ^ f.w)
    (h : decodeNF f code = .fin neg m e) : f.Places neg m e code := by
  obtain ⟨n, c, hc', hneg, rfl⟩ := exists_sgn hf hc
  rw [decodeNF_float hE hc' hneg] at h
  split at h
  · split at h <;> cases h
  next h₀ =>
    split at h
    · cases h
    next h₁ =>
      cases h
      have hfin : f.IsFin neg c := ⟨by simpa using h₀, by simpa using h₁⟩
      refine ⟨fun hn => by rw [hneg hn]; exact one_ne_zero, ulp_float hE, code_float hE hneg c,
        fun _ => ⟨neg, f.mag (f.top neg), f.place (f.top neg), ?_, ?_⟩⟩
      · rw [maxCode_float hE]
        exact decodeNF_isFin hE hneg (top_lt hf hE) (isFin_top hf hE hneg)
      · exact mag_le (le_top hf hneg hc' hfin)

/-- Settles O21: an encoding is its sign, exponent and fraction, and the value that they give has its last place on the grid. -/
theorem formatValuesAreExact : Obligations.FormatValuesAreExact := by
  refine ⟨fun f hf k x neg m e hx h hm hk => roundF_decodeF (isIeee_of_mem hf) hx h hm hk,
    fun nf code nsat rm rand neg m e hok hc h => encodeNF_of_places ?_ nsat rm rand⟩
  by_cases hE : (nfOf nf).e = 0
  · exact places_int (ok_of_nfOk hok) hE hc h
  · exact places_float (ok_of_nfOk hok) hE hc h

end Sys2Proof.Num
end

section
/-! PROOFS. Block scales and FX64 values (04_numbers.md R80, R83 to R85): what a scale stands for, putting a value onto the grid,
sums on the grid, and draining them. -/
namespace Sys2Proof.Num
open Sys2Proof

/-! ### Block scales -/

theorem scaleVal_normal {x : ℕ} (h₁ : 1 ≤ x / 256) (h₂ : x / 256 ≤ 254) :
    scaleVal x = .fin false (256 + x % 256) (((x / 256 : ℕ) : ℤ) - 135) := by
  rw [scaleVal, Nat.mod_eq_of_lt (by omega : x / 256 < 256), if_neg (by omega), if_neg (by omega)]

theorem scaleVal_subnormal {x : ℕ} (h : x / 256 = 0) : scaleVal x = .fin false (x % 256) (-134) := by
  simp [scaleVal, h]

theorem scaleVal_nan {x : ℕ} (h : x / 256 = 255) : scaleVal x = .cnan := by
  simp [scaleVal, h]

/-- Settles O23, by the three ranges of the exponent field. -/
theorem blockScales : Obligations.BlockScales := by
  intro x _
  refine ⟨fun h₁ h₂ => ?_, fun h => ?_, fun h => ?_, ?_⟩
  · rw [scaleVal_normal h₁ h₂]
    refine ⟨⟨_, _, _, rfl⟩, ?_⟩
    have he : (2 : ℚ) ^ (((x / 256 : ℕ) : ℤ) - 127) = 256 * 2 ^ (((x / 256 : ℕ) : ℤ) - 135) := by
      rw [show (256 : ℚ) = 2 ^ (8 : ℤ) by norm_num, ← zpow_add₀ two_ne_zero]
      congr 1
      ring
    rw [he, Spec.valueOf]
    simp only [Bool.false_eq_true, if_false, Nat.cast_add, Nat.cast_ofNat]
    ring
  · rw [scaleVal_subnormal h]
    refine ⟨⟨_, _, _, rfl⟩, ?_⟩
    have he : (2 : ℚ) ^ (-126 : ℤ) = 256 * 2 ^ (-134 : ℤ) := by norm_num
    rw [he, Spec.valueOf]
    simp only [Bool.false_eq_true, if_false]
    ring
  · rw [scaleVal_nan h]
    rfl
  · rcases Nat.eq_zero_or_pos (x / 256) with h | h₁
    · rw [scaleVal_subnormal h]
      rfl
    · by_cases h₂ : x / 256 ≤ 254
      · rw [scaleVal_normal h₁ h₂]
        rfl
      · rw [scaleVal_nan (by omega)]
        rfl

/-! ### Onto the grid, and off it -/

/-- The signed neighbour on the grid. -/
def gridInt (neg : Bool) (m : ℕ) (e k : ℤ) : ℤ :=
  if neg then -((roundAt .rn neg m e k 0 32).1 : ℤ) else (roundAt .rn neg m e k 0 32).1

theorem valueOf_on_grid (neg : Bool) (m : ℕ) (e k : ℤ) :
    Spec.valueOf (.fin neg m e) * 2 ^ (-k) = (if neg then -1 else 1) * Spec.units m e k := by
  rw [Spec.valueOf, Spec.units, mul_assoc, mul_assoc, ← zpow_add₀ two_ne_zero, ← sub_eq_add_neg]

theorem gridInt_sub (neg : Bool) (m : ℕ) (e k : ℤ) :
    (gridInt neg m e k : ℚ) - Spec.valueOf (.fin neg m e) * 2 ^ (-k) =
      (if neg then -1 else 1) * ((roundAt .rn neg m e k 0 32).1 - Spec.units m e k) := by
  rw [valueOf_on_grid, gridInt]
  cases neg <;> simp
  ring

theorem abs_gridInt_sub (neg : Bool) (m : ℕ) (e k : ℤ) :
    |(gridInt neg m e k : ℚ) - Spec.valueOf (.fin neg m e) * 2 ^ (-k)| =
      |((roundAt .rn neg m e k 0 32).1 : ℚ) - Spec.units m e k| := by
  rw [gridInt_sub, abs_mul]
  cases neg <;> simp

theorem gridInt_eq_iff (neg : Bool) (m : ℕ) (e k : ℤ) :
    (gridInt neg m e k : ℚ) = Spec.valueOf (.fin neg m e) * 2 ^ (-k) ↔ (roundAt .rn neg m e k 0 32).2 = false := by
  rw [← sub_eq_zero, ← abs_eq_zero, abs_gridInt_sub, abs_eq_zero, sub_eq_zero, ← roundAt_eq_iff, ← units_cast]
  exact_mod_cast Iff.rfl

/-- Adding FX64 terms one by one adds their sum, modulo 2^64, whatever the terms' order. -/
theorem foldl_rmwNew_perm (k : BitVec 8) {xs ys : List ℕ} (h : xs.Perm ys) (q : ℕ) :
    xs.foldl (fun a x => Machine.rmwNew (.gadd k) 64 a x 0) q = ys.foldl (fun a x => Machine.rmwNew (.gadd k) 64 a x 0) q := by
  refine h.foldl_eq' (fun x _ y _ z => ?_) q
  simp only [Machine.rmwNew, Nat.mod_add_mod]
  rw [Nat.add_right_comm]

/-- Settles O25: addition modulo 2^64 commutes. -/
theorem gridSumsHaveNoOrder : Obligations.GridSumsHaveNoOrder := by
  refine ⟨fun k q xs ys h _ => foldl_rmwNew_perm k h q, fun xs ys h => ?_⟩
  exact h.foldl_eq' (fun x _ y _ z => add_right_comm z x y) 0

theorem resultF_fin (f : Fmt) (k : Rnd) (neg : Bool) (m : ℕ) (e : ℤ) :
    resultF f k [] (.fin neg m e) = roundF f k neg m e := by
  simp [resultF, snanExc]

theorem gridVal_isZero (q : BitVec 64) (k : ℤ) : (gridVal q k).isZero = true ↔ q = 0 := by
  simp [gridVal, ofInt, Val.isZero, ← BitVec.toInt_inj]

/-- Settles O26: the value is rounded once, and the two top bits are looked at beside that. -/
theorem drain : Obligations.Drain := by
  intro f r q k
  have hv : (if (gridVal q k).isZero then (f.zero false, 0#5) else resultF f r [] (gridVal q k)) =
      if q = 0 then (f.zero false, 0) else roundF f r q.msb q.toInt.natAbs k := by
    simp only [gridVal_isZero]
    rw [gridVal, ofInt, resultF_fin, BitVec.msb_eq_toInt]
    rfl
  simp only [drainF, hv, true_and]
  cases q.getLsbD 63 <;> cases q.getLsbD 62 <;> rfl

end Sys2Proof.Num

namespace Sys2Proof.Machine
open Sys2Proof.Num

/-- Settles O24: the integer is the neighbour on the grid, with the sign put back. -/
theorem ontoGrid : Obligations.OntoGrid := by
  refine ⟨fun v k hv => ?_, fun neg m e k => ⟨gridInt neg m e k, ?_, ?_, ?_⟩⟩
  · cases v with
    | nan => rfl
    | inf => rfl
    | fin neg m e => exact absurd ⟨neg, m, e, rfl⟩ hv
  · rw [abs_gridInt_sub]
    exact (nearest_units neg m e k 0 32).1
  · rw [abs_gridInt_sub]
    intro h
    have := (nearest_units neg m e k 0 32).2 h
    rw [gridInt]
    split <;> omega
  · have hx : (if (gridInt neg m e k : ℚ) = Spec.valueOf (.fin neg m e) * 2 ^ (-k) then (0 : Exc) else nx) =
        if (roundAt .rn neg m e k 0 32).2 then nx else 0 := by
      simp only [gridInt_eq_iff]
      cases (roundAt .rn neg m e k 0 32).2 <;> rfl
    rw [hx]
    rfl

end Sys2Proof.Machine
end

section
/-! PROOFS. A precise trap (04_numbers.md R88, 12_core_scheduling.md R268): what it leaves of its warp, and where it resumes. -/
namespace Sys2Proof.Machine
open Sys2Proof

/-- The stop of a trap that carries its cause alone, resuming at a position of the clause at `rhdr`. -/
def Cx.trapStop (c : Cx) (k pos rhdr : Nat) : Stop :=
  { how := 0, cycle := c.stopCycle, cause := k, kind := 0,
    info := { cause := k, ia := c.ia, fmask := c.adm, faddr := 0, xcode := 0, lane := 0xFF, slot := c.cl.slot }
    rhdr := rhdr, pos := pos, skid := 0 }

/-- The warp after a trap with another word of the clause to come: it stays inside the clause, at that word. -/
def Cx.trapInside (c : Cx) (k : Nat) : Warp :=
  { c.counted with
    stop := some (c.trapStop k (c.cl.pos + 1) c.cl.head)
    clause := some { c.cl with pos := c.cl.pos + 1, next := c.t + 1 + c.f.hint.stall.toNat, skip := c.cl.skip - 1 } }

/-- The warp after a trap of the clause's last word: the clause ends, and the slot goes on at the next one. -/
def Cx.trapAtEnd (c : Cx) (k : Nat) : Warp :=
  let w := { c.counted with stop := some (c.trapStop k 0 c.next) }
  let w := ({ w with clause := none }).setSlot c.cl.slot { (w.slot c.cl.slot) with pc := BitVec.ofNat 57 c.next }
  { w with free := c.endFree w, turn := 1 - c.cl.slot, yp := c.cl.hdr.yp }

theorem takeTrap_inside {c : Cx} (k : Nat) (h : c.cl.pos ≠ c.cl.hdr.len.toNat) :
    c.takeTrap (Trap.of k) = { c with w := c.trapInside k } := by
  simp [Cx.takeTrap, Trap.of, h, Cx.trapInside, Cx.trapStop]

theorem takeTrap_atEnd {c : Cx} (k : Nat) (h : c.cl.pos = c.cl.hdr.len.toNat) :
    c.takeTrap (Trap.of k) = { c with w := c.trapAtEnd k } := by
  simp [Cx.takeTrap, Trap.of, h, Cx.trapAtEnd, Cx.trapStop]

/-- The cycle of the stop, in terms of the machine at the issue. -/
theorem stopCycle_eq {c : Cx} {m : Mach} (h : c.m = m) : c.stopCycle = c.t + 1 + c.f.hint.stall.toNat +
    (if c.cl.pos < c.cl.hdr.len.toNat then m.wordCost c.blk.core c.blk.ctx (c.cl.head + 12 * (c.cl.pos + 2)) else 0) := by
  subst h
  rfl

/-- Settles O17: a trap puts its warp back with its stop; at the clause's end the clause ends too. -/
theorem preciseTrap : Obligations.PreciseTrap := by
  intro s i c k ho
  obtain ⟨-, -, -, -, -, hm, -⟩ := openCx_spec ho
  by_cases h : c.cl.pos = c.cl.hdr.len.toNat
  · refine ⟨{ c.trapAtEnd k with issuedTo := c.t + 1 }, c.trapStop k 0 c.next, ?_, ?_⟩
    · rw [AfterTrap, takeTrap_atEnd k h, Cx.flush, hm]
    · simp [Cx.trapAtEnd, Cx.counted, Cx.trapStop, Cx.ia, stopCycle_eq hm, h]
  · refine ⟨{ c.trapInside k with issuedTo := c.t + 1 }, c.trapStop k (c.cl.pos + 1) c.cl.head, ?_, ?_⟩
    · rw [AfterTrap, takeTrap_inside k h, Cx.flush, hm]
    · simp [Cx.trapInside, Cx.counted, Cx.trapStop, Cx.ia, stopCycle_eq hm, h]

end Sys2Proof.Machine
end

section
/-! PROOFS. Rounding a value whose expansion is cut (04_numbers.md R70). No rounding into a format looks at more than 33 bits below the
last place; so two reals between the same neighbouring multiples of a much finer unit round alike, and a value that keeps an odd last
bit for the rest of its expansion rounds as the exact one. -/
namespace Sys2Proof.Num
open Sys2Proof

/-! ### Reals that no rounding tells apart -/

/-- `u` and `v` lie strictly between the same two neighbouring multiples of 2^−N. -/
def SameCell (N : ℕ) (u v : ℝ) : Prop :=
  ∃ j : ℤ, (j < u * 2 ^ N ∧ u * 2 ^ N < j + 1) ∧ (j < v * 2 ^ N ∧ v * 2 ^ N < j + 1)

/-- Between two integers, the integers up to a real are those up to the lower one. -/
theorem int_le_iff_of_between {j w : ℤ} {x : ℝ} (h : j < x ∧ x < j + 1) : (w : ℝ) ≤ x ↔ w ≤ j := by
  constructor
  · intro hw
    have : (w : ℝ) < ((j + 1 : ℤ) : ℝ) := by push_cast; exact hw.trans_lt h.2
    exact Int.lt_add_one_iff.1 (by exact_mod_cast this)
  · intro hw
    exact (Int.cast_le.2 hw).trans h.1.le

theorem ne_int_of_between {j w : ℤ} {x : ℝ} (h : j < x ∧ x < j + 1) : (w : ℝ) ≠ x := by
  intro hw
  have h₁ : w ≤ j := (int_le_iff_of_between h).1 hw.le
  have h₂ : (w : ℝ) ≤ j := by exact_mod_cast h₁
  linarith [h.1]

namespace SameCell
variable {N n : ℕ} {u v : ℝ} (h : SameCell N u v) (hn : n ≤ N)
include h hn

theorem scaled_int_le_iff (w : ℤ) : (w : ℝ) ≤ u * 2 ^ n ↔ (w : ℝ) ≤ v * 2 ^ n := by
  obtain ⟨j, hu, hv⟩ := h
  have hscale (x : ℝ) : (w : ℝ) ≤ x * 2 ^ n ↔ ((w * 2 ^ (N - n) : ℤ) : ℝ) ≤ x * 2 ^ N := by
    rw [← Nat.sub_add_cancel hn, Nat.add_sub_cancel, pow_add, mul_comm ((2 : ℝ) ^ (N - n)), ← mul_assoc]
    push_cast
    rw [mul_le_mul_iff_left₀ (by positivity)]
  rw [hscale, hscale, int_le_iff_of_between hu, int_le_iff_of_between hv]

theorem floor_eq : ⌊u * 2 ^ n⌋ = ⌊v * 2 ^ n⌋ :=
  eq_of_forall_le_iff fun w => by rw [Int.le_floor, Int.le_floor, h.scaled_int_le_iff hn]

theorem ne_int (w : ℤ) : (w : ℝ) ≠ u * 2 ^ n ∧ (w : ℝ) ≠ v * 2 ^ n := by
  obtain ⟨j, hu, hv⟩ := h
  have hscale (x : ℝ) (hx : (w : ℝ) = x * 2 ^ n) : ((w * 2 ^ (N - n) : ℤ) : ℝ) = x * 2 ^ N := by
    push_cast
    rw [hx, mul_assoc, ← pow_add, Nat.add_sub_cancel' hn]
  exact ⟨fun hx => ne_int_of_between hu (hscale u hx), fun hx => ne_int_of_between hv (hscale v hx)⟩

end SameCell

section
variable {N : ℕ} {u v : ℝ} (h : SameCell N u v)
include h

theorem SameCell.floor_unit : ⌊u⌋ = ⌊v⌋ := by
  simpa using h.floor_eq (Nat.zero_le N)

theorem SameCell.ne_nat (t : ℕ) : (t : ℝ) ≠ u ∧ (t : ℝ) ≠ v := by
  simpa using h.ne_int (Nat.zero_le N) t

theorem SameCell.floor_rest {n : ℕ} (hn : n ≤ N) : ⌊(u - ⌊u⌋) * 2 ^ n⌋ = ⌊(v - ⌊v⌋) * 2 ^ n⌋ := by
  have hsub (x : ℝ) : ⌊(x - ⌊x⌋) * 2 ^ n⌋ = ⌊x * 2 ^ n⌋ - ⌊x⌋ * 2 ^ n := by
    rw [← Int.floor_sub_intCast, sub_mul]
    push_cast
    rfl
  rw [hsub, hsub, h.floor_unit, h.floor_eq hn]

theorem SameCell.ceil_unit : ⌈u⌉ = ⌈v⌉ := by
  have hceil (x : ℝ) (hx : ∀ t : ℤ, (t : ℝ) ≠ x) : ⌈x⌉ = ⌊x⌋ + 1 :=
    Int.ceil_eq_iff.2 ⟨by push_cast; linarith [(Int.floor_le x).lt_of_ne (hx ⌊x⌋)], by push_cast; exact (Int.lt_floor_add_one x).le⟩
  have hne (t : ℤ) := h.ne_int (Nat.zero_le N) t
  simp only [pow_zero, mul_one] at hne
  rw [hceil u fun t => (hne t).1, hceil v fun t => (hne t).2, h.floor_unit]

/-- Rounding to nearest looks at the first bit below the unit, and neither lies in the middle. -/
theorem SameCell.nearest (hN : 1 ≤ N) {t : ℕ} (ht : |(t : ℝ) - u| ≤ 1 / 2) : |(t : ℝ) - v| ≤ 1 / 2 ∧ |(t : ℝ) - v| ≠ 1 / 2 := by
  have hlo (x : ℝ) : (t : ℝ) - x ≤ 1 / 2 ↔ ((2 * t - 1 : ℤ) : ℝ) ≤ x * 2 ^ 1 := by push_cast; constructor <;> intro <;> linarith
  have hhi (x : ℝ) : -(1 / 2) < (t : ℝ) - x ↔ ¬((2 * t + 1 : ℤ) : ℝ) ≤ x * 2 ^ 1 := by
    rw [not_le]; push_cast; constructor <;> intro <;> linarith
  have hne₁ := h.ne_int hN (2 * t - 1)
  have hne₂ := h.ne_int hN (2 * t + 1)
  have hu : -(1 / 2) < (t : ℝ) - u := by
    refine (abs_le.1 ht).1.lt_of_ne fun he => hne₂.1 ?_
    push_cast
    linarith
  have h₁ : (t : ℝ) - v ≤ 1 / 2 := (hlo v).2 ((h.scaled_int_le_iff hN _).1 ((hlo u).1 (abs_le.1 ht).2))
  have h₂ : -(1 / 2) < (t : ℝ) - v := (hhi v).2 (mt (h.scaled_int_le_iff hN _).2 ((hhi u).1 hu))
  refine ⟨abs_le.2 ⟨h₂.le, h₁⟩, fun he => ?_⟩
  rcases (abs_eq (by norm_num)).1 he with he | he
  · refine hne₁.2 ?_
    push_cast
    linarith
  · linarith

theorem SameCell.roundsTo {n : ℕ} (hN : 1 ≤ N) (hn : n ≤ N) {rm : Rm} {neg : Bool} {r t : ℕ} (ht : Spec.RoundsTo rm neg u r n t) :
    Spec.RoundsTo rm neg v r n t := by
  cases rm with
  | rn =>
    obtain ⟨h₁, h₂⟩ := h.nearest hN ht.1
    exact ⟨h₁, fun he => absurd he h₂⟩
  | rz => rwa [Spec.RoundsTo, ← h.floor_unit]
  | ru => rwa [Spec.RoundsTo, ← h.floor_unit, ← h.ceil_unit]
  | rd => rwa [Spec.RoundsTo, ← h.floor_unit, ← h.ceil_unit]
  | sr => rwa [Spec.RoundsTo, ← h.floor_rest hn, ← h.floor_unit]

theorem SameCell.gradWord {n r : ℕ} (hN : 32 ≤ N) {k : Rnd} (hg : Spec.gradWord k u n r) : Spec.gradWord k v n r := by
  rwa [Spec.gradWord, ← h.floor_rest hN, ← h.floor_unit]

end

/-- A real strictly between j and j + 1 units of 2^e. -/
def Between (j : ℕ) (e : ℤ) (a : ℝ) : Prop := (j : ℝ) * 2 ^ e < a ∧ a < (j + 1) * 2 ^ e

theorem Between.div {j : ℕ} {e : ℤ} {a : ℝ} (h : Between j e a) : ((j : ℤ) : ℝ) < a / 2 ^ e ∧ a / 2 ^ e < (j : ℤ) + 1 := by
  rw [Int.cast_natCast]
  exact ⟨(lt_div_iff₀ (two_zpow_pos e)).2 h.1, (div_lt_iff₀ (two_zpow_pos e)).2 h.2⟩

/-- In units of 2^q, for q at or above e, such reals are in one cell. -/
theorem Between.sameCell {j : ℕ} {e q : ℤ} {a b : ℝ} (ha : Between j e a) (hb : Between j e b) {N : ℕ} (hN : q = e + N) :
    SameCell N (a / 2 ^ q) (b / 2 ^ q) := by
  have hscale (x : ℝ) : x / 2 ^ q * 2 ^ N = x / 2 ^ e := by
    rw [hN, zpow_add₀ two_ne_zero, zpow_natCast]
    field_simp
  exact ⟨j, by rw [hscale]; exact ha.div, by rw [hscale]; exact hb.div⟩

theorem Between.two_zpow_le_iff {j : ℕ} {e E : ℤ} {a b : ℝ} (ha : Between j e a) (hb : Between j e b) (hE : e ≤ E) :
    (2 : ℝ) ^ E ≤ a ↔ (2 : ℝ) ^ E ≤ b := by
  obtain ⟨s, rfl⟩ := Int.le.dest hE
  have hscale (x : ℝ) : (2 : ℝ) ^ (e + s) ≤ x ↔ ((2 ^ s : ℤ) : ℝ) ≤ x / 2 ^ e := by
    rw [le_div_iff₀ (two_zpow_pos e), add_comm, zpow_add₀ two_ne_zero, zpow_natCast]
    push_cast
    rfl
  rw [hscale, hscale, int_le_iff_of_between ha.div, int_le_iff_of_between hb.div]

/-- Two reals between the same neighbours, 33 bits and more below the last place, round alike. -/
theorem roundsOnto_of_between {g f : Fmt} {k : Rnd} {neg : Bool} {a b : ℝ} {j : ℕ} {e : ℤ} {res : ℕ × Exc}
    (hj : 2 ^ (g.fb + 33) ≤ j) (ha : Between j e a) (hb : Between j e b) (h : Spec.RoundsOnto g f k neg a res) :
    Spec.RoundsOnto g f k neg b res := by
  intro E h₁ h₂
  have hE : e + g.fb + 33 ≤ E := by
    have : (2 : ℝ) ^ (e + g.fb + 33) < 2 ^ (E + 1) := by
      refine lt_of_le_of_lt ?_ (hb.1.trans h₂)
      rw [add_assoc, add_comm, zpow_add₀ two_ne_zero]
      refine mul_le_mul_of_nonneg_right ?_ (two_zpow_pos e).le
      exact_mod_cast hj
    have := two_zpow_lt.1 this
    omega
  have h := h E ((ha.two_zpow_le_iff hb (by omega)).2 h₁)
    (not_le.1 (mt (ha.two_zpow_le_iff hb (by omega)).1 (not_le.2 h₂)))
  dsimp only at h ⊢
  split
  next hflush => rwa [if_pos hflush] at h
  next hflush =>
    rw [if_neg hflush] at h
    obtain ⟨rm, r, t, t', hmode, ht, ht', hres⟩ := h
    obtain ⟨N, hN⟩ := Int.eq_ofNat_of_zero_le (show 0 ≤ Max.max E g.emin - g.fb - e by omega)
    obtain ⟨N', hN'⟩ := Int.eq_ofNat_of_zero_le (show 0 ≤ E - g.fb - e by omega)
    have hc := ha.sameCell hb (q := Max.max E g.emin - g.fb) (N := N) (by omega)
    have hc' := ha.sameCell hb (q := E - g.fb) (N := N') (by omega)
    have hbits := f.rbits_le
    have hx : ((t : ℝ) = a / 2 ^ (Max.max E g.emin - g.fb : ℤ)) = ((t : ℝ) = b / 2 ^ (Max.max E g.emin - g.fb : ℤ)) :=
      propext (iff_of_false (hc.ne_nat t).1 (hc.ne_nat t).2)
    refine ⟨rm, r, t, t', ?_, hc.roundsTo (by omega) (by omega) ht, hc'.roundsTo (by omega) (by omega) ht', ?_⟩
    · split at hmode
      next hg =>
        rw [if_pos hg]
        refine ⟨hmode.1, ?_⟩
        split
        next hr => exact (if_pos hr).mp hmode.2
        next hr => exact hc.gradWord (by omega) ((if_neg hr).mp hmode.2)
      next hg => rwa [if_neg hg]
    · simpa only [hx] using hres

/-- A value cut to its integer part in units of 2^e, with an odd last bit for the rest, rounds as the value itself. -/
theorem roundsInto_of_floor {f : Fmt} (hf : f.IsIeee) (k : Rnd) (neg : Bool) {j : ℕ} {e : ℤ} {a x : ℝ} {P : Prop} [Decidable P]
    (ha : a = x * 2 ^ e) (hle : (j : ℝ) ≤ x) (hlt : x < j + 1) (hP : P ↔ (j : ℝ) = x) (hj : 2 ^ 90 ≤ j) :
    Spec.RoundsInto f k neg a (resultF f k [] (if P then .fin neg j e else sticky neg j e)) := by
  have hpos := two_zpow_pos (K := ℝ) e
  have hfb := hf.fb_le
  split
  next h =>
    rw [resultF_fin, ha, ← hP.1 h]
    exact roundsInto_roundF hf k neg (by omega) e
  next h =>
    rw [sticky, resultF_fin]
    refine roundsOnto_of_between (j := j) (e := e) ((Nat.pow_le_pow_right two_pos (by omega)).trans hj) ?_ ?_
      (roundsInto_roundF hf k neg (by omega) (e - 1))
    · have : ((2 * j + 1 : ℕ) : ℝ) * 2 ^ (e - 1) = (j + 1 / 2) * 2 ^ e := by
        rw [zpow_sub_one₀ two_ne_zero]
        push_cast
        ring
      rw [this]
      exact ⟨mul_lt_mul_of_pos_right (by linarith) hpos, mul_lt_mul_of_pos_right (by linarith) hpos⟩
    · rw [ha]
      exact ⟨mul_lt_mul_of_pos_right (hle.lt_of_ne (mt hP.2 h)) hpos, mul_lt_mul_of_pos_right hlt hpos⟩

end Sys2Proof.Num
end

section
/-! PROOFS. Quotients, roots and reciprocals (05_isa_arithmetic.md R105): each is cut to the integer part of more than 90 bits of the
exact value. -/
namespace Sys2Proof.Num
open Sys2Proof

/-! ### The integer root -/

theorem isqrtFrom_spec (n k r : ℕ) (hle : r * r ≤ n) (hlt : n < (r + 2 ^ k) * (r + 2 ^ k)) :
    isqrtFrom n k r * isqrtFrom n k r ≤ n ∧ n < (isqrtFrom n k r + 1) * (isqrtFrom n k r + 1) := by
  induction k generalizing r with
  | zero => exact ⟨hle, hlt⟩
  | succ k ih =>
    rw [isqrtFrom]
    split
    next h => exact ih _ h (by rwa [Nat.add_assoc, ← two_mul, ← pow_succ'])
    next h => exact ih _ hle (not_le.1 h)

theorem isqrt_spec (n : ℕ) : isqrt n * isqrt n ≤ n ∧ n < (isqrt n + 1) * (isqrt n + 1) := by
  refine isqrtFrom_spec n _ 0 (by simp) ?_
  rw [Nat.zero_add, ← pow_add]
  exact Nat.lt_log2_self.trans_le (Nat.pow_le_pow_right two_pos (by omega))

theorem le_isqrt {n b : ℕ} (h : 2 ^ (2 * b) ≤ n) : 2 ^ b ≤ isqrt n := by
  by_contra hlt
  have h₁ := (isqrt_spec n).2
  have h₂ : (isqrt n + 1) * (isqrt n + 1) ≤ 2 ^ b * 2 ^ b := Nat.mul_le_mul (by omega) (by omega)
  rw [← pow_add, ← two_mul] at h₂
  omega

/-- The integer root of the integer part is the integer part of the root. -/
theorem isqrt_floor {n : ℕ} {y : ℝ} (hle : (n : ℝ) ≤ y) (hlt : y < n + 1) :
    (isqrt n : ℝ) ≤ √y ∧ √y < isqrt n + 1 := by
  obtain ⟨h₁, h₂⟩ := isqrt_spec n
  have h₁ : (isqrt n : ℝ) * isqrt n ≤ n := by exact_mod_cast h₁
  have h₂ : (n : ℝ) + 1 ≤ (isqrt n + 1) * (isqrt n + 1) := by exact_mod_cast h₂
  constructor
  · exact Real.le_sqrt_of_sq_le (by rw [sq]; exact h₁.trans hle)
  · rw [Real.sqrt_lt' (by positivity), sq]
    exact hlt.trans_le h₂

theorem eq_sqrt_iff {r : ℕ} {y : ℝ} (hy : 0 ≤ y) : (r : ℝ) = √y ↔ (r : ℝ) * r = y := by
  rw [eq_comm, Real.sqrt_eq_iff_mul_self_eq hy (Nat.cast_nonneg r), eq_comm]

/-! ### Quotients -/

/-- The integer part of a quotient, and when it is the quotient. -/
theorem div_floor (n : ℕ) {d : ℕ} (hd : d ≠ 0) :
    ((n / d : ℕ) : ℝ) ≤ n / d ∧ (n : ℝ) / d < (n / d : ℕ) + 1 ∧ (n % d = 0 ↔ ((n / d : ℕ) : ℝ) = n / d) := by
  have hd' : (0 : ℝ) < d := by exact_mod_cast Nat.pos_of_ne_zero hd
  refine ⟨Nat.cast_div_le, ?_, ?_⟩
  · rw [div_lt_iff₀ hd']
    exact_mod_cast (Nat.div_lt_iff_lt_mul (Nat.pos_of_ne_zero hd)).1 (Nat.lt_succ_self _)
  · rw [eq_div_iff hd'.ne']
    have := Nat.div_add_mod' n d
    constructor
    · intro h
      rw [h, Nat.add_zero] at this
      exact_mod_cast this
    · intro h
      have : n / d * d = n := by exact_mod_cast h
      omega

theorem two_pow_le_quotient (m : ℕ) {d b : ℕ} (hm : m ≠ 0) (hd : d ≠ 0) : 2 ^ b ≤ m * 2 ^ (b + 1 + d.log2) / d := by
  rw [Nat.le_div_iff_mul_le (Nat.pos_of_ne_zero hd)]
  calc 2 ^ b * d ≤ 2 ^ b * 2 ^ (d.log2 + 1) := Nat.mul_le_mul_left _ Nat.lt_log2_self.le
    _ = 2 ^ (b + 1 + d.log2) := by rw [← pow_add]; congr 1; omega
    _ ≤ m * 2 ^ (b + 1 + d.log2) := Nat.le_mul_of_pos_left _ (Nat.pos_of_ne_zero hm)

/-- The quotient of two magnitudes rounds once. -/
theorem roundsInto_divFin {f : Fmt} (hf : f.IsIeee) (k : Rnd) (neg : Bool) {m₁ m₂ : ℕ} (h₁ : m₁ ≠ 0) (h₂ : m₂ ≠ 0) (e₁ e₂ : ℤ) :
    Spec.RoundsInto f k neg (m₁ * 2 ^ e₁ / (m₂ * 2 ^ e₂)) (resultF f k [] (divFin neg m₁ e₁ m₂ e₂)) := by
  obtain ⟨hle, hlt, heq⟩ := div_floor (m₁ * 2 ^ (200 + m₂.log2)) h₂
  refine roundsInto_of_floor hf k neg ?_ hle hlt heq ?_
  · rw [zpow_sub₀ two_ne_zero, zpow_sub₀ two_ne_zero, zpow_natCast]
    push_cast
    field_simp
  · exact (Nat.pow_le_pow_right two_pos (by norm_num)).trans (two_pow_le_quotient (b := 199) m₁ h₁ h₂)

/-! ### Roots -/

/-- The root of a magnitude rounds once. -/
theorem roundsInto_sqrtFin {f : Fmt} (hf : f.IsIeee) (k : Rnd) {m : ℕ} (hm : m ≠ 0) (e : ℤ) :
    Spec.RoundsInto f k false (√(m * 2 ^ e)) (resultF f k [] (sqrtFin m e)) := by
  rw [sqrtFin]
  generalize hs : 400 + (if e % 2 = 0 then 0 else 1) = s
  have hs₄ : 400 ≤ s := by omega
  obtain ⟨h, hh⟩ : ∃ h : ℤ, e = 2 * h + s := ⟨(e - s) / 2, by split at hs <;> omega⟩
  have hdiv : (e - s) / 2 = h := by omega
  obtain ⟨hle, hlt⟩ := isqrt_floor (n := m * 2 ^ s) le_rfl (lt_add_one _)
  rw [hdiv]
  refine roundsInto_of_floor hf k false ?_ hle hlt ?_ ?_
  · rw [hh, zpow_add₀ two_ne_zero, two_mul, zpow_add₀ two_ne_zero, zpow_natCast]
    push_cast
    rw [show (m : ℝ) * (2 ^ h * 2 ^ h * 2 ^ s) = m * 2 ^ s * (2 ^ h * 2 ^ h) by ring, Real.sqrt_mul (by positivity),
      Real.sqrt_mul_self (two_zpow_pos h).le]
  · rw [eq_sqrt_iff (by positivity)]
    exact_mod_cast Iff.rfl
  · refine (Nat.pow_le_pow_right two_pos (by norm_num : 90 ≤ 100)).trans (le_isqrt (b := 100) ?_)
    exact (Nat.pow_le_pow_right two_pos (show 2 * 100 ≤ s by omega)).trans (Nat.le_mul_of_pos_left _ (Nat.pos_of_ne_zero hm))

/-- With an even exponent, the reciprocal root of a magnitude rounds once. -/
theorem roundsInto_rsqrt_even {f : Fmt} (hf : f.IsIeee) (k : Rnd) {m : ℕ} (hm : m ≠ 0) (h : ℤ) (b : ℕ) (hb : b = 220 + m.log2) :
    Spec.RoundsInto f k false (1 / √(m * 2 ^ (2 * h)))
      (resultF f k [] (if isqrt (2 ^ (2 * b) / m) * isqrt (2 ^ (2 * b) / m) * m = 2 ^ (2 * b) then
        .fin false (isqrt (2 ^ (2 * b) / m)) (-h - b) else sticky false (isqrt (2 ^ (2 * b) / m)) (-h - b))) := by
  have hm' : (0 : ℝ) < m := by exact_mod_cast Nat.pos_of_ne_zero hm
  obtain ⟨hfl, hfl', -⟩ := div_floor (2 ^ (2 * b)) hm
  obtain ⟨hle, hlt⟩ := isqrt_floor hfl hfl'
  refine roundsInto_of_floor hf k false ?_ hle hlt ?_ ?_
  · push_cast
    rw [Real.sqrt_div (by positivity), Real.sqrt_mul hm'.le, two_mul, zpow_add₀ two_ne_zero,
      Real.sqrt_mul_self (two_zpow_pos h).le, two_mul, pow_add, Real.sqrt_mul_self (by positivity), zpow_sub₀ two_ne_zero,
      zpow_neg, zpow_natCast]
    have := Real.sqrt_pos.2 hm'
    field_simp
  · rw [eq_sqrt_iff (by positivity), eq_div_iff hm'.ne']
    exact_mod_cast Iff.rfl
  · refine (Nat.pow_le_pow_right two_pos (by norm_num : 90 ≤ 219)).trans (le_isqrt ?_)
    have := two_pow_le_quotient 1 (b := 2 * 219) one_ne_zero hm
    rw [one_mul] at this
    exact this.trans (Nat.div_le_div_right (Nat.pow_le_pow_right two_pos (by omega)))

/-- The reciprocal root of a magnitude rounds once. -/
theorem roundsInto_rsqrtFin {f : Fmt} (hf : f.IsIeee) (k : Rnd) {m : ℕ} (hm : m ≠ 0) (e : ℤ) :
    Spec.RoundsInto f k false (1 / √(m * 2 ^ e)) (resultF f k [] (rsqrtFin m e)) := by
  rcases Int.emod_two_eq_zero_or_one e with he | he
  · obtain ⟨h, rfl⟩ := Int.dvd_of_emod_eq_zero he
    have := roundsInto_rsqrt_even hf k hm h _ rfl
    simpa [rsqrtFin] using this
  · obtain ⟨h, rfl⟩ : ∃ h, e = 2 * h + 1 := ⟨e / 2, by omega⟩
    have := roundsInto_rsqrt_even hf k (m := 2 * m) (by omega) h _ rfl
    have hv : ((2 * m : ℕ) : ℝ) * 2 ^ (2 * h) = m * 2 ^ (2 * h + 1) := by
      rw [zpow_add_one₀ two_ne_zero]
      push_cast
      ring
    rw [hv] at this
    simpa [rsqrtFin, he] using this

end Sys2Proof.Num
end

section
/-! PROOFS. The floating-point instructions of finite operands (05_isa_arithmetic.md R105, R108, R112): what an operation reads, the exact
value that it rounds, and that value's one rounding. -/
namespace Sys2Proof.Num
open Sys2Proof

/-! ### Finite values -/

theorem valueOf_fin (neg : Bool) (m : ℕ) (e : ℤ) :
    Spec.valueOf (.fin neg m e) = (if neg then -1 else 1) * ((m : ℚ) * 2 ^ e) := rfl

theorem valueOf_eq_zero_iff (neg : Bool) (m : ℕ) (e : ℤ) : Spec.valueOf (.fin neg m e) = 0 ↔ m = 0 := by
  have := (two_zpow_pos (K := ℚ) e).ne'
  rw [valueOf_fin]
  cases neg <;> simp [this]

theorem abs_valueOf (neg : Bool) (m : ℕ) (e : ℤ) : |Spec.valueOf (.fin neg m e)| = m * 2 ^ e := by
  have : (0 : ℚ) ≤ m * 2 ^ e := mul_nonneg (Nat.cast_nonneg m) (two_zpow_pos e).le
  rw [valueOf_fin, abs_mul, abs_of_nonneg this]
  cases neg <;> simp

theorem abs_valueOf_real (neg : Bool) (m : ℕ) (e : ℤ) : |(Spec.valueOf (.fin neg m e) : ℝ)| = m * 2 ^ e := by
  rw [← Rat.cast_abs, abs_valueOf]
  push_cast
  rfl

/-! ### What an operation reads -/

/-- The model's flushing is the reading of R74. -/
theorem flush_of_reads {f : Fmt} {k : Rnd} {a b : Val} (h : Spec.Reads f k a b) : flush f (k.ftz && !k.gr) a = b := by
  obtain ⟨hsmall, hrest⟩ := h
  cases a with
  | nan n x y => exact (hrest fun hs => by obtain ⟨⟨_, _, _, hs⟩, -⟩ := hs; cases hs).symm
  | inf n => exact (hrest fun hs => by obtain ⟨⟨_, _, _, hs⟩, -⟩ := hs; cases hs).symm
  | fin neg m e =>
    have hiff : (k.ftz && !k.gr && (m != 0) && decide (topExp m e < f.emin)) = true ↔
        Spec.Finite (.fin neg m e) ∧ Spec.valueOf (.fin neg m e) ≠ 0 ∧ |Spec.valueOf (.fin neg m e)| < (2 : ℚ) ^ f.emin ∧
          k.ftz = true ∧ k.gr = false := by
      rw [Ne, valueOf_eq_zero_iff, abs_valueOf]
      by_cases hm : m = 0
      · simp [hm]
      · rw [← topExp_lt_iff hm]
        simp [hm, Spec.Finite]
        tauto
    rw [flush]
    split
    next hs => exact (hsmall (hiff.1 hs)).symm
    next hs => exact (hrest (mt hiff.2 hs)).symm

theorem flush_false (f : Fmt) (v : Val) : flush f false v = v := by
  cases v <;> simp [flush]

/-- A finite nonzero operand that is read as it is. -/
theorem plain_cases {f : Fmt} {k : Rnd} {a : Val} (h : Spec.Plain f k a) :
    ∃ neg m e, a = .fin neg m e ∧ m ≠ 0 ∧ flush f (k.ftz && !k.gr) (.fin neg m e) = .fin neg m e := by
  obtain ⟨⟨neg, m, e, rfl⟩, hz, hr⟩ := h
  exact ⟨neg, m, e, rfl, mt (valueOf_eq_zero_iff neg m e).2 hz, flush_of_reads hr⟩

end Sys2Proof.Num

namespace Sys2Proof.Machine
open Sys2Proof Sys2Proof.Num

/-! ### Quotients, roots and reciprocals -/

section
variable {f : Fmt} {k : Rnd} {neg : Bool} {m : ℕ} {e : ℤ} (hm : m ≠ 0)
  (hr : flush f (k.ftz && !k.gr) (.fin neg m e) = .fin neg m e)
include hm hr

theorem fdiv_fin {neg' : Bool} {m' : ℕ} {e' : ℤ} (hm' : m' ≠ 0)
    (hr' : flush f (k.ftz && !k.gr) (.fin neg' m' e') = .fin neg' m' e') (l i : ℕ) :
    fdiv f k l i [.fin neg m e, .fin neg' m' e'] = resultF f k [] (divFin (neg != neg') m e m' e') := by
  simp [fdiv, inputs, hr, hr', hm, hm', Val.neg?]

theorem frcp_fin (l i : ℕ) : ffunc 0x27 f k l i [.fin neg m e] = resultF f k [] (divFin neg 1 0 m e) := by
  simp [ffunc, inputs, hr, hm]

end

theorem fsqrt_fin {f : Fmt} {k : Rnd} {m : ℕ} {e : ℤ} (hm : m ≠ 0)
    (hr : flush f (k.ftz && !k.gr) (.fin false m e) = .fin false m e) (l i : ℕ) :
    ffunc 0x26 f k l i [.fin false m e] = resultF f k [] (sqrtFin m e) ∧
      ffunc 0x28 f k l i [.fin false m e] = resultF f k [] (rsqrtFin m e) := by
  simp [ffunc, inputs, hr, hm]

theorem quotients {f : Fmt} (hf : f.IsIeee) (k : Rnd) : Spec.Quotients f k := by
  intro a b l i ha hb
  obtain ⟨neg, m, e, rfl, hm, hr⟩ := plain_cases ha
  obtain ⟨neg', m', e', rfl, hm', hr'⟩ := plain_cases hb
  dsimp only
  rw [abs_valueOf_real, abs_valueOf_real, fdiv_fin hm hr hm' hr', frcp_fin hm hr]
  refine ⟨roundsInto_divFin hf k _ hm hm' e e', ?_, fun hneg => ?_⟩
  · have h := roundsInto_divFin hf k neg one_ne_zero hm 0 e
    rwa [Nat.cast_one, zpow_zero, mul_one] at h
  · obtain rfl : neg = false := hneg
    obtain ⟨h₁, h₂⟩ := fsqrt_fin hm hr l i
    rw [h₁, h₂]
    exact ⟨roundsInto_sqrtFin hf k hm e, roundsInto_rsqrtFin hf k hm e⟩

/-! ### FRND, FSCL and FXTR of a value of the format -/

theorem holds_zero (f : Fmt) (q : ℤ) : f.Holds 0 q :=
  ⟨fun h => absurd rfl h, by unfold cut; split <;> simp⟩

/-- What equals a magnitude on the format's grid is held by the format. -/
theorem holds_of_eq {f : Fmt} {t m : ℕ} {q e : ℤ} (hv : (t : ℝ) * 2 ^ q = m * 2 ^ e) (hm : m ≠ 0)
    (he : e = f.last (topExp m e)) (hmax : topExp m e ≤ f.emax) : f.Holds t q := by
  have ht : t ≠ 0 := by
    rintro rfl
    have : (m : ℝ) * 2 ^ e ≠ 0 := mul_ne_zero (by exact_mod_cast hm) (two_zpow_pos e).ne'
    simp [← hv] at this
  have htop : topExp t q = topExp m e := topExp_eq (K := ℝ) ht (by rw [hv]; exact topExp_le hm e) (by rw [hv]; exact lt_topExp m e)
  exact ⟨fun _ => by rwa [htop], by rw [htop, ← he]; exact (cut_of_multiple hv).2⟩

/-- A value of the format, rounded to an integer, is held by the format. -/
theorem holds_integer {f : Fmt} (hf : f.IsIeee) {x : ℕ} {neg : Bool} {m : ℕ} {e : ℤ} (h : decodeF f x = .fin neg m e) (rm : Rm)
    (r n : ℕ) : f.Holds (roundAt rm neg m e 0 r n).1 0 := by
  obtain ⟨hlt, -, hgrid⟩ := hf.decodeF_grid h
  have hfb := hf.fb_lt_emax
  have hemin := hf.emin_eq
  have hp := hf.p_eq
  rcases le_or_gt 0 e with he | he
  · obtain ⟨s, rfl⟩ := Int.eq_ofNat_of_zero_le he
    have hv : (m : ℝ) * 2 ^ (s : ℤ) = (m * 2 ^ s : ℕ) * 2 ^ (0 : ℤ) := by simp
    rw [roundAt_exact hv]
    by_cases hm : m = 0
    · rw [hm, Nat.zero_mul]
      exact holds_zero f 0
    · exact holds_of_eq hv.symm hm (hgrid hm).1 (hgrid hm).2
  · have hu : (m : ℝ) * 2 ^ (e - 0) < (2 ^ f.fb : ℕ) := by
      calc (m : ℝ) * 2 ^ (e - 0) ≤ m * 2 ^ (-1 : ℤ) :=
            mul_le_mul_of_nonneg_left (two_zpow_le.2 (by omega)) (Nat.cast_nonneg m)
        _ < 2 ^ f.p * 2 ^ (-1 : ℤ) := mul_lt_mul_of_pos_right (by exact_mod_cast hlt) (two_zpow_pos _)
        _ = (2 ^ f.fb : ℕ) := by
          rw [hp, pow_succ, zpow_neg_one]
          push_cast
          ring
    have hle := roundAt_le rm neg r n hu
    refine hf.holds_of_le (hle.trans (Nat.pow_le_pow_right two_pos (by omega))) (by omega) fun h₀ => ?_
    have hlog := (Nat.log2_lt h₀ (k := f.fb + 1)).2 (hle.trans_lt (Nat.pow_lt_pow_right one_lt_two (Nat.lt_succ_self _)))
    unfold topExp
    omega

/-- The significand of a value of the format, taken into the binade of 1, is held by the format. -/
theorem holds_significand {f : Fmt} (hf : f.IsIeee) {m : ℕ} (hlt : m < 2 ^ f.p) (hm : m ≠ 0) (e : ℤ) :
    f.Holds m (e - topExp m e) := by
  have hfb := hf.fb_lt_emax
  have hemin := hf.emin_eq
  have hp := hf.p_eq
  have hlog := (Nat.log2_lt hm).2 hlt
  refine hf.holds_of_le hlt.le ?_ fun _ => ?_
  · unfold topExp
    omega
  · unfold topExp
    omega

theorem frnd_fin {f : Fmt} {k : Rnd} {neg : Bool} {m : ℕ} {e : ℤ}
    (hr : flush f (k.ftz && !k.gr) (.fin neg m e) = .fin neg m e) (l i : ℕ) :
    frnd f k l i [.fin neg m e] = (encodeF f neg (roundAt k.rm neg m e 0 k.rand f.rbits).1 0, 0) := by
  simp [frnd, inputs, hr]

theorem fscl_fin {f : Fmt} {k : Rnd} {neg : Bool} {m : ℕ} {e : ℤ}
    (hr : flush f (k.ftz && !k.gr) (.fin neg m e) = .fin neg m e) (n : ℤ) :
    fscl f k n [.fin neg m e] = roundF f k neg m (e + n) := by
  simp [fscl, inputs, hr, arith, resultF_fin, Val.isNan]

theorem fxtr_man_fin {f : Fmt} {k : Rnd} {neg : Bool} {m : ℕ} {e : ℤ} (hm : m ≠ 0)
    (hr : flush f (k.ftz && !k.gr) (.fin neg m e) = .fin neg m e) (w l i : ℕ) :
    fxtr true w f k l i [.fin neg m e] = (encodeF f neg m (e - topExp m e), 0) := by
  simp [fxtr, inputs, hr, hm]

theorem fxtr_exp_fin {f : Fmt} {k : Rnd} {neg : Bool} {m : ℕ} {e : ℤ} (hm : m ≠ 0)
    (hr : flush f (k.ftz && !k.gr) (.fin neg m e) = .fin neg m e) (w l i : ℕ) :
    fxtr false w f k l i [.fin neg m e] = ((topExp m e % (2 ^ w : ℕ)).toNat, 0) := by
  simp [fxtr, inputs, hr, hm]

theorem scalings {f : Fmt} (hf : f.IsIeee) (k : Rnd) : Spec.Scalings f k := by
  intro x l i
  refine ⟨fun ⟨neg, m, e, hd⟩ hr => ?_, fun ha => ?_⟩
  · rw [hd] at hr ⊢
    have hr := flush_of_reads hr
    refine ⟨_, by rw [abs_valueOf_real, ← sub_zero e]; exact roundAt_roundsTo k.rm neg m e 0 k.rand f.rbits, ?_⟩
    obtain ⟨-, m', e', hd', hv⟩ := hf.decodeF_encodeF (holds_integer hf hd k.rm k.rand f.rbits) neg
    dsimp only
    rw [frnd_fin hr, hd', abs_valueOf_real, hv]
    exact ⟨rfl, ⟨neg, m', e', rfl⟩, rfl, by simp⟩
  · obtain ⟨neg, m, e, hd, hm, hr⟩ := plain_cases ha
    rw [hd, abs_valueOf_real]
    refine ⟨fun n => ?_, fun E h₁ h₂ => ?_⟩
    · rw [fscl_fin hr, mul_assoc, ← zpow_add₀ two_ne_zero]
      exact roundsInto_roundF hf k neg hm (e + n)
    · obtain rfl := topExp_eq hm h₁ h₂
      obtain ⟨-, m', e', hd', hv⟩ := hf.decodeF_encodeF (holds_significand hf (hf.decodeF_grid hd).1 hm e) neg
      dsimp only
      rw [fxtr_man_fin hm hr, hd']
      refine ⟨rfl, ⟨neg, m', e', rfl⟩, ?_, fun w => fxtr_exp_fin hm hr w l i⟩
      rw [valueOf_fin, valueOf_fin]
      push_cast
      rw [hv, zpow_sub₀ two_ne_zero]
      ring

/-! ### Classes -/

theorem fcls_eq_classOf (f : Fmt) (k : Rnd) (v : Val) (l i : ℕ) : fcls f k l i [v] = (2 ^ Spec.classOf f v, 0) := by
  cases v with
  | nan => rfl
  | inf => rfl
  | fin neg m e =>
    simp only [fcls, Spec.classOf, valueOf_eq_zero_iff, abs_valueOf]
    by_cases hm : m = 0
    · cases neg <;> simp [hm]
    · simp only [← topExp_lt_iff hm, hm, if_false]
      cases neg
      · simp
      · split <;> simp

/-- An operand that is read as a zero. -/
theorem flush_zero {f : Fmt} {k : Rnd} {v : Val} (hv : Spec.Finite v) (h : Spec.valueOf v = 0 ∨ Spec.Reads f k v (.zero v.neg?)) :
    ∃ e, flush f (k.ftz && !k.gr) v = .fin v.neg? 0 e := by
  rcases h with h | h
  · obtain ⟨neg, m, e, rfl⟩ := hv
    rw [valueOf_eq_zero_iff] at h
    exact ⟨e, by simp [flush, h, Val.neg?]⟩
  · exact ⟨0, flush_of_reads h⟩

theorem fxtr_zero {f : Fmt} {k : Rnd} {v : Val} {neg : Bool} {e : ℤ} (h : flush f (k.ftz && !k.gr) v = .fin neg 0 e) (w l i : ℕ) :
    fxtr false w f k l i [v] = (2 ^ (w - 1), nv) ∧ fxtr true w f k l i [v] = (f.zero neg, 0) := by
  simp [fxtr, inputs, h]

theorem classes (f : Fmt) (k : Rnd) : Spec.Classes f k := by
  intro v l i
  refine ⟨fcls_eq_classOf f k v l i, fun w => ⟨?_, fun hi => ?_⟩, fun hv hz w => ?_⟩
  · rintro (hn | ⟨hv, hz⟩)
    · cases v with
      | nan => rfl
      | inf => cases hn
      | fin => cases hn
    · obtain ⟨e, he⟩ := flush_zero hv hz
      exact (fxtr_zero he w l i).1
  · cases v with
    | inf => exact ⟨rfl, rfl⟩
    | nan => cases hi
    | fin => cases hi
  · obtain ⟨e, he⟩ := flush_zero (k := k) (f := f) hv (.inl hz)
    exact (fxtr_zero he w l i).2

/-! ### SRND -/

/-- SRND is the rounding onto a coarser grid of binary32, in direction .sr. -/
theorem srnd_fin (p : ℕ) (cnan : Bool) (r : ℕ) (neg : Bool) {m : ℕ} (hm : m ≠ 0) (e : ℤ) (hp : 1 ≤ p) :
    srnd p cnan r (.fin neg m e) = roundedTo { f32 with p := p } f32 .sr neg m e r := by
  have hq : Max.max (topExp m e) (-126) - (p : ℤ) + 1 = Fmt.last { f32 with p := p } (topExp m e) := by
    simp only [Fmt.last, Fmt.fb, f32]
    omega
  have hu : topExp m e - (p : ℤ) + 1 = topExp m e - (Fmt.fb { f32 with p := p } : ℕ) := by
    simp only [Fmt.fb]
    omega
  simp only [srnd, hm, if_false, hq, hu]
  have hbits : f32.rbits = 32 := rfl
  simp only [roundedTo, toInfinity, hbits]
  simp [show f32.emin = -126 from rfl, show f32.emax = 127 from rfl]

theorem roundsOnto_srnd {p : ℕ} (hp : 1 ≤ p) (hp' : p ≤ 24) (cnan : Bool) (r : ℕ) (neg : Bool) {m : ℕ} (hm : m ≠ 0) (e : ℤ) :
    Spec.RoundsOnto { f32 with p := p } f32 { rm := .sr, gr := false, ftz := false, cnan := cnan, rand := r, grand := none } neg
      (m * 2 ^ e) (srnd p cnan r (.fin neg m e)) := by
  rw [srnd_fin p cnan r neg hm e hp]
  have hf : f32.IsIeee := isIeee_of_mem (by simp [Spec.ieee])
  exact roundsOnto_roundedTo (g := { f32 with p := p }) hf ⟨hp, hp', rfl, rfl⟩ hm (by simp) (by simp)

theorem srnd_special (p : ℕ) (cnan : Bool) (r : ℕ) {a : Val} :
    (Spec.Finite a → Spec.valueOf a = 0 → srnd p cnan r a = (f32.zero a.neg?, 0)) ∧
      (a.isInf = true → srnd p cnan r a = (f32.inf a.neg?, 0)) := by
  refine ⟨fun ⟨neg, m, e, h⟩ hz => ?_, fun h => ?_⟩
  · subst h
    rw [valueOf_eq_zero_iff] at hz
    simp [srnd, hz, Val.neg?]
  · cases a with
    | inf => rfl
    | nan => cases h
    | fin => cases h

/-! ### Sums and products -/

theorem minExp_le {ts : List Val} {neg : Bool} {m : ℕ} {e : ℤ} (h : .fin neg m e ∈ ts) (hf : ∀ t ∈ ts, Spec.Finite t) :
    minExp ts ≤ e := by
  induction ts with
  | nil => cases h
  | cons t ts ih =>
    obtain ⟨neg', m', e', rfl⟩ := hf t (List.mem_cons_self ..)
    cases ts with
    | nil =>
      obtain ⟨rfl, rfl, rfl⟩ : neg = neg' ∧ m = m' ∧ e = e' := by simpa using h
      exact le_rfl
    | cons u us =>
      rcases List.mem_cons.1 h with h | h
      · cases h
        exact min_le_left _ _
      · exact (min_le_right _ _).trans (ih h fun t ht => hf t (List.mem_cons_of_mem _ ht))

theorem not_inf_of_finite {ts : List Val} (hf : ∀ t ∈ ts, Spec.Finite t) (n : Bool) :
    ts.any (fun t => t = .inf n) = false := by
  rw [List.any_eq_false]
  intro t ht
  obtain ⟨neg, m, e, rfl⟩ := hf t ht
  simp

theorem foldl_scaled (e0 : ℤ) (ts : List Val) (hf : ∀ t ∈ ts, ∃ neg m e, t = .fin neg m e ∧ e0 ≤ e) (s : ℤ) :
    ((ts.foldl (fun (a : ℤ) t => a + scaled e0 t) s : ℤ) : ℚ) * 2 ^ e0 = s * 2 ^ e0 + (ts.map Spec.valueOf).sum := by
  induction ts generalizing s with
  | nil => simp
  | cons t ts ih =>
    obtain ⟨neg, m, e, rfl, he⟩ := hf t (List.mem_cons_self ..)
    rw [List.foldl_cons, ih fun t ht => hf t (List.mem_cons_of_mem _ ht), List.map_cons, List.sum_cons, Int.cast_add, add_mul,
      scaled_value neg m he, add_assoc]

theorem sign_mul_natAbs (s : ℤ) : (if decide (s < 0) = true then (-1 : ℚ) else 1) * s.natAbs = s := by
  rw [Nat.cast_natAbs]
  rcases lt_or_ge s 0 with h | h
  · simp [h, abs_of_neg h]
  · simp [not_lt.2 h, abs_of_nonneg h]

/-- The exact sum of finite terms. -/
theorem sum_finite (rm : Rm) {ts : List Val} (hf : ∀ t ∈ ts, Spec.Finite t) :
    Spec.Finite (Num.sum rm ts) ∧ Spec.valueOf (Num.sum rm ts) = (ts.map Spec.valueOf).sum := by
  have h := foldl_scaled (minExp ts) ts (fun t ht => by
    obtain ⟨neg, m, e, rfl⟩ := hf t ht
    exact ⟨neg, m, e, rfl, minExp_le ht hf⟩) 0
  rw [Int.cast_zero, zero_mul, zero_add] at h
  rw [Num.sum]
  simp only [not_inf_of_finite hf, Bool.and_self, Bool.false_eq_true, if_false]
  split
  next hs =>
    rw [hs, Int.cast_zero, zero_mul] at h
    refine ⟨⟨_, _, _, rfl⟩, ?_⟩
    rw [← h, Val.zero, valueOf_eq_zero_iff]
  next hs =>
    refine ⟨⟨_, _, _, rfl⟩, ?_⟩
    rw [valueOf_fin, ← h, ← mul_assoc]
    rw [sign_mul_natAbs]

theorem mul_finite {a b : Val} (ha : Spec.Finite a) (hb : Spec.Finite b) :
    Spec.Finite (Num.mul a b) ∧ Spec.valueOf (Num.mul a b) = Spec.valueOf a * Spec.valueOf b := by
  obtain ⟨n, m, e, rfl⟩ := ha
  obtain ⟨n', m', e', rfl⟩ := hb
  refine ⟨⟨_, _, _, rfl⟩, ?_⟩
  have hsign : (if (n != n') = true then (-1 : ℚ) else 1) = (if n = true then -1 else 1) * (if n' = true then -1 else 1) := by
    cases n <;> cases n' <;> simp
  rw [Num.mul, valueOf_fin, valueOf_fin, valueOf_fin, zpow_add₀ two_ne_zero, hsign, Nat.cast_mul]
  ring

/-- The one rounding of a finite value. -/
def roundOnce (f : Fmt) (k : Rnd) (x : Val) : ℕ × Exc :=
  match x with
  | .fin neg m e => roundF f k neg m e
  | _ => (0, 0)

theorem arith_finite {f : Fmt} {k : Rnd} {ops : List Val} {v : Val} (hops : ∀ t ∈ ops, Spec.Finite t) (hv : Spec.Finite v) :
    arith f k ops false v = roundOnce f k v := by
  have hnan : ops.any Val.isNan = false := by
    rw [List.any_eq_false]
    intro t ht
    obtain ⟨neg, m, e, rfl⟩ := hops t ht
    simp [Val.isNan]
  obtain ⟨neg, m, e, rfl⟩ := hv
  simp [arith, hnan, resultF_fin, roundOnce]

theorem inputs_of_not_ftz {f : Fmt} {k : Rnd} (hk : k.ftz = false) (vs : List Val) : inputs f k vs = vs := by
  have : flush f false = id := funext (flush_false f)
  simp [inputs, hk, this]

theorem isNan_of_finite {a : Val} (ha : Spec.Finite a) : a.isNan = false := by
  obtain ⟨neg, m, e, rfl⟩ := ha
  rfl

theorem sumInvalid_finite {ts : List Val} (hf : ∀ t ∈ ts, Spec.Finite t) : sumInvalid ts = false := by
  rw [sumInvalid, not_inf_of_finite hf, Bool.false_and]

section
variable {f : Fmt} {k : Rnd} (hk : k.ftz = false) (l i : ℕ) {a b c : Val} (ha : Spec.Finite a) (hb : Spec.Finite b)
include hk ha hb

theorem fadd_finite : fadd f k l i [a, b] = roundOnce f k (Num.sum k.rm [a, b]) := by
  have hts : ∀ t ∈ [a, b], Spec.Finite t := by simp [ha, hb]
  simp [fadd, inputs_of_not_ftz hk, sumProducts, isNan_of_finite ha, isNan_of_finite hb, sumInvalid_finite hts,
    arith_finite hts (sum_finite k.rm hts).1]

theorem fmul_finite : fmul f k l i [a, b] = roundOnce f k (Num.mul a b) := by
  have hts : ∀ t ∈ [a, b], Spec.Finite t := by simp [ha, hb]
  have hm := (mul_finite ha hb).1
  simp [fmul, inputs_of_not_ftz hk, mulInvalid, isNan_of_finite hm, arith_finite hts hm]

theorem ffma_finite (hc : Spec.Finite c) : ffma f k l i [a, b, c] = roundOnce f k (Num.sum k.rm [Num.mul a b, c]) := by
  have hops : ∀ t ∈ [a, b, c], Spec.Finite t := by simp [ha, hb, hc]
  have hm := (mul_finite ha hb).1
  have hts : ∀ t ∈ [Num.mul a b, c], Spec.Finite t := by simp [hm, hc]
  simp [ffma, inputs_of_not_ftz hk, sumProducts, mulInvalid, isNan_of_finite ha, isNan_of_finite hb, isNan_of_finite hc,
    isNan_of_finite hm, sumInvalid_finite hts, arith_finite hops (sum_finite k.rm hts).1]

end

/-- Settles O20: each instruction forms the exact value, or more than 90 bits of it and a mark for the rest, and rounds that once. -/
theorem oneRounding : Obligations.OneRounding := by
  refine ⟨fun rm ts hf => sum_finite rm hf, fun a b ha hb => mul_finite ha hb,
    fun f hf k => ⟨quotients (isIeee_of_mem hf) k, scalings (isIeee_of_mem hf) k, classes f k⟩,
    fun p cnan r x hp hp' => ⟨?_, (srnd_special p cnan r).1, (srnd_special p cnan r).2⟩,
    fun f k l i a b c hk ha hb hc => ?_⟩
  · rintro ⟨neg, m, e, hd⟩ hz
    rw [hd] at hz ⊢
    rw [abs_valueOf_real]
    exact roundsOnto_srnd hp hp' cnan r neg (mt (valueOf_eq_zero_iff neg m e).2 hz) e
  · exact ⟨fadd_finite hk l i ha hb, fmul_finite hk l i ha hb, ffma_finite hk l i ha hb hc⟩

end Sys2Proof.Machine
end

section
/-! PROOFS. FMIN and FMAX (05_isa_arithmetic.md R107): which of two operands is taken, and that it keeps its pattern. -/
namespace Sys2Proof.Num
open Sys2Proof Sys2Proof.Machine

/-- The encoding in which FMIN and FMAX give the operand that they take. -/
def encodeOperand (f : Fmt) (k : Rnd) (v : Val) : ℕ :=
  match v with
  | .fin neg m e => encodeF f neg m e
  | .inf neg => f.inf neg
  | v => nanF f k.cnan [v]

/-- An operand that is no NaN keeps its pattern. -/
theorem encodeOperand_decodeF {f : Fmt} (hf : f.IsIeee) (k : Rnd) {x : ℕ} (hx : x < 2 ^ f.bits)
    (hn : (decodeF f x).isNan = false) : encodeOperand f k (decodeF f x) = x := by
  obtain ⟨neg, b, c, hb, hc, rfl⟩ := hf.exists_pack hx
  have hd := hf.decodeF_pack (neg := neg) hb hc
  cases h : decodeF f (f.pack neg b c) with
  | nan => rw [h] at hn; cases hn
  | fin => exact hf.encodeF_decodeF hx h
  | inf neg' =>
    rw [h] at hd
    split at hd
    next hb' =>
      split at hd
      next hc' =>
        cases hd
        rw [hb', hc']
        rfl
      · cases hd
    next => split at hd <;> cases hd

/-! ### The order of operands -/

/-- R107's order: −0 below +0. -/
def Below (u v : Val) : Prop := cmp u v = .lt ∨ (u.isZero = true ∧ v.isZero = true ∧ u.neg? = true ∧ v.neg? = false)

theorem cmp_swap {a b : Val} (ha : a.isNan = false) (hb : b.isNan = false) : (cmp a b).swap = cmp b a := by
  cases a with
  | nan => cases ha
  | inf n =>
    cases b with
    | nan => cases hb
    | inf n' => cases n <;> cases n' <;> rfl
    | fin => cases n <;> rfl
  | fin _ _ e =>
    cases b with
    | nan => cases hb
    | inf n => cases n <;> rfl
    | fin _ _ e' => simp only [cmp, minExp, min_comm e' e, Int.compare_swap]

theorem cmp_gt_iff {a b : Val} (ha : a.isNan = false) (hb : b.isNan = false) : cmp a b = .gt ↔ cmp b a = .lt := by
  rw [← cmp_swap ha hb, Ordering.swap_eq_lt]

/-- Two zeros compare as equal. -/
theorem cmp_zeros {a b : Val} (ha : a.isZero = true) (hb : b.isZero = true) : cmp a b = .eq := by
  cases a with
  | nan | inf => cases ha
  | fin n m e =>
    cases b with
    | nan | inf => cases hb
    | fin n' m' e' =>
      simp only [Val.isZero, decide_eq_true_eq] at ha hb
      simp [cmp, scaled, ha, hb]

theorem below_iff_cmp (a b : Val) :
    (if a.isZero && b.isZero then a.neg? && !b.neg? else decide (cmp a b = .lt)) = true ↔ Below a b := by
  unfold Below
  cases ha : a.isZero <;> cases hb : b.isZero <;> simp
  simp [cmp_zeros ha hb]

theorem not_below_of_below {a b : Val} (ha : a.isNan = false) (hb : b.isNan = false) (h : Below a b) : ¬Below b a := by
  rintro (h' | ⟨hz', hz, hn', hn⟩) <;> rcases h with h | ⟨hz, hz', hn, hn'⟩
  · rw [← cmp_gt_iff ha hb, h] at h'; cases h'
  · rw [cmp_zeros hz' hz] at h'; cases h'
  · rw [cmp_zeros hz hz'] at h; cases h
  · simp_all

/-! ### The operand that is taken -/

theorem snanExc_numbers {a b : Val} (ha : a.isNan = false) (hb : b.isNan = false) : snanExc [a, b] = 0 := by
  cases a with
  | nan => cases ha
  | inf | fin =>
    cases b with
    | nan => cases hb
    | inf | fin => rfl

section
variable {f : Fmt} {k : Rnd} (hk : k.ftz = false) (isMax : Bool) (l i : ℕ) {a b : Val}
include hk

theorem fminmax_exc : (fminmax isMax f k l i [a, b]).2 = snanExc [a, b] := by
  simp only [fminmax, inputs_of_not_ftz hk]
  split_ifs <;> rfl

theorem fminmax_nan_left (ha : a.isNan = true) (hb : b.isNan = false) :
    (fminmax isMax f k l i [a, b]).1 = encodeOperand f k b := by
  simp only [fminmax, inputs_of_not_ftz hk, ha, hb, Bool.and_false, Bool.false_eq_true, if_false, if_true]
  rfl

theorem fminmax_nan_right (ha : a.isNan = false) (hb : b.isNan = true) :
    (fminmax isMax f k l i [a, b]).1 = encodeOperand f k a := by
  simp only [fminmax, inputs_of_not_ftz hk, ha, hb, Bool.false_and, Bool.false_eq_true, if_false, if_true]
  rfl

section
variable (ha : a.isNan = false) (hb : b.isNan = false)
include ha hb

/-- The greater or the lesser of two numbers; the first where neither is below the other. -/
theorem fminmax_numbers [Decidable (Below a b)] [Decidable (Below b a)] : fminmax isMax f k l i [a, b] =
    (encodeOperand f k (if isMax then (if Below a b then b else a) else (if Below b a then b else a)), 0) := by
  have hlt := below_iff_cmp a b
  have hgt := below_iff_cmp b a
  simp only [Bool.and_comm b.isZero, ← cmp_gt_iff ha hb] at hgt
  simp only [fminmax, inputs_of_not_ftz hk, snanExc_numbers ha hb, ha, hb, Bool.and_self, Bool.false_eq_true, if_false, hlt, hgt]
  rfl

theorem fminmax_of_below (h : Below a b) :
    fminmax false f k l i [a, b] = (encodeOperand f k a, 0) ∧ fminmax true f k l i [a, b] = (encodeOperand f k b, 0) := by
  classical
  simp [fminmax_numbers hk _ l i ha hb, h, not_below_of_below ha hb h]

theorem fminmax_of_above (h : Below b a) :
    fminmax false f k l i [a, b] = (encodeOperand f k b, 0) ∧ fminmax true f k l i [a, b] = (encodeOperand f k a, 0) := by
  classical
  simp [fminmax_numbers hk _ l i ha hb, h, not_below_of_below hb ha h]

end

end

/-- Settles O22: of two numbers the order decides, of a number and a NaN the number is taken; what is taken keeps its pattern. -/
theorem minMax : Obligations.MinMax := by
  intro f hf k l i x y hx hy hk
  have hf := isIeee_of_mem hf
  have hx := encodeOperand_decodeF hf k hx
  have hy := encodeOperand_decodeF hf k hy
  refine ⟨fun ha hb => ⟨fun h => ?_, fun h => ?_⟩, fun ha hb => ?_, fun ha hb => ?_, ?_⟩
  · have := fminmax_of_below (f := f) hk l i ha hb h
    rwa [hx ha, hy hb] at this
  · have := fminmax_of_above (f := f) hk l i ha hb h
    rwa [hx ha, hy hb] at this
  · exact ⟨(fminmax_nan_left hk false l i ha hb).trans (hy hb), (fminmax_nan_left hk true l i ha hb).trans (hy hb)⟩
  · exact ⟨(fminmax_nan_right hk false l i ha hb).trans (hx ha), (fminmax_nan_right hk true l i ha hb).trans (hx ha)⟩
  · simp only [fminmax_exc hk]
    simp [snanExc]

end Sys2Proof.Num
end

section
/-! PROOFS. The integer, logical and bit-field operations (05_isa_arithmetic.md R100 to R103): the model computes on natural numbers and
integers what the manual says of words. -/

namespace Sys2Proof.Machine
open Sys2Proof

/-! ### Integers as words -/

theorem sx_toNat {w : ℕ} (hw : 0 < w) (a : BitVec w) : sx w a.toNat = a.toInt := by
  obtain ⟨n, rfl⟩ := Nat.exists_eq_succ_of_ne_zero hw.ne'
  rw [sx, Nat.mod_eq_of_lt a.isLt, BitVec.toInt_eq_toNat_cond, Nat.succ_sub_one, pow_succ']
  simp only [Nat.mul_lt_mul_left two_pos]

theorem si32_toNat (a : Word) : si32 a.toNat = a.toInt := sx_toNat (by norm_num) a

theorem si64_toNat (a : DWord) : si64 a.toNat = a.toInt := sx_toNat (by norm_num) a

theorem ofNat_wrapN (w : ℕ) (x : ℤ) : BitVec.ofNat w (wrapN w x) = BitVec.ofInt w x := by
  apply BitVec.eq_of_toNat_eq
  rw [BitVec.toNat_ofNat, BitVec.toNat_ofInt, wrapN, Nat.mod_eq_of_lt]
  have := Int.emod_lt_of_pos x (show (0 : ℤ) < (2 ^ w : ℕ) by positivity)
  have := Int.emod_nonneg x (show ((2 ^ w : ℕ) : ℤ) ≠ 0 by positivity)
  omega

theorem ofInt_toNat {w : ℕ} (a : BitVec w) : BitVec.ofInt w (a.toNat : ℤ) = a := by
  rw [BitVec.ofInt_natCast, BitVec.ofNat_toNat, BitVec.setWidth_eq]

theorem ofInt_sub {w : ℕ} (x y : ℤ) : BitVec.ofInt w (x - y) = BitVec.ofInt w x - BitVec.ofInt w y := by
  rw [Int.sub_eq_add_neg, BitVec.ofInt_add, BitVec.ofInt_neg, BitVec.sub_eq_add_neg]

theorem clampInt_eq {x lo hi : ℤ} (h : lo ≤ hi) : clampInt x lo hi = max lo (min hi x) := by
  unfold clampInt
  split_ifs <;> omega

theorem ofNat_satI {w : ℕ} (x : ℤ) : BitVec.ofNat w (satI w x) = Spec.clampS w x := by
  have : (0 : ℤ) < 2 ^ (w - 1) := by positivity
  rw [satI, ofNat_wrapN, clampInt_eq (by push_cast; omega), Spec.clampS]
  push_cast
  rfl

theorem ofNat_satN {w : ℕ} (x : ℤ) : BitVec.ofNat w (satN w x) = Spec.clampU w x := by
  have : (0 : ℤ) < 2 ^ w := by positivity
  rw [satN, ofNat_wrapN, clampInt_eq (by push_cast; omega), Spec.clampU]
  push_cast
  rfl

/-- IADD and IADD64 without the carry form (R100). -/
theorem ofNat_add {w : ℕ} (hw : 0 < w) (fn : BitVec 4) (a b : BitVec w) : BitVec.ofNat w (addSub w fn.toNat 1 a.toNat b.toNat) =
    if fn = 1 then Spec.clampS w (a.toInt + b.toInt) else if fn = 2 then Spec.clampU w (a.toNat + b.toNat) else a + b := by
  simp only [addSub, sx_toNat hw, one_mul, apply_ite (BitVec.ofNat w), ofNat_satI, ofNat_satN, ofNat_wrapN, BitVec.ofInt_add,
    ofInt_toNat, BitVec.toNat_eq_nat]
  simp

/-- ISUB without the carry form (R100); an unsigned difference below zero is held at zero. -/
theorem ofNat_sub (fn : BitVec 4) (a b : Word) : BitVec.ofNat 32 (addSub 32 fn.toNat (-1) a.toNat b.toNat) =
    if fn = 1 then Spec.clampS 32 (a.toInt - b.toInt) else if fn = 2 then BitVec.ofNat 32 (a.toNat - b.toNat) else a - b := by
  have hu : Spec.clampU 32 ((a.toNat : ℤ) - b.toNat) = BitVec.ofNat 32 (a.toNat - b.toNat) := by
    rw [Spec.clampU, ← BitVec.ofInt_natCast]
    congr 1
    omega
  simp only [addSub, sx_toNat (w := 32) (by norm_num), neg_one_mul, ← Int.sub_eq_add_neg, apply_ite (BitVec.ofNat 32), ofNat_satI,
    ofNat_satN, ofNat_wrapN, ofInt_sub, ofInt_toNat, hu, BitVec.toNat_eq_nat]
  simp

theorem extract_high (x : DWord) : x.extractLsb' 32 32 = BitVec.ofNat 32 (x.toNat / 2 ^ 32) := by
  apply BitVec.eq_of_toNat_eq
  rw [BitVec.extractLsb'_toNat, BitVec.toNat_ofNat, Nat.shiftRight_eq_div_pow]

/-- The high word of a signed product is its integer part in units of 2^32. -/
theorem extract_high_ofInt (x : ℤ) : (BitVec.ofInt 64 x).extractLsb' 32 32 = BitVec.ofInt 32 (x / (2 ^ 32 : ℕ)) := by
  apply BitVec.eq_of_toNat_eq
  rw [extract_high, BitVec.toNat_ofNat, BitVec.toNat_ofInt, BitVec.toNat_ofInt]
  push_cast
  omega

theorem signExtend_eq_ofInt {v w : ℕ} (h : v ≤ w) (a : BitVec v) : a.signExtend w = BitVec.ofInt w a.toInt := by
  apply BitVec.eq_of_toInt_eq
  rw [← BitVec.toInt_signExtend_of_le h, BitVec.ofInt_toInt]

theorem zeroExtend_eq_ofNat {v w : ℕ} (h : v ≤ w) (a : BitVec v) : a.zeroExtend w = BitVec.ofNat w a.toNat := by
  rw [← BitVec.setWidth_ofNat_of_le_of_lt h a.isLt, BitVec.ofNat_toNat, BitVec.setWidth_eq]

/-- IMUL and IMAD's product by FN (R100). -/
theorem ofNat_mulWord (fn : BitVec 4) (a b : Word) :
    BitVec.ofNat 32 (mulWord fn.toNat a.toNat b.toNat) = Spec.mulHiLo fn a b := by
  have hs : (a.signExtend 64 * b.signExtend 64).extractLsb' 32 32 = BitVec.ofInt 32 (a.toInt * b.toInt / (2 ^ 32 : ℕ)) := by
    rw [signExtend_eq_ofInt (by norm_num), signExtend_eq_ofInt (by norm_num), ← BitVec.ofInt_mul, extract_high_ofInt]
  have hu : (a.zeroExtend 64 * b.zeroExtend 64).extractLsb' 32 32 = BitVec.ofNat 32 (a.toNat * b.toNat / 2 ^ 32) := by
    rw [zeroExtend_eq_ofNat (by norm_num), zeroExtend_eq_ofNat (by norm_num), ← BitVec.ofNat_mul, extract_high,
      BitVec.toNat_ofNat, Nat.mod_eq_of_lt]
    have h := Nat.mul_lt_mul'' a.isLt b.isLt
    rwa [← pow_add] at h
  have hl : a * b = BitVec.ofNat 32 (a.toNat * b.toNat % 2 ^ 32) := by
    apply BitVec.eq_of_toNat_eq
    rw [BitVec.toNat_mul, BitVec.toNat_ofNat, Nat.mod_mod]
  simp only [Spec.mulHiLo, hs, hu, hl, mulWord, si32_toNat, apply_ite (BitVec.ofNat 32), ofNat_wrapN, BitVec.toNat_eq_nat]
  simp

/-- IMAD (R100). -/
theorem ofNat_madWord (fn : BitVec 4) (a b c : Word) :
    BitVec.ofNat 32 ((mulWord fn.toNat a.toNat b.toNat + c.toNat) % 2 ^ 32) = Spec.mulHiLo fn a b + c := by
  rw [← ofNat_mulWord]
  apply BitVec.eq_of_toNat_eq
  simp

/-- IMADW (R100). -/
theorem ofNat_madw (fn : BitVec 4) (a b : Word) (x : DWord) :
    BitVec.ofNat 64 (if fn = 0 then wrapN 64 (si32 a.toNat * si32 b.toNat + si64 x.toNat)
      else (a.toNat * b.toNat + x.toNat) % 2 ^ 64) =
      if fn = 0 then a.signExtend 64 * b.signExtend 64 + x else a.zeroExtend 64 * b.zeroExtend 64 + x := by
  split
  · rw [ofNat_wrapN, BitVec.ofInt_add, BitVec.ofInt_mul, si32_toNat, si32_toNat, si64_toNat, BitVec.ofInt_toInt,
      signExtend_eq_ofInt (by norm_num), signExtend_eq_ofInt (by norm_num)]
  · rw [zeroExtend_eq_ofNat (by norm_num), zeroExtend_eq_ofNat (by norm_num), ← BitVec.ofNat_mul]
    apply BitVec.eq_of_toNat_eq
    simp

/-- IMNMX (R100). -/
theorem ofNat_minMax (fn : BitVec 4) (a b : Word) : BitVec.ofNat 32 (minMax fn.toNat a.toNat b.toNat) =
    if fn = 0 then (if a.sle b then a else b) else if fn = 1 then (if a.sle b then b else a)
    else if fn = 2 then (if a ≤ b then a else b) else if a ≤ b then b else a := by
  have hle : a ≤ b ↔ a.toNat ≤ b.toNat := Iff.rfl
  have hmin : BitVec.ofNat 32 (min a.toNat b.toNat) = if a ≤ b then a else b := by
    rw [min_def, apply_ite (BitVec.ofNat 32)]
    simp [hle]
  have hmax : BitVec.ofNat 32 (max a.toNat b.toNat) = if a ≤ b then b else a := by
    rw [max_def, apply_ite (BitVec.ofNat 32)]
    simp [hle]
  have hs : b.toInt < a.toInt ↔ ¬a.toInt ≤ b.toInt := not_le.symm
  have hs' : (if a.toInt < b.toInt then b else a) = if a.toInt ≤ b.toInt then b else a := by
    rcases lt_trichotomy a.toInt b.toInt with h | h | h
    · rw [if_pos h, if_pos h.le]
    · rw [BitVec.toInt_inj.1 h, ite_self, ite_self]
    · rw [if_neg h.not_gt, if_neg h.not_ge]
  simp only [minMax, apply_ite (BitVec.ofNat 32), si32_toNat, hmin, hmax, hs, ite_not, BitVec.sle_iff_toInt_le,
    BitVec.ofNat_toNat, BitVec.setWidth_eq, hs', BitVec.toNat_eq_nat]
  simp

/-- IABS (R100). -/
theorem ofNat_absNeg (fn : BitVec 4) (sat : Bool) (a : Word) : BitVec.ofNat 32 (absNeg fn.toNat sat a.toNat) =
    if sat ∧ a = 0x80000000#32 then 0x7FFFFFFF#32 else if fn = 1 then -a else if a.msb then -a else a := by
  have habs : BitVec.ofNat 32 (wrapN 32 (a.toInt.natAbs : ℤ)) = if a.msb then -a else a := by
    rw [ofNat_wrapN, BitVec.msb_eq_toInt]
    simp only [decide_eq_true_eq]
    split
    next h => rw [Int.ofNat_natAbs_of_nonpos h.le, BitVec.ofInt_neg, BitVec.ofInt_toInt]
    next h => rw [Int.natAbs_of_nonneg (not_lt.1 h), BitVec.ofInt_toInt]
  have hneg : BitVec.ofNat 32 (wrapN 32 (-a.toInt)) = -a := by rw [ofNat_wrapN, BitVec.ofInt_neg, BitVec.ofInt_toInt]
  simp only [absNeg, apply_ite (BitVec.ofNat 32), si32_toNat, habs, hneg, BitVec.toNat_eq_nat]
  simp

/-- LOP (R100). -/
theorem logic_eq (fn : BitVec 4) (a b : Word) : logic fn.toNat a b =
    if fn = 0 then a &&& b else if fn = 1 then a ||| b else if fn = 2 then a ^^^ b else if fn = 3 then a &&& ~~~b
    else if fn = 4 then a ||| ~~~b else if fn = 5 then ~~~(a ^^^ b) else ~~~a := by
  simp only [← BitVec.toNat_inj (x := fn)]
  change _ = if fn.toNat = 0 then _ else if fn.toNat = 1 then _ else if fn.toNat = 2 then _ else if fn.toNat = 3 then _
    else if fn.toNat = 4 then _ else if fn.toNat = 5 then _ else _
  unfold logic
  split <;> simp_all

/-! ### Words by their bits -/

theorem ofBits_succ (n : ℕ) (g : ℕ → Bool) : ofBits (n + 1) g = if g n then ofBits n g + 2 ^ n else ofBits n g := by
  simp [ofBits, List.range_succ]

theorem ofBits_lt (n : ℕ) (g : ℕ → Bool) : ofBits n g < 2 ^ n := by
  induction n with
  | zero => simp [ofBits]
  | succ n ih =>
    rw [ofBits_succ, pow_succ]
    split <;> omega

theorem testBit_ofBits (n : ℕ) (g : ℕ → Bool) (j : ℕ) : (ofBits n g).testBit j = (decide (j < n) && g j) := by
  induction n with
  | zero => simp [ofBits]
  | succ n ih =>
    have hlt := ofBits_lt n g
    rw [ofBits_succ]
    rcases lt_trichotomy j n with h | rfl | h
    · split
      · rw [Nat.add_comm, Nat.testBit_two_pow_add_gt h, ih]
        simp [h, h.trans (Nat.lt_succ_self n)]
      · rw [ih]
        simp [h, h.trans (Nat.lt_succ_self n)]
    · split
      next hg => simp [Nat.add_comm, Nat.testBit_two_pow_add_eq, Nat.testBit_lt_two_pow hlt, hg]
      next hg => simp [Nat.testBit_lt_two_pow hlt, hg]
    · have h2 : 2 ^ (n + 1) ≤ 2 ^ j := Nat.pow_le_pow_right two_pos h
      rw [pow_succ] at h2
      rw [Nat.testBit_lt_two_pow (by split <;> omega)]
      simp; omega

theorem getLsbD_bits32 (g : ℕ → Bool) (j : ℕ) : (Spec.bits32 g).getLsbD j = (decide (j < 32) && g j) := by
  rw [Spec.bits32, BitVec.getLsbD_ofFnLE]
  split <;> simp [*]

theorem ofNat_ofBits {g g' : ℕ → Bool} (h : ∀ j < 32, g j = g' j) : BitVec.ofNat 32 (ofBits 32 g) = Spec.bits32 g' := by
  apply BitVec.eq_of_getLsbD_eq
  intro j hj
  rw [BitVec.getLsbD_ofNat, testBit_ofBits, getLsbD_bits32, h j hj]
  simp [hj]

theorem testBit_bitsAt {w : ℕ} (x : BitVec w) (lo n j : ℕ) : (bitsAt x lo n).testBit j = (decide (j < n) && x.getLsbD (lo + j)) := by
  rw [bitsAt, Nat.testBit_mod_two_pow, Nat.testBit_shiftRight]
  rfl

/-- LOP3 (R100). -/
theorem ofNat_lop3 (mod : BitVec 20) (a b c : Word) : BitVec.ofNat 32 (lop3 (bitsAt mod 0 8) a.toNat b.toNat c.toNat) =
    Spec.bits32 (fun j => mod.getLsbD (4 * (if a.getLsbD j then 1 else 0) + 2 * (if b.getLsbD j then 1 else 0) +
      (if c.getLsbD j then 1 else 0))) := by
  refine ofNat_ofBits fun j _ => ?_
  simp only [BitVec.testBit_toNat]
  rw [testBit_bitsAt, Nat.zero_add, decide_eq_true (by split_ifs <;> omega), Bool.true_and]

/-- The position and the length of a bit field. -/
theorem toNat_fieldBytes (b : Word) :
    (b.extractLsb' 0 8).toNat = b.toNat % 256 ∧ (b.extractLsb' 8 8).toNat = b.toNat / 256 % 256 := by
  simp [Nat.shiftRight_eq_div_pow]

/-- BFX (R101). -/
theorem ofNat_bfx (signed : Bool) (a b : Word) : BitVec.ofNat 32 (bfx signed a.toNat b.toNat) =
    (let pos := (b.extractLsb' 0 8).toNat
     let len := min (b.extractLsb' 8 8).toNat 32
     let g (j : ℕ) : Bool := if pos + j < 32 then a.getLsbD (pos + j) else signed && a.msb
     if len = 0 then 0 else Spec.bits32 (fun j => if j < len then g j else signed && g (len - 1))) := by
  simp only [bfx, (toNat_fieldBytes b).1, (toNat_fieldBytes b).2, BitVec.msb_eq_getLsbD_last, BitVec.testBit_toNat]
  split
  · rfl
  · exact ofNat_ofBits fun j _ => rfl

/-- BFI (R101). -/
theorem ofNat_bfi (a b c : Word) : BitVec.ofNat 32 (bfi a.toNat b.toNat c.toNat) =
    (let pos := (b.extractLsb' 0 8).toNat
     let len := min (b.extractLsb' 8 8).toNat 32
     Spec.bits32 (fun i => if pos ≤ i ∧ i < pos + len then a.getLsbD (i - pos) else c.getLsbD i)) := by
  simp only [bfi, (toNat_fieldBytes b).1, (toNat_fieldBytes b).2, BitVec.testBit_toNat, Bool.and_eq_true, decide_eq_true_eq]
  exact ofNat_ofBits fun j _ => rfl

/-- BREV (R101). -/
theorem ofNat_brev (a : Word) : BitVec.ofNat 32 (ofBits 32 (fun j => a.toNat.testBit (31 - j))) =
    Spec.bits32 (fun j => a.getLsbD (31 - j)) := ofNat_ofBits fun _ _ => rfl

theorem popCount_eq_countP {w : ℕ} (x : BitVec w) (n : ℕ) :
    popCount x n = (List.range n).countP (fun j => x.getLsbD j) := by
  induction n with
  | zero => rfl
  | succ n ih => rw [popCount, ih, List.range_succ, List.countP_append, List.countP_singleton]

/-- POPC (R101). -/
theorem ofNat_popWord (a : Word) : BitVec.ofNat 32 (popWord a.toNat) =
    BitVec.ofNat 32 ((List.range 32).countP (fun j => a.getLsbD j)) := by
  rw [popWord, BitVec.ofNat_toNat, BitVec.setWidth_eq, popCount_eq_countP]

/-! ### Zero bits -/

theorem find_none_of_zero {a : Word} (h : a.toNat = 0) (g : ℕ → ℕ) :
    (List.range 32).find? (fun j => a.getLsbD (g j)) = none := by
  obtain rfl : a = 0#32 := BitVec.eq_of_toNat_eq h
  simp

/-- The first one bit from the top lies below the leading zeros. -/
theorem find_leading {a : Word} (h : a.toNat ≠ 0) :
    (List.range 32).find? (fun j => a.getLsbD (31 - j)) = some (31 - a.toNat.log2) := by
  have hlog : a.toNat.log2 < 32 := (Nat.log2_lt h).2 a.isLt
  rw [List.find?_range_eq_some]
  refine ⟨?_, List.mem_range.2 (by omega), fun j hj => ?_⟩
  · rw [show 31 - (31 - a.toNat.log2) = a.toNat.log2 by omega]
    exact Nat.testBit_log2 h
  · have : a.toNat < 2 ^ (31 - j) := (Nat.log2_lt h).1 (by omega)
    simpa [BitVec.testBit_toNat] using Nat.testBit_lt_two_pow this

/-- CLZ (R101). -/
theorem ofNat_zeroBits (fn : BitVec 4) (a : Word) : BitVec.ofNat 32 (zeroBits fn.toNat a.toNat) =
    if fn = 0 then Spec.firstBit (fun j => a.getLsbD (31 - j)) else Spec.firstBit (fun j => a.getLsbD j) := by
  have hfn : fn.toNat = 0 ↔ fn = 0 := by rw [BitVec.toNat_eq_nat]; simp
  by_cases h : a.toNat = 0
  · rw [zeroBits, if_pos h, Spec.firstBit, Spec.firstBit, find_none_of_zero h, find_none_of_zero h fun j => j, ite_self]
    rfl
  · simp only [zeroBits, h, hfn, if_false, apply_ite (BitVec.ofNat 32), Spec.firstBit, find_leading h, Option.getD_some]
    rfl

/-! ### Shifts and rotations -/

/-- SHL (R100). -/
theorem ofNat_shlWord (a b : Word) : BitVec.ofNat 32 (shlWord a.toNat b.toNat) = a <<< min b.toNat 32 := by
  apply BitVec.eq_of_toNat_eq
  rw [BitVec.toNat_ofNat, BitVec.toNat_shiftLeft, Nat.shiftLeft_eq, shlWord]
  split
  next h => rw [min_eq_left h.le, Nat.mod_mod]
  next h => rw [min_eq_right (not_lt.1 h), Nat.mul_mod_left]

/-- SHR (R100). -/
theorem ofNat_shrWord (fn : BitVec 4) (a b : Word) : BitVec.ofNat 32 (shrWord fn.toNat a.toNat b.toNat) =
    if fn = 0 then a >>> b.toNat else a.sshiftRight b.toNat := by
  have hfn : fn.toNat = 0 ↔ fn = 0 := by rw [BitVec.toNat_eq_nat]; simp
  rw [shrWord]
  simp only [hfn, apply_ite (BitVec.ofNat 32)]
  congr 1
  · apply BitVec.eq_of_toNat_eq
    rw [BitVec.toNat_ushiftRight, Nat.shiftRight_eq_div_pow]
    split
    next =>
      rw [BitVec.toNat_ofNat, Nat.mod_eq_of_lt]
      exact (Nat.div_le_self ..).trans_lt a.isLt
    next h =>
      have : 2 ^ 32 ≤ 2 ^ b.toNat := Nat.pow_le_pow_right two_pos (not_lt.1 h)
      rw [Nat.div_eq_of_lt (a.isLt.trans_le this)]
      rfl
  · rw [BitVec.sshiftRight_eq, Int.shiftRight_eq_div_pow, si32_toNat, ofNat_wrapN]
    split
    next => rfl
    next h =>
      have h32 : (2 : ℤ) ^ 32 ≤ 2 ^ b.toNat := pow_le_pow_right₀ one_le_two (not_lt.1 h)
      have hlo := BitVec.two_mul_toInt_lt (x := a)
      have hhi := BitVec.le_two_mul_toInt (x := a)
      rw [BitVec.testBit_toNat, ← BitVec.msb_eq_getLsbD_last (x := a), BitVec.msb_eq_toInt]
      by_cases hn : a.toInt < 0
      · rw [Int.ediv_eq_neg_one_of_neg_of_le hn (by push_cast; omega)]
        simp [hn]
      · rw [Int.ediv_eq_zero_of_lt (not_lt.1 hn) (by push_cast; omega)]
        simp [hn]

theorem toNat_or_of_lt {x y n : ℕ} (hy : y < 2 ^ n) : x * 2 ^ n ||| y = x * 2 ^ n + y := by
  rw [← Nat.shiftLeft_eq, Nat.shiftLeft_add_eq_or_of_lt hy]

/-- A rotation to the left moves the low bits up and the high ones down. -/
theorem rotl32_eq (a : Word) (n : ℕ) : BitVec.ofNat 32 (rotl32 a.toNat n) = a.rotateLeft n := by
  have hn : n % 32 < 32 := Nat.mod_lt _ (by norm_num)
  have ha := a.isLt
  apply BitVec.eq_of_toNat_eq
  rw [BitVec.toNat_rotateLeft, BitVec.toNat_ofNat, rotl32, Nat.mod_mod, Nat.shiftLeft_eq, Nat.shiftRight_eq_div_pow]
  have hp : 2 ^ 32 = 2 ^ (32 - n % 32) * 2 ^ (n % 32) := by rw [← pow_add]; congr 1; omega
  have hd : a.toNat / 2 ^ (32 - n % 32) < 2 ^ (n % 32) := Nat.div_lt_of_lt_mul (hp ▸ ha)
  have hm : a.toNat * 2 ^ (n % 32) % 2 ^ 32 = a.toNat % 2 ^ (32 - n % 32) * 2 ^ (n % 32) := by
    rw [hp, Nat.mul_mod_mul_right]
  have hlo : a.toNat % 2 ^ (32 - n % 32) + 1 ≤ 2 ^ (32 - n % 32) := Nat.mod_lt _ (by positivity)
  have hlt := Nat.mul_le_mul_right (2 ^ (n % 32)) hlo
  rw [← hp, Nat.add_mul] at hlt
  rw [← Nat.mod_add_mod, hm, toNat_or_of_lt hd, Nat.mod_eq_of_lt (by omega)]

/-- ROT (R100): to the right is to the left by the rest of the word. -/
theorem ofNat_rot (fn : BitVec 4) (a b : Word) :
    BitVec.ofNat 32 (rotl32 a.toNat (if fn = 0 then b.toNat % 32 else 32 - b.toNat % 32)) =
      if fn = 0 then a.rotateLeft (b.toNat % 32) else a.rotateRight (b.toNat % 32) := by
  rw [rotl32_eq]
  split
  · rfl
  · have hb : b.toNat % 32 < 32 := Nat.mod_lt _ (by norm_num)
    generalize b.toNat % 32 = n at *
    apply BitVec.eq_of_toNat_eq
    rw [BitVec.toNat_rotateLeft, BitVec.toNat_rotateRight, Nat.mod_eq_of_lt hb, Nat.or_comm]
    rcases Nat.eq_zero_or_pos n with rfl | hn
    · simp [Nat.shiftRight_eq_div_pow, Nat.div_eq_of_lt a.isLt, Nat.mod_eq_of_lt a.isLt, Nat.shiftLeft_eq]
    · rw [Nat.mod_eq_of_lt (by omega), Nat.sub_sub_self hb.le]

/-! ### Pairs of words -/

theorem toNat_append_eq {m n : ℕ} (x : BitVec m) (y : BitVec n) : (x ++ y).toNat = 2 ^ n * x.toNat + y.toNat := by
  rw [BitVec.toNat_append, Nat.shiftLeft_eq, toNat_or_of_lt y.isLt, Nat.mul_comm]

/-- SHF (R100). -/
theorem ofNat_funnel (fn : BitVec 4) (a b c : Word) : BitVec.ofNat 32 (funnel fn.toNat a.toNat b.toNat c.toNat) =
    if fn = 0 then (((b ++ a : DWord).zeroExtend 96) <<< min c.toNat 32).extractLsb' 32 32
    else ((b ++ a : DWord) >>> min c.toNat 32).extractLsb' 0 32 := by
  have hfn : fn.toNat = 0 ↔ fn = 0 := by rw [BitVec.toNat_eq_nat]; simp
  have hn : min c.toNat 32 ≤ 32 := min_le_right _ _
  have hv := toNat_append_eq b a
  have hlt := (b ++ a).isLt
  simp only [funnel, hfn, apply_ite (BitVec.ofNat 32), ← hv]
  generalize min c.toNat 32 = n at *
  congr 1
  · apply BitVec.eq_of_toNat_eq
    have h96 : (b ++ a).toNat * 2 ^ n < 2 ^ 96 := by
      calc (b ++ a).toNat * 2 ^ n < 2 ^ 64 * 2 ^ n := Nat.mul_lt_mul_of_pos_right hlt (by positivity)
        _ ≤ 2 ^ 64 * 2 ^ 32 := Nat.mul_le_mul_left _ (Nat.pow_le_pow_right two_pos hn)
        _ = 2 ^ 96 := by norm_num
    rw [BitVec.toNat_ofNat, Nat.mod_mod, BitVec.extractLsb'_toNat, BitVec.toNat_shiftLeft,
      BitVec.toNat_setWidth_of_le (by norm_num), Nat.shiftLeft_eq, Nat.mod_eq_of_lt h96, Nat.shiftRight_eq_div_pow]
  · apply BitVec.eq_of_toNat_eq
    rw [BitVec.toNat_ofNat, Nat.mod_mod, BitVec.extractLsb'_toNat, Nat.shiftRight_zero, BitVec.toNat_ushiftRight,
      Nat.shiftRight_eq_div_pow]

/-- A byte of PRMB by its selector. -/
theorem toNat_permByte (v : DWord) (c : Word) (i : ℕ) :
    (let s := c.extractLsb' (4 * i) 4
     let x := v.extractLsb' (8 * (s.extractLsb' 0 3).toNat) 8
     if s.msb then (if x.msb then 0xFF#8 else 0#8) else x).toNat =
    (let sel := c.toNat / 2 ^ (4 * i) % 16
     let y := v.toNat / 2 ^ (8 * (sel % 8)) % 256
     if 8 ≤ sel then (if 128 ≤ y then 0xFF else 0) else y) := by
  simp only [BitVec.msb_eq_decide, decide_eq_true_eq, apply_ite BitVec.toNat, BitVec.extractLsb'_toNat, Nat.shiftRight_eq_div_pow]
  simp

/-- PRMB (R101). -/
theorem ofNat_permBytes (a b c : Word) : BitVec.ofNat 32 (permBytes a.toNat b.toNat c.toNat) =
    (let v : DWord := b ++ a
     let y (i : Nat) : Byte :=
      let s := c.extractLsb' (4 * i) 4
      let x := v.extractLsb' (8 * (s.extractLsb' 0 3).toNat) 8
      if s.msb then (if x.msb then 0xFF#8 else 0#8) else x
     y 3 ++ y 2 ++ y 1 ++ y 0) := by
  have hy := toNat_permByte (b ++ a) c
  have hv := toNat_append_eq b a
  rw [hv] at hy
  dsimp only at hy ⊢
  rw [permBytes]
  simp only [← hy]
  apply BitVec.eq_of_toNat_eq
  rw [BitVec.toNat_ofNat, toNat_append_eq, toNat_append_eq, toNat_append_eq]
  omega

/-! ### Sums of products, addresses and hashes -/

theorem sx_extract (x n lo : ℕ) (hn : 0 < n) (y : Word) (hy : x = y.toNat / 2 ^ lo) : sx n x = (y.extractLsb' lo n).toInt := by
  rw [← sx_toNat hn, BitVec.extractLsb'_toNat, Nat.shiftRight_eq_div_pow, ← hy]
  simp [sx]

/-- IDP4 (R100). -/
theorem ofNat_dot4 (fn : BitVec 4) (a b c : Word) : BitVec.ofNat 32 (dot4 (fn = 0) a.toNat b.toNat c.toNat) =
    (let byte (x : Word) (i : ℕ) : Word :=
      if fn = 0 then (x.extractLsb' (8 * i) 8).signExtend 32 else (x.extractLsb' (8 * i) 8).zeroExtend 32
     c + byte a 0 * byte b 0 + byte a 1 * byte b 1 + byte a 2 * byte b 2 + byte a 3 * byte b 3) := by
  have hbyte (x : Word) (i : ℕ) : BitVec.ofInt 32
      (if fn = 0 then sx 8 (x.toNat / 2 ^ (8 * i)) else ((x.toNat / 2 ^ (8 * i) % 256 : ℕ) : ℤ)) =
      if fn = 0 then (x.extractLsb' (8 * i) 8).signExtend 32 else (x.extractLsb' (8 * i) 8).zeroExtend 32 := by
    split
    · rw [sx_extract _ 8 (8 * i) (by norm_num) x rfl, signExtend_eq_ofInt (by norm_num)]
    · rw [BitVec.ofInt_natCast, zeroExtend_eq_ofNat (by norm_num), BitVec.extractLsb'_toNat, Nat.shiftRight_eq_div_pow]
  have hr : List.range 4 = [0, 1, 2, 3] := rfl
  simp only [dot4, decide_eq_true_eq, ofNat_wrapN, hr, List.foldl_cons, List.foldl_nil, BitVec.ofInt_add,
    BitVec.ofInt_mul, ofInt_toNat, hbyte]

theorem shiftLeft_eq_mul {w : ℕ} (x : BitVec w) (n : ℕ) : x <<< n = x * BitVec.ofNat w (2 ^ n) := by
  apply BitVec.eq_of_toNat_eq
  rw [BitVec.toNat_shiftLeft, BitVec.toNat_mul, BitVec.toNat_ofNat, Nat.mul_mod_mod, Nat.shiftLeft_eq]

/-- LEA (R100). -/
theorem ofNat_lea (a b : Word) (n : ℕ) : BitVec.ofNat 32 ((a.toNat + b.toNat * 2 ^ n) % 2 ^ 32) = a + b <<< n := by
  rw [shiftLeft_eq_mul]
  apply BitVec.eq_of_toNat_eq
  simp [BitVec.toNat_add, BitVec.toNat_mul]

/-- LEA64 (R100). -/
theorem ofNat_lea64 (a : DWord) (b : Word) (signed : Bool) (n : ℕ) :
    BitVec.ofNat 64 (wrapN 64 (a.toNat + (if signed then si32 b.toNat else b.toNat) * (2 ^ n : ℕ))) =
      a + (if signed then b.signExtend 64 else b.zeroExtend 64) <<< n := by
  rw [ofNat_wrapN, BitVec.ofInt_add, BitVec.ofInt_mul, ofInt_toNat, BitVec.ofInt_natCast, shiftLeft_eq_mul, si32_toNat]
  congr 2
  cases signed
  · simp only [Bool.false_eq_true, if_false]
    rw [BitVec.ofInt_natCast, zeroExtend_eq_ofNat (by norm_num)]
  · simp only [if_true]
    rw [signExtend_eq_ofInt (by norm_num)]

theorem rotl32_lt (a n : ℕ) : rotl32 a n < 2 ^ 32 := Nat.mod_lt _ (by norm_num)

/-- MIX.comb (R103). -/
theorem toNat_comb (h x : Word) : (Spec.comb h x).toNat = mixComb h.toNat x.toNat := by
  rw [Spec.comb, ← rotl32_eq, BitVec.toNat_ofNat, Nat.mod_eq_of_lt (rotl32_lt _ _), Num.toNat_mul_const, BitVec.toNat_xor, mixComb]
  rfl

theorem ofNat_comb (h x : Word) : BitVec.ofNat 32 (mixComb h.toNat x.toNat) = Spec.comb h x := by
  rw [← toNat_comb, BitVec.ofNat_toNat, BitVec.setWidth_eq]

/-- MIX.h32 of one to three sources (R103). -/
theorem ofNat_mixH32 (a b c : Word) {n : ℕ} (hn : n ≠ 0) (hn' : n < 4) :
    BitVec.ofNat 32 (mixH32 ([a.toNat, b.toNat, c.toNat].take n)) =
      (let h := Spec.comb 0 a
       let h := if 2 ≤ n then Spec.comb h b else h
       let h := if 3 ≤ n then Spec.comb h c else h
       h ^^^ (h >>> 16)) := by
  have h0 : mixComb 0 a.toNat = (Spec.comb 0 a).toNat := (toNat_comb 0 a).symm
  have hfinal (h : Word) : BitVec.ofNat 32 (Nat.xor h.toNat (h.toNat / 2 ^ 16)) = h ^^^ (h >>> 16) := by
    rw [← Num.toNat_xor_shift, BitVec.ofNat_toNat, BitVec.setWidth_eq]
  obtain rfl | rfl | rfl : n = 1 ∨ n = 2 ∨ n = 3 := by omega
  · simp only [mixH32, List.take, List.foldl, h0, hfinal]
    rfl
  · simp only [mixH32, List.take, List.foldl, h0, ← toNat_comb, hfinal]
    rfl
  · simp only [mixH32, List.take, List.foldl, h0, ← toNat_comb, hfinal]
    rfl

/-- MIX (R103). -/
theorem ofNat_mix (fn : BitVec 4) (a b c : Word) {n : ℕ} (hok : fn = 1 ∨ n ≠ 0) (hn : n < 4) :
    BitVec.ofNat 32 (if fn = 1 then mixComb a.toNat b.toNat else mixH32 ([a.toNat, b.toNat, c.toNat].take n)) =
      (if fn = 1 then Spec.comb a b
       else
        let h := Spec.comb 0 a
        let h := if 2 ≤ n then Spec.comb h b else h
        let h := if 3 ≤ n then Spec.comb h c else h
        h ^^^ (h >>> 16)) := by
  split
  next => exact ofNat_comb a b
  next h => exact ofNat_mixH32 a b c (hok.resolve_left h) hn

/-- RAND (R113). -/
theorem ofNat_rand32 (a b key : Word) : BitVec.ofNat 32 (Num.rand32 a.toNat b.toNat key.toNat) = Spec.randWord a b key := by
  rw [← Num.toNat_randWord]
  simp

/-! ### Quotients -/

/-- The signed quotient and remainder; the one quotient that is no word wraps. -/
theorem sdiv_srem_eq (a b : Word) : a.sdiv b = BitVec.ofInt 32 (a.toInt.tdiv b.toInt) ∧
    a.srem b = BitVec.ofInt 32 (a.toInt.tmod b.toInt) :=
  ⟨BitVec.eq_of_toInt_eq (by rw [BitVec.toInt_sdiv, BitVec.toInt_ofInt]),
    by rw [← BitVec.toInt_srem, BitVec.ofInt_toInt]⟩

/-- IDIV, signed (R102). -/
theorem ofNat_idiv_signed (a b : Word) :
    BitVec.ofNat 32 (idivPair true a.toNat b.toNat).1 = (if b = 0 then BitVec.allOnes 32 else a.sdiv b) ∧
      BitVec.ofNat 32 (idivPair true a.toNat b.toNat).2 = if b = 0 then a else a.srem b := by
  have hb : b.toNat = 0 ↔ b = 0#32 := by simp [BitVec.toNat_eq_nat]
  obtain ⟨hq, hr⟩ := sdiv_srem_eq a b
  rw [idivPair, hq, hr]
  by_cases h0 : b = 0#32
  · simp [h0]
  · by_cases h1 : a.toInt = -2147483648 ∧ b.toInt = -1
    · simp [h0, hb, si32_toNat, h1]
    · simp [h0, hb, si32_toNat, h1, ofNat_wrapN]

/-- IDIV, unsigned (R102). -/
theorem ofNat_idiv_unsigned (a b : Word) :
    BitVec.ofNat 32 (idivPair false a.toNat b.toNat).1 = (if b = 0 then BitVec.allOnes 32 else a / b) ∧
      BitVec.ofNat 32 (idivPair false a.toNat b.toNat).2 = if b = 0 then a else a % b := by
  have hb : b.toNat = 0 ↔ b = 0#32 := by simp [BitVec.toNat_eq_nat]
  have hq : BitVec.ofNat 32 (a.toNat / b.toNat) = a / b := by rw [← BitVec.toNat_udiv, BitVec.ofNat_toNat, BitVec.setWidth_eq]
  have hr : BitVec.ofNat 32 (a.toNat % b.toNat) = a % b := by rw [← BitVec.toNat_umod, BitVec.ofNat_toNat, BitVec.setWidth_eq]
  rw [idivPair]
  by_cases h0 : b = 0#32
  · simp [h0]
  · simp [h0, hb, hq, hr]

end Sys2Proof.Machine
end

section
/-! PROOFS. The integer, logical and bit-field instructions (05_isa_arithmetic.md R99 to R103): what an issue of each leaves. -/

namespace Sys2Proof.Machine
open Sys2Proof

/-! ### Issues -/

/-- An issue whose effect leaves `d`. -/
theorem issued_of_act {s : State} {i : Instr} {c d : Cx} {f : Fields} {act : Act} (hf : i.fields = some f)
    (hex : exec i s = issue i act s) (h : i.wf = true → c.f = f → act c = .ok d) : Spec.Issued s i c d := by
  intro hi
  obtain ⟨hw, ho, -⟩ := id hi
  obtain ⟨-, hcf, -⟩ := openCx_spec ho
  rw [hex, issue_after hi (h hw (Option.some.inj (hcf.symm.trans hf)))]

theorem resultN_congr (c : Cx) {n : ℕ} {g g' : ℕ → ℕ → Word} (h : ∀ l, ∀ o < n, g l o = g' l o) :
    c.resultN n g = c.resultN n g' := by
  rw [Cx.resultN, valsOf_congr fun l _ => h l]
  rfl

/-- The two words of a 64-bit result. -/
theorem resultBits_pair (c : Cx) {x : ℕ → ℕ} {val : ℕ → DWord} (h : ∀ l, BitVec.ofNat 64 (x l) = val l) :
    c.resultBits 64 x = c.resultN 2 (fun l o => (val l).extractLsb' (32 * o) 32) := by
  refine resultN_congr c fun l o ho => ?_
  apply BitVec.eq_of_toNat_eq
  rw [← h, BitVec.extractLsb'_toNat, BitVec.toNat_ofNat, BitVec.toNat_ofNat, Nat.shiftRight_eq_div_pow]
  obtain rfl | rfl : o = 0 ∨ o = 1 := by omega
  · simp
  · omega

section
variable {s : State} {i : Instr} {c : Cx} {f : Fields} {lat : ℕ} (hf : i.fields = some f)
include hf

/-- A fixed-latency instruction that computes D. -/
theorem issued_fixed {r : Cx → Result} {r' : Result} (hex : exec i s = issue i (fixedAct lat r) s)
    (h : i.wf = true → c.f = f → r c = r') : Spec.Issued s i c (c.fixed lat true 0 r') :=
  issued_of_act hf hex fun hw hc => by rw [fixedAct, h hw hc]

/-- One that writes a word of D in each lane. -/
theorem issued_word {x : Cx → ℕ → ℕ} {val : ℕ → Word} (hex : exec i s = issue i (fixedAct lat (fun c => c.result32 (x c))) s)
    (h : i.wf = true → c.f = f → ∀ l, BitVec.ofNat 32 (x c l) = val l) : Spec.Issued s i c (writes32 c lat val) :=
  issued_fixed hf hex fun hw hc => by simp only [Cx.result32, h hw hc]

/-- One that writes two words of D in each lane. -/
theorem issued_pair {x : Cx → ℕ → ℕ} {val : ℕ → DWord}
    (hex : exec i s = issue i (fixedAct lat (fun c => c.resultBits 64 (x c))) s)
    (h : i.wf = true → c.f = f → ∀ l, BitVec.ofNat 64 (x c l) = val l) : Spec.Issued s i c (writes64 c lat val) :=
  issued_fixed hf hex fun hw hc => resultBits_pair c (h hw hc)

end

/-- The words of a 64-bit operand, the low word first. -/
theorem rd64_word (c : Cx) (o : Operand) (l : ℕ) {k : ℕ} (hk : k < 2) : (c.rd64 o l).extractLsb' (32 * k) 32 = c.rd o k l := by
  obtain rfl | rfl : k = 0 ∨ k = 1 := by omega
  · exact BitVec.extractLsb'_append_eq_right
  · exact BitVec.extractLsb'_append_eq_left

/-! ### The carry forms -/

/-- The sum or difference of the operands and the carry in. -/
def carrySum (w : CForm) (c : Cx) (sign : ℤ) (l : ℕ) : ℤ :=
  (c.rd w.a 0 l).toNat + sign * (c.rd w.b 0 l).toNat + sign * Spec.carryIn w c l

section
variable {c : Cx} {w : CForm} (hc : c.f = w.fields) (sign : ℤ)
include hc

theorem actAddSub_carry {val : ℕ → Word} {carry : ℕ → Bool} (h3 : w.fn = 3)
    (hval : ∀ l, BitVec.ofInt 32 (carrySum w c sign l) = val l)
    (hcarry : ∀ l, decide (carrySum w c sign l < 0 ∨ (2 : ℤ) ^ 32 ≤ carrySum w c sign l) = carry l) :
    actAddSub sign c = .ok (Spec.withCarry w c val carry) := by
  have hcin (l : ℕ) : (if (w.mod.getLsbD 3 && (c.w.pred (bitsAt w.mod 0 3)).getLsbD l) = true then (1 : ℤ) else 0) =
      Spec.carryIn w c l := by
    simp only [Laws.Named.bitsAt_eq_extract, Spec.carryIn, Bool.and_eq_true]
    split <;> rfl
  have hsum (l : ℕ) : ((c.rd32 w.a l : ℤ) + sign * c.rd32 w.b l + sign *
      (if (w.mod.getLsbD 3 && (c.w.pred (bitsAt w.mod 0 3)).getLsbD l) = true then (1 : ℤ) else 0)) = carrySum w c sign l := by
    rw [hcin]
    rfl
  have hfn : w.fn.toNat = 3 := by rw [h3]; rfl
  simp only [actAddSub, fixedAct, hc, CForm.fields, hfn, if_true, hsum, Spec.withCarry, Cx.result32, ofNat_wrapN, hval, hcarry]
  rw [Laws.Named.bitsAt_eq_extract]
  split <;> rfl

theorem actAddSub_plain {val : ℕ → Word} (h3 : w.fn ≠ 3)
    (hval : ∀ l, BitVec.ofNat 32 (addSub 32 w.fn.toNat sign (c.rd w.a 0 l).toNat (c.rd w.b 0 l).toNat) = val l) :
    actAddSub sign c = .ok (writes32 c 1 val) := by
  have hfn : w.fn.toNat ≠ 3 := by rw [Ne, BitVec.toNat_eq_nat]; simpa using h3
  simp only [actAddSub, fixedAct, hc, CForm.fields, hfn, if_false, writes32, Cx.result32, Cx.rd32, hval]

end

theorem carryIn_le (w : CForm) (c : Cx) (l : ℕ) : Spec.carryIn w c l ≤ 1 := by
  rw [Spec.carryIn]
  split <;> omega

section
variable (s : State) (c : Cx) (w : CForm)

theorem issued_iadd : Spec.Issued s (.iadd w) c (Spec.iadd w c) := by
  refine issued_of_act rfl rfl fun _ hc => ?_
  by_cases h3 : w.fn = 3
  · have hle := carryIn_le w c
    rw [Spec.iadd, if_neg (by rw [h3]; decide), if_neg (by rw [h3]; decide), if_pos h3]
    refine actAddSub_carry hc 1 h3 (fun l => ?_) fun l => ?_
    · simp only [carrySum, one_mul, BitVec.ofInt_add, BitVec.ofInt_natCast, BitVec.ofNat_toNat, BitVec.setWidth_eq]
    · have := hle l
      simp only [carrySum, one_mul, decide_eq_decide]
      omega
  · rw [actAddSub_plain hc 1 h3 fun l => ofNat_add (by norm_num) w.fn _ _, Spec.iadd]
    split_ifs <;> rfl

theorem issued_isub : Spec.Issued s (.isub w) c (Spec.isub w c) := by
  refine issued_of_act rfl rfl fun _ hc => ?_
  by_cases h3 : w.fn = 3
  · rw [Spec.isub, if_neg (by rw [h3]; decide), if_neg (by rw [h3]; decide), if_pos h3]
    refine actAddSub_carry hc (-1) h3 (fun l => ?_) fun l => ?_
    · simp only [carrySum, neg_one_mul, ← Int.sub_eq_add_neg, ofInt_sub, BitVec.ofInt_natCast, BitVec.ofNat_toNat,
        BitVec.setWidth_eq]
    · have := (c.rd w.a 0 l).isLt
      simp only [carrySum, neg_one_mul, decide_eq_decide]
      omega
  · rw [actAddSub_plain hc (-1) h3 fun l => ofNat_sub w.fn _ _, Spec.isub]
    split_ifs <;> rfl

end

section
variable (s : State) (c : Cx)

/-- MOVI's sign extension (R100). -/
theorem issued_movi (v : IForm) : Spec.Issued s (.movi v) c (Spec.movi v c) := by
  refine issued_of_act rfl rfl fun _ hc => ?_
  have hpair (l : ℕ) : BitVec.ofNat 64 (wrapN 64 (si32 v.imm.toNat)) = v.imm.signExtend 64 := by
    rw [ofNat_wrapN, si32_toNat, signExtend_eq_ofInt (by norm_num)]
  simp only [actMovi, fixedAct, hc, IForm.fields, Spec.movi]
  by_cases h : v.fn = 1
  · rw [if_pos h, if_pos h, writes64, resultBits_pair c hpair]
  · rw [if_neg h, if_neg h, writes32, Cx.result32, BitVec.ofNat_toNat, BitVec.setWidth_eq]

theorem issued_mov (w : CForm) : Spec.Issued s (.mov w) c (Spec.mov w c) :=
  issued_fixed rfl rfl fun _ hc => by
    have hn : movBits w.fn / 32 = if w.fn = 2 then 4 else if w.fn = 1 then 2 else 1 := by
      rw [movBits]
      split_ifs <;> rfl
    rw [hc, ← hn]
    rfl

/-- SEL of one or two words (R100). -/
theorem issued_sel (w : CForm) : Spec.Issued s (.sel w) c (Spec.sel w c) := by
  refine issued_of_act rfl rfl fun _ hc => ?_
  have hsrc (l : ℕ) : (if ((c.w.pred (bitsAt w.mod 0 3)).getLsbD l != w.mod.getLsbD 3) = true then w.a else w.b) =
      if (c.w.pred (w.mod.extractLsb' 0 3).toNat).getLsbD l = w.mod.getLsbD 3 then w.b else w.a := by
    simp only [Laws.Named.bitsAt_eq_extract, bne_iff_ne, ne_eq, ite_not]
  simp only [actSel, fixedAct, hc, CForm.fields, selBits, hsrc, Spec.sel]
  by_cases h : w.mod.getLsbD 4 = true
  · rw [if_pos h, if_pos h, writes64, ← resultN_congr c fun l o ho => (rd64_word c _ l ho).symm]
  · rw [if_neg h, if_neg h, writes32]
    congr 2

/-- MIX (R103). -/
theorem issued_mix (w : CForm) : Spec.Issued s (.mix w) c (Spec.mix w c) :=
  issued_word rfl rfl fun hw hc l => by
    obtain ⟨hok, -⟩ := shape_ok_of_wf hw rfl rfl
    simp only [decide_eq_true_eq, Laws.Named.bitsAt_eq_extract] at hok
    rw [hc, Laws.Named.bitsAt_eq_extract]
    exact ofNat_mix w.fn _ _ _ hok (BitVec.isLt _)

end

/-- Settles O27: each result is the operation of R100 to R103 on the words that it reads. -/
theorem integerInstructions : Obligations.IntegerInstructions := fun s c z w v =>
  ⟨issued_of_act (f := z.fields) rfl rfl fun _ _ => rfl, issued_iadd s c w, issued_isub s c w,
    issued_word rfl rfl fun _ hc l => by rw [hc]; exact ofNat_mulWord ..,
    issued_word rfl rfl fun _ hc l => by rw [hc]; exact ofNat_madWord ..,
    issued_pair rfl rfl fun _ hc l => by rw [hc]; exact ofNat_madw ..,
    issued_word rfl rfl fun _ hc l => by rw [hc]; exact ofNat_minMax ..,
    issued_word rfl rfl fun _ hc l => by rw [hc]; exact ofNat_absNeg ..,
    issued_pair rfl rfl fun _ hc l => by rw [hc]; exact ofNat_add (by norm_num) ..,
    issued_word rfl rfl fun _ hc l => by rw [hc, Laws.Named.bitsAt_eq_extract]; exact ofNat_lea ..,
    issued_pair rfl rfl fun _ hc l => by rw [hc, Laws.Named.bitsAt_eq_extract]; exact ofNat_lea64 ..,
    issued_mov s c w, issued_movi s c v, issued_sel s c w,
    issued_word rfl rfl fun _ hc l => by rw [hc]; exact ofNat_dot4 ..,
    issued_mix s c w⟩

/-- The FN value of a well-formed word is one that its opcode lists. -/
theorem fn_mem_of_wf {i : Instr} {op : ℕ} {ns : List ℕ} {f : Fields} (h : i.wf = true) (ho : i.op = some (op, ns))
    (hf : i.fields = some f) : f.fn.toNat ∈ ns := by
  have h := ((wf_iff i).1 h).1
  simpa only [Instr.fnOk, ho, hf, List.contains_iff_mem] using h

/-- IDIV's result word by FN (R102). -/
theorem ofNat_idiv {fn : BitVec 4} (hfn : fn.toNat < 4) (a b : Word) :
    BitVec.ofNat 32 (if fn.toNat < 2 then (idivPair (fn.toNat % 2 = 0) a.toNat b.toNat).1
      else (idivPair (fn.toNat % 2 = 0) a.toNat b.toNat).2) =
      if fn = 0 then (if b = 0 then BitVec.allOnes 32 else a.sdiv b)
      else if fn = 1 then (if b = 0 then BitVec.allOnes 32 else a / b)
      else if fn = 2 then (if b = 0 then a else a.srem b)
      else if b = 0 then a else a % b := by
  obtain ⟨hsq, hsr⟩ := ofNat_idiv_signed a b
  obtain ⟨huq, hur⟩ := ofNat_idiv_unsigned a b
  obtain h | h | h | h : fn = 0 ∨ fn = 1 ∨ fn = 2 ∨ fn = 3 := by
    simp only [← BitVec.toNat_inj]
    change fn.toNat = 0 ∨ fn.toNat = 1 ∨ fn.toNat = 2 ∨ fn.toNat = 3
    omega
  · subst h; exact hsq
  · subst h; exact huq
  · subst h; exact hsr
  · subst h; exact hur

theorem excCause_zero (mode : Word) : excCause mode 0 = none := by
  simp [excCause]

/-- A variable-latency instruction of the warp that raises nothing starts its operation. -/
theorem varExcAct_quiet {c : Cx} {r : Cx → Result} (h : (r c).flags = 0) (exc : Cx → List (ℕ × Num.Exc)) :
    varExcAct r exc c = .ok (c.start none (.result (r c))) := by
  rw [varExcAct]
  split
  next h0 => rw [Cx.start, if_pos h0]
  next => simp only [h, excCause_zero]

theorem issued_idiv (s : State) (c : Cx) (w : CForm) : Spec.Issued s (.idiv w) c (Spec.idiv w c) :=
  issued_of_act rfl rfl fun hw hc => by
    have hfn : w.fn.toNat < 4 := by
      have hmem : w.fn.toNat ∈ [0, 1, 2, 3] := fn_mem_of_wf hw rfl rfl
      simp only [List.mem_cons, List.not_mem_nil, or_false] at hmem
      omega
    rw [actIdiv, varExcAct_quiet rfl, hc, Spec.idiv]
    simp only [Cx.result32]
    exact congrArg (fun g => Except.ok (c.start none (.result (c.resultN 1 g))))
      (funext₂ fun l _ => ofNat_idiv hfn (c.rd w.a 0 l) (c.rd w.b 0 l))

/-- Settles O28: each result is the operation of R100 to R102 on the words that it reads; IDIV starts the operation that writes it. -/
theorem bitInstructions : Obligations.BitInstructions := fun s c w =>
  ⟨issued_fixed rfl rfl fun _ hc => by rw [hc]; exact congrArg _ (funext₂ fun l _ => logic_eq ..),
    issued_word rfl rfl fun _ hc l => by rw [hc]; exact ofNat_lop3 ..,
    issued_word rfl rfl fun _ hc l => by rw [hc]; exact ofNat_shlWord ..,
    issued_word rfl rfl fun _ hc l => by rw [hc]; exact ofNat_shrWord ..,
    issued_word rfl rfl fun _ hc l => by rw [hc]; exact ofNat_rot ..,
    issued_word rfl rfl fun _ hc l => by rw [hc]; exact ofNat_funnel ..,
    issued_word rfl rfl fun _ hc l => by rw [hc]; exact ofNat_bfx ..,
    issued_word rfl rfl fun _ hc l => by rw [hc]; exact ofNat_bfi ..,
    issued_word rfl rfl fun _ hc l => by rw [hc]; exact ofNat_popWord ..,
    issued_word rfl rfl fun _ hc l => by rw [hc]; exact ofNat_zeroBits ..,
    issued_word rfl rfl fun _ hc l => by rw [hc]; exact ofNat_brev ..,
    issued_word rfl rfl fun _ hc l => by rw [hc]; exact ofNat_permBytes ..,
    issued_idiv s c w⟩

end Sys2Proof.Machine
end

section
/-! PROOFS. The fixed-latency floating-point instructions and the conversions (05_isa_arithmetic.md R104, R105, R107 to R114,
04_numbers.md R88): the fields that each reads, and result or precise trap by the exceptions raised. -/

namespace Sys2Proof.Machine
open Sys2Proof

/-! ### Issues that may raise exceptions -/

theorem fixedExc_of_act {s : State} {i : Instr} {c : Cx} {f : Fields} {act : Act} {lat : ℕ} {latch : Bool} {r : Result}
    (hf : i.fields = some f) (hex : exec i s = issue i act s) (h : c.f = f → act c = fixedExcAct lat latch (fun _ => r) c) :
    Spec.FixedExc s i c lat latch r := by
  intro hi
  obtain ⟨-, ho, -⟩ := id hi
  obtain ⟨-, hcf, -⟩ := openCx_spec ho
  have ha := h (Option.some.inj (hcf.symm.trans hf))
  rw [hex]
  cases hx : excCause c.mode r.flags with
  | none => exact issue_after hi (by simp only [ha, fixedExcAct, hx])
  | some k => exact issue_trap hi (by simp only [ha, fixedExcAct, hx])

/-! ### The fixed-latency floating-point instructions -/

theorem fpElems_eq_two (fn : BitVec 4) : fpElems fn.toNat = 2 ↔ fn = 1 ∨ fn = 2 := by
  rw [fpElems]
  simp only [BitVec.toNat_eq_nat, BitVec.ofNat_eq_ofNat]
  split_ifs with h
  · simpa using h
  · simpa using h

/-- FSCL's exponent as the model reads it. -/
theorem fsclBy_eq (w : CForm) (c : Cx) (l i : ℕ) :
    (if fpElems w.fn.toNat = 2 then sx 16 (elemOf 16 i (c.rd32 w.b l)) else sx 32 (c.rd32 w.b l)) = Spec.fsclBy w c l i := by
  have helem : sx 16 (elemOf 16 i (c.rd w.b 0 l).toNat) = sx 16 ((c.rd w.b 0 l).toNat / 2 ^ (16 * i)) := by
    rw [sx, sx, elemOf, Nat.mod_mod]
  rw [Spec.fsclBy, Cx.rd32, helem, sx_extract _ 16 (16 * i) (by norm_num) (c.rd w.b 0 l) rfl, sx_toNat (by norm_num)]
  simp only [fpElems_eq_two]

section
variable {s : State} {i : Instr} {c : Cx} {w : CForm}

theorem fixedExc_fp (srcs : Fields → List Operand) (rand : Fields → Operand)
    {g : Num.Fmt → Num.Rnd → ℕ → ℕ → List Num.Val → ℕ × Num.Exc} (hf : i.fields = some w.fields)
    (hex : exec i s = issue i (fpAct srcs rand g) s) :
    Spec.FixedExc s i c (fpLat w.fn) true (Spec.floatResult c w.fn (srcs w.fields) (rand w.fields) g) :=
  fixedExc_of_act hf hex fun hc => by
    rw [fpAct, hc]
    simp only [fixedExcAct, hc]
    rfl

theorem fixedExc_fscl : Spec.FixedExc s (.fscl w) c (fpLat w.fn) true
    (Spec.floatResult c w.fn [w.a] w.c (fun f k l i vs => fscl f k (Spec.fsclBy w c l i) vs)) :=
  fixedExc_of_act rfl rfl fun hc => by
    simp only [actFscl, fpAct, fixedExcAct, hc, CForm.fields, fsclBy_eq]
    rfl

theorem fixedExc_fdot2 : Spec.FixedExc s (.fdot2 w) c 4 true (Spec.fdot2 w c) :=
  fixedExc_of_act rfl rfl fun hc => by
    simp only [actFdot2, fixedExcAct, hc]
    rfl

theorem fixedExc_fxtr : Spec.FixedExc s (.fxtr w) c (fpLat w.fn) true (Spec.fxtrResult w c) :=
  fixedExc_of_act rfl rfl fun hc => by
    simp only [actFxtr, fixedExcAct, hc]
    rfl

theorem fixedExc_fcls : Spec.FixedExc s (.fcls w) c (fpLat w.fn) true (Spec.fclsResult w c) :=
  fixedExc_of_act rfl rfl fun hc => by
    simp only [actFcls, fixedExcAct, hc]
    rfl

end

/-- Settles O29: the result is computed from the operands that the form names, and its flags decide between result and trap. -/
theorem floatInstructions : Obligations.FloatInstructions := fun _ _ _ =>
  ⟨fixedExc_fp srcAB (·.c) rfl rfl, fixedExc_fp srcAB (·.c) rfl rfl, fixedExc_fp srcABC (·.d) rfl rfl,
    fixedExc_fp srcAB (·.c) rfl rfl, fixedExc_fp srcAB (·.c) rfl rfl, fixedExc_fp srcA (·.c) rfl rfl, fixedExc_fscl,
    fixedExc_fdot2, fixedExc_fxtr, fixedExc_fcls⟩

/-! ### Conversions -/

theorem intMin_le_intMax (t : ℕ) : intMin t ≤ intMax t := by
  have h1 : 0 < 2 ^ (intBits t - 1) := by positivity
  have h2 : 0 < 2 ^ intBits t := by positivity
  rw [intMin, intMax]
  split <;> omega

theorem cvtFloatInt_eq (dt : ℕ) (k : Num.Rnd) (v : Num.Val) : cvtFloatInt dt k.rm k.rand v = Spec.cvtfiVal dt k v := by
  cases v <;> rfl

theorem gridK_eq {c : Cx} {w : CForm} (hc : c.f = w.fields) : c.gridK = (w.mod.extractLsb' 8 8).toInt := by
  rw [Cx.gridK, hc, Laws.Named.bitsAt_eq_extract, sx_toNat (by norm_num)]
  rfl

section
variable {s : State} {i : Instr} {c : Cx} {w : CForm}

theorem dt_eq (hc : c.f = w.fields) : c.dt = Spec.dtOf w := by
  rw [Cx.dt, hc, Laws.Named.bitsAt_eq_extract]
  rfl

theorem st_eq (hc : c.f = w.fields) : c.st = Spec.stOf w := by
  rw [Cx.st, hc, Laws.Named.bitsAt_eq_extract]
  rfl

/-- The format register that a conversion names. -/
theorem nf_eq : Num.nfOf (c.nf (bitsAt w.mod 13 3)) = Spec.nfReg w c := by
  rw [Cx.nf, Laws.Named.bitsAt_eq_extract]
  rfl

/-- The source of a conversion into another class of types. -/
theorem flush_source (r l : ℕ) :
    Num.flush (floatFmt (Spec.stOf w)) (c.rounding r).ftz (c.rdFloat (Spec.stOf w) w.a l) = Spec.srcFloat w c false l := by
  rw [Spec.srcFloat, Bool.not_false, Bool.and_true]
  rfl

/-- The source of a conversion that the gradient class may name. -/
theorem flush_source_gr (hc : c.f = w.fields) (r l : ℕ) :
    Num.flush (floatFmt (Spec.stOf w)) ((c.rounding r).ftz && !(c.rounding r).gr) (c.rdFloat (Spec.stOf w) w.a l) =
      Spec.srcFloat w c (w.mod.getLsbD 3) l := by
  rw [Cx.rounding, hc]
  rfl

/-- A conversion (R109): the width of its destination, and each lane's pattern and exceptions. -/
theorem fixedExc_cvt {bits : Cx → ℕ} {n : ℕ} {g : Cx → ℕ → ℕ × Num.Exc} {g' : ℕ → ℕ × Num.Exc}
    (hf : i.fields = some w.fields) (hex : exec i s = issue i (cvtAct bits g) s) (hbits : c.f = w.fields → bits c = n)
    (hg : c.f = w.fields → ∀ l, g c l = g' l) :
    Spec.FixedExc s i c 4 true (Spec.converted c n g') :=
  fixedExc_of_act hf hex fun hc => by
    simp only [cvtAct, fixedExcAct, hbits hc, hg hc, Spec.converted]

theorem typeBits_dt (hc : c.f = w.fields) : typeBits c.dt = typeBits (Spec.dtOf w) := by rw [dt_eq hc]

end

theorem issued_cvti (s : State) (c : Cx) (w : CForm) : Spec.Issued s (.cvti w) c (Spec.cvti w c) :=
  issued_fixed rfl rfl fun _ hc => by
    simp only [dt_eq hc, st_eq hc, hc, cvtInt, clampInt_eq (intMin_le_intMax _), CForm.fields]

/-- CVTN.dec (R110): the scale is 1 where the instruction gives none. -/
theorem cvtNarrowDec_eq (f : Num.Fmt) (k : Num.Rnd) (nf : Num.NFmt) (code scale : ℕ) (b : Bool) :
    cvtNarrowDec f k nf code (if b then some scale else none) =
      (let v := Num.decodeNF nf code
       let e := if b then Num.scaleBy v (Num.scaleVal (scale % 2 ^ 16)) else (v, 0)
       ((Num.resultF f k [e.1] e.1).1, e.2 ||| (Num.resultF f k [e.1] e.1).2)) := by
  cases b <;> rfl

/-- Settles O31: each conversion reads its types, its rounding and its operands from the fields of the word. -/
theorem conversions : Obligations.Conversions := fun s c w =>
  ⟨issued_cvti s c w,
    fixedExc_cvt rfl rfl typeBits_dt fun hc l => by
      simp only [dt_eq hc, st_eq hc, hc, CForm.fields, flush_source_gr hc]
      rfl,
    fixedExc_cvt rfl rfl typeBits_dt fun hc l => by
      simp only [dt_eq hc, st_eq hc, hc]
      rfl,
    fixedExc_cvt rfl rfl typeBits_dt fun hc l => by
      simp only [dt_eq hc, st_eq hc, hc, CForm.fields, cvtFloatInt_eq, flush_source]
      rfl,
    fixedExc_cvt rfl rfl (fun _ => rfl) fun hc l => by
      simp only [nf_eq, st_eq hc, hc, CForm.fields, flush_source]
      rfl,
    fixedExc_cvt rfl rfl typeBits_dt fun hc l => by
      simp only [nf_eq, dt_eq hc, hc, CForm.fields, cvtNarrowDec_eq]
      rfl,
    fixedExc_cvt rfl rfl (fun _ => rfl) fun hc l => by
      simp only [gridK_eq hc, dt_eq hc, hc]
      rfl,
    fixedExc_cvt rfl rfl typeBits_dt fun hc l => by
      simp only [gridK_eq hc, dt_eq hc, hc]
      rfl,
    fixedExc_cvt rfl rfl (fun _ => rfl) fun hc l => by
      simp only [hc, Laws.Named.bitsAt_eq_extract]
      rfl,
    issued_word rfl rfl fun _ hc l => by
      rw [hc]
      exact ofNat_rand32 ..,
    fixedExc_cvt rfl rfl (fun _ => rfl) fun hc l => by
      simp only [hc, Spec.packVal, Nat.mul_comm (2 ^ 16)]
      rfl,
    fixedExc_cvt rfl rfl (fun _ => rfl) fun hc l => by
      simp only [hc]
      rfl⟩

end Sys2Proof.Machine
end

section
/-! PROOFS. Quotients and functions of special inputs, and of inputs with exact results (05_isa_arithmetic.md R106, 04_numbers.md R71): a
value that the format holds is given as it is, and a power of two beyond every format rounds as any other one. -/
namespace Sys2Proof.Num
open Sys2Proof

/-! ### What is given exactly -/

theorem emax_le_of_mem {f : Fmt} (hf : f ∈ Spec.ieee) : f.emax ≤ 1023 := by
  simp only [Spec.ieee, List.mem_cons, List.not_mem_nil, or_false] at hf
  obtain rfl | rfl | rfl | rfl := hf <;> decide

/-- A format counts its own exponents, those of subnormal values too. -/
theorem emax_add_fb_lt_of_mem {f : Fmt} (hf : f ∈ Spec.ieee) : f.emax + f.fb < (2 : ℤ) ^ f.p := by
  simp only [Spec.ieee, List.mem_cons, List.not_mem_nil, or_false] at hf
  obtain rfl | rfl | rfl | rfl := hf <;> decide

theorem gives_inf (f : Fmt) (neg : Bool) (x : Exc) : Spec.Gives f (f.inf neg, x) (.inf neg) x := ⟨rfl, rfl⟩

theorem gives_cnan (f : Fmt) (x : Exc) : Spec.Gives f (f.qnan, x) .cnan x := ⟨rfl, rfl⟩

theorem gives_zero (f : Fmt) (neg : Bool) (x : Exc) : Spec.Gives f (f.zero neg, x) (.zero neg) x := by
  simp [Spec.Gives, Val.zero]

theorem topExp_eq_of_eq {t m : ℕ} {q e : ℤ} (hm : m ≠ 0) (ht : t ≠ 0) (hv : (t : ℝ) * 2 ^ q = m * 2 ^ e) :
    topExp t q = topExp m e :=
  topExp_eq (K := ℝ) ht (by rw [hv]; exact topExp_le hm e) (by rw [hv]; exact lt_topExp m e)

/-- A magnitude that the format holds, and that is no subnormal, is its own rounding. -/
theorem roundF_holds {f : Fmt} (k : Rnd) (neg : Bool) {t : ℕ} {q : ℤ} (ht : t ≠ 0) (h : f.Holds t q) (hn : f.emin ≤ topExp t q) :
    ∃ (c : ℕ) (e : ℤ), (c : ℝ) * 2 ^ e = t * 2 ^ q ∧ f.Holds c e ∧ roundF f k neg t q = (encodeF f neg c e, 0) := by
  have hv := cut_exact (K := ℝ) h.exact
  have hc : (cut t q (f.last (topExp t q))).1 ≠ 0 := fun h0 => by
    have : (t : ℝ) * 2 ^ q ≠ 0 := mul_ne_zero (by exact_mod_cast ht) (two_zpow_pos q).ne'
    simp [← hv, h0] at this
  have htop := topExp_eq_of_eq ht hc hv
  refine ⟨_, _, hv, ⟨fun _ => by rw [htop]; exact h.le_emax ht, by rw [htop, cut_self]⟩, ?_⟩
  have hx := h.le_emax ht
  rw [roundF_eq f k neg ht, if_neg (fun h' => absurd hn h'.1.not_ge), if_neg (fun h' => absurd hn h'.1.not_ge)]
  simp only [roundedTo, roundAt_exact hv.symm, htop]
  rw [if_neg (fun h' => absurd h'.2 hx.not_gt)]
  simp

/-- What a format holds is given exactly, with no exception. -/
theorem gives_holds {f : Fmt} (hf : f.IsIeee) (k : Rnd) (neg : Bool) {t : ℕ} {q : ℤ} (h : f.Holds t q)
    (hn : t ≠ 0 → f.emin ≤ topExp t q) : Spec.Gives f (resultF f k [] (.fin neg t q)) (.fin neg t q) 0 := by
  rw [resultF_fin]
  by_cases ht : t = 0
  · subst ht
    simp [roundF, Spec.Gives]
  · obtain ⟨c, e, hv, hc, hr⟩ := roundF_holds k neg ht h (hn ht)
    obtain ⟨-, m, e', hd, hv'⟩ := hf.decodeF_encodeF hc neg
    have hq : (m : ℚ) * 2 ^ e' = t * 2 ^ q := Rat.cast_injective (α := ℝ) (by push_cast; exact hv'.trans hv)
    rw [hr, Spec.Gives]
    simp only [ht, if_false, hd, valueOf_fin, hq]
    exact ⟨trivial, ⟨neg, m, e', rfl⟩, trivial⟩

/-- An integer of at most p bits is given exactly. -/
theorem gives_integer {f : Fmt} (hf : f.IsIeee) (k : Rnd) (neg : Bool) {t : ℕ} (ht : t < 2 ^ f.p) :
    Spec.Gives f (resultF f k [] (.fin neg t 0)) (.fin neg t 0) 0 := by
  have hp := hf.p_eq
  have hfb := hf.fb_lt_emax
  have hemin := hf.emin_eq
  have htop (h : t ≠ 0) : 0 ≤ topExp t 0 ∧ topExp t 0 ≤ f.fb := by
    have := (Nat.log2_lt h).2 ht
    rw [topExp]
    omega
  exact gives_holds hf k neg (hf.holds_of_le ht.le (by omega) fun h => by have := htop h; omega) fun h => by have := htop h; omega

theorem gives_one {f : Fmt} (hf : f.IsIeee) (k : Rnd) (neg : Bool) : Spec.Gives f (resultF f k [] (.fin neg 1 0)) (.fin neg 1 0) 0 :=
  gives_integer hf k neg (Nat.one_lt_two_pow (Nat.pos_iff_ne_zero.1 hf.p_pos))

/-! ### Operands as read -/

theorem flush_idem (f : Fmt) (z : Bool) (v : Val) : flush f z (flush f z v) = flush f z v := by
  cases v with
  | nan => rfl
  | inf => rfl
  | fin neg m e =>
    by_cases h : (z && m != 0 && decide (topExp m e < f.emin)) = true
    · simp only [flush, h, if_true, Val.zero]
      simp
    · simp only [flush, h, if_false, Bool.false_eq_true]

theorem flush_finite {f : Fmt} (z : Bool) {v : Val} (hv : Spec.Finite v) : ∃ m e, flush f z v = .fin v.neg? m e := by
  obtain ⟨neg, m, e, rfl⟩ := hv
  rw [flush]
  split
  · exact ⟨0, 0, rfl⟩
  · exact ⟨m, e, rfl⟩

theorem eq_inf {v : Val} (h : v.isInf = true) : v = .inf v.neg? := by
  cases v <;> simp_all [Val.isInf, Val.neg?]

theorem flush_nan {v : Val} (h : v.isNan = true) (f : Fmt) (z : Bool) : flush f z v = v := by
  cases v <;> simp_all [Val.isNan, flush]

/-- A finite operand's magnitude and sign from its value, a multiple of a power of two. -/
theorem magnitude_of_valueOf {neg : Bool} {m : ℕ} {e q n : ℤ} (h : Spec.valueOf (.fin neg m e) = n * 2 ^ q) :
    (m : ℚ) * 2 ^ e = n.natAbs * 2 ^ q ∧ n = if neg then -(n.natAbs : ℤ) else n.natAbs := by
  have hq := two_zpow_pos (K := ℚ) q
  have hm : (0 : ℚ) ≤ m * 2 ^ e := mul_nonneg (Nat.cast_nonneg m) (two_zpow_pos e).le
  constructor
  · rw [← abs_valueOf neg m e, h, abs_mul, abs_of_pos hq, Nat.cast_natAbs, Int.cast_abs]
  · rw [valueOf_fin] at h
    cases neg
    · have : (0 : ℚ) ≤ n := by
        rw [← mul_nonneg_iff_of_pos_right hq, ← h]
        simpa using hm
      have : (0 : ℤ) ≤ n := by exact_mod_cast this
      simp only [Bool.false_eq_true, if_false]
      omega
    · have : (0 : ℚ) ≤ -n := by
        rw [← mul_nonneg_iff_of_pos_right hq, neg_mul, ← h]
        simpa using hm
      have : (0 : ℤ) ≤ -n := by exact_mod_cast this
      simp only [if_true]
      omega

/-! ### Powers of two beyond every format -/

/-- A power of two far below the unit: no integer part, and a rest whose leading bits are zeros. -/
theorem cut_far {e q : ℤ} (h : e + 33 < q) : ∃ s, 34 ≤ s ∧ cut 1 e q = (0, 1, s) := by
  obtain ⟨s, hs, hq⟩ : ∃ s : ℕ, 34 ≤ s ∧ q - e = s := ⟨(q - e).toNat, by omega, by omega⟩
  have h1 : 1 < 2 ^ s := Nat.one_lt_two_pow (by omega)
  refine ⟨s, hs, ?_⟩
  simp only [cut, hq, Int.toNat_natCast, Nat.div_eq_of_lt h1, Nat.mod_eq_of_lt h1]
  rw [if_neg (by omega)]

/-- Far below the unit only upward rounding leaves zero. -/
theorem roundAt_far {e q : ℤ} (h : e + 33 < q) (rm : Rm) (r : ℕ) {n : ℕ} (hn : n ≤ 32) :
    roundAt rm false 1 e q r n = (if rm = .ru then 1 else 0, true) := by
  obtain ⟨s, hs, hcut⟩ := cut_far h
  have hr : r % 2 ^ n < 2 ^ n := Nat.mod_lt _ (by positivity)
  have hz : 2 ^ n / 2 ^ s = 0 := Nat.div_eq_of_lt (Nat.pow_lt_pow_right one_lt_two (by omega))
  simp only [roundAt, hcut]
  cases rm with
  | rn => simp [roundsUp]; omega
  | rz => rfl
  | ru => rfl
  | rd => rfl
  | sr => simp [roundsUp, hz, hr]

theorem gradWord_far {e q : ℤ} (h : e + 33 < q) (n : ℕ) : gradWord 1 e q n = rand32 0 0 0x6A09E667 / 2 ^ (32 - n) := by
  obtain ⟨s, hs, hcut⟩ := cut_far h
  simp only [gradWord, hcut, Nat.mul_one, Nat.div_eq_of_lt (Nat.pow_lt_pow_right one_lt_two (show 32 < s by omega))]

theorem topExp_one (e : ℤ) : topExp 1 e = e := by
  have : Nat.log2 1 = 0 := by decide
  simp [topExp, this]

theorem topExp_two_pow (n : ℕ) (e : ℤ) : topExp (2 ^ n) e = n + e := by rw [topExp, Nat.log2_two_pow]

/-- The power of two counted in units of its own last place. -/
theorem roundAt_last (f : Fmt) (rm : Rm) (neg : Bool) (e : ℤ) (r n : ℕ) : roundAt rm neg 1 e (e - f.fb) r n = (2 ^ f.fb, false) := by
  refine roundAt_exact ?_ rm neg r n
  push_cast
  rw [one_mul, zpow_sub₀ two_ne_zero, zpow_natCast, mul_div_cancel₀ _ (by positivity)]

section
variable {f : Fmt} (hf : f.IsIeee) (k : Rnd) {e e' : ℤ}
include hf

theorem roundedTo_far_below (h : e + 33 < f.emin - f.fb) (rm : Rm) (r : ℕ) :
    roundedTo f f rm false 1 e r = (encodeF f false (if rm = .ru then 1 else 0) (f.emin - f.fb), nx ||| unf) := by
  have hfb := hf.fb_lt_emax
  have hemin := hf.emin_eq
  have hlast : f.last e = f.emin - f.fb := by rw [Fmt.last, max_eq_right (by omega)]
  have htop : topExp (2 ^ f.fb) (e - f.fb) = e := by rw [topExp_two_pow]; omega
  simp only [roundedTo, topExp_one, hlast, roundAt_far h rm r f.rbits_le, roundAt_last, htop]
  have htiny : e < f.emin := by omega
  rw [if_neg (by split <;> simp [topExp_one]; omega)]
  simp [htiny]

theorem roundF_far_below (h : e + 33 < f.emin - f.fb) (h' : e' + 33 < f.emin - f.fb) :
    roundF f k false 1 e = roundF f k false 1 e' := by
  have hlast {d : ℤ} (hd : d + 33 < f.emin - f.fb) : f.last d = f.emin - f.fb := by rw [Fmt.last, max_eq_right (by omega)]
  have htiny {d : ℤ} (hd : d + 33 < f.emin - f.fb) : d < f.emin := by omega
  simp only [roundF_eq f k false one_ne_zero, topExp_one, hlast h, hlast h', htiny h, htiny h', gradWord_far h, gradWord_far h',
    roundedTo_far_below hf h, roundedTo_far_below hf h']

theorem roundF_far_above (h : f.emax < e) :
    roundF f k false 1 e = (if toInfinity k.rm false then f.inf false else f.max false, ovf ||| nx) := by
  have hfb := hf.fb_lt_emax
  have hemin := hf.emin_eq
  have hlast : f.last e = e - f.fb := by rw [Fmt.last, max_eq_left (by omega)]
  have htop : topExp (2 ^ f.fb) (e - f.fb) = e := by rw [topExp_two_pow]; omega
  rw [roundF_eq f k false one_ne_zero, topExp_one, if_neg (by omega), if_neg (by omega)]
  simp only [roundedTo, topExp_one, hlast, roundAt_last, htop]
  rw [if_pos ⟨by positivity, h⟩]

end

end Sys2Proof.Num

namespace Sys2Proof.Machine
open Sys2Proof Sys2Proof.Num

section
variable {f : Fmt} (k : Rnd) (l i : ℕ)

/-! ### Operands that are read alike, and NaNs -/

theorem reads_alike {a b : Val} (h : Spec.Reads f k a b) (v : Val) (op : ℕ) :
    fdiv f k l i [a, v] = fdiv f k l i [b, v] ∧ fdiv f k l i [v, a] = fdiv f k l i [v, b] ∧
      ffunc op f k l i [a] = ffunc op f k l i [b] := by
  have hb : flush f (k.ftz && !k.gr) a = flush f (k.ftz && !k.gr) b := by rw [← flush_of_reads h, flush_idem]
  simp only [fdiv, ffunc, inputs, List.map_cons, List.map_nil, hb]
  exact ⟨trivial, trivial, trivial⟩

theorem nanF_cnan (f : Fmt) {ops : List Val} (h : ops.any Val.isNan = true) : nanF f true ops = f.qnan := by
  obtain ⟨v, hv⟩ := Option.isSome_iff_exists.1 (List.find?_isSome.2 (List.any_eq_true.1 h))
  have hnan := List.find?_some hv
  cases v <;> simp_all [nanF, Val.isNan]

theorem arith_nan {ops : List Val} (h : ops.any Val.isNan = true) (invalid : Bool) (v : Val) :
    arith f k ops invalid v = (nanF f k.cnan ops, snanExc ops ||| if invalid then nv else 0#5) := by
  rw [arith, if_pos h]

/-- The functions of one operand pass a NaN on (R71). -/
theorem ffunc_nan {a : Val} (ha : a.isNan = true) (op : ℕ) : ffunc op f k l i [a] = arith f k [a] false a := by
  cases a with
  | nan neg x y => simp [ffunc, inputs, flush]
  | inf => cases ha
  | fin => cases ha

theorem isNan_flush (f : Fmt) (z : Bool) (v : Val) : (flush f z v).isNan = v.isNan := by
  cases v with
  | nan => rfl
  | inf => rfl
  | fin neg m e =>
    rw [flush]
    split <;> rfl

/-- A quotient passes a NaN on (R71). -/
theorem fdiv_nan {a b : Val} (h : a.isNan = true ∨ b.isNan = true) :
    ((flush f (k.ftz && !k.gr) a).isNan || (flush f (k.ftz && !k.gr) b).isNan) = true ∧
    fdiv f k l i [a, b] = arith f k [flush f (k.ftz && !k.gr) a, flush f (k.ftz && !k.gr) b] false (flush f (k.ftz && !k.gr) a) := by
  rw [← isNan_flush f (k.ftz && !k.gr) a, ← isNan_flush f (k.ftz && !k.gr) b] at h
  simp only [fdiv, inputs, List.map_cons, List.map_nil]
  generalize flush f (k.ftz && !k.gr) a = x at h ⊢
  generalize flush f (k.ftz && !k.gr) b = y at h ⊢
  refine ⟨by simpa using h, ?_⟩
  cases x with
  | nan => rfl
  | inf =>
    cases y with
    | nan => rfl
    | inf => simp [Val.isNan] at h
    | fin => simp [Val.isNan] at h
  | fin =>
    cases y with
    | nan => rfl
    | inf => simp [Val.isNan] at h
    | fin => simp [Val.isNan] at h

section
variable {a : Val} (ha : a.isNan = true) (hk : k.cnan = true)
include ha hk

theorem ffunc_cnan (op : ℕ) :
    (ffunc op f k l i [a]).1 = f.qnan ∧ (ffunc op f k l i [a]).2 = if a.isSnan then nv else 0 := by
  have h : [a].any Val.isNan = true := by simp [ha]
  rw [ffunc_nan k l i ha, arith_nan k h, hk, nanF_cnan f h]
  simp [snanExc]

theorem fdiv_cnan (b : Val) : (fdiv f k l i [a, b]).1 = f.qnan ∧ (fdiv f k l i [b, a]).1 = f.qnan := by
  obtain ⟨hn, hab⟩ := fdiv_nan (f := f) k l i (b := b) (.inl ha)
  obtain ⟨hn', hba⟩ := fdiv_nan (f := f) k l i (a := b) (.inr ha)
  rw [hab, hba, arith_nan k (by simpa using hn), arith_nan k (by simpa using hn'), hk]
  exact ⟨nanF_cnan f (by simpa using hn), nanF_cnan f (by simpa using hn')⟩

end

/-! ### Quotients with a zero or an infinity -/

section
variable {a b : Val} {na nb : Bool} {ma mb : ℕ} {ea eb : ℤ}

theorem fdiv_zeros (ha : flush f (k.ftz && !k.gr) a = .fin na 0 ea) (hb : flush f (k.ftz && !k.gr) b = .fin nb 0 eb) :
    fdiv f k l i [a, b] = (f.qnan, nv) := by
  simp [fdiv, inputs, ha, hb]

theorem fdiv_by_zero (ha : flush f (k.ftz && !k.gr) a = .fin na ma ea) (hm : ma ≠ 0)
    (hb : flush f (k.ftz && !k.gr) b = .fin nb 0 eb) : fdiv f k l i [a, b] = (f.inf (na != nb), dz) := by
  simp [fdiv, inputs, ha, hb, hm, Val.neg?]

theorem fdiv_zero_by (ha : flush f (k.ftz && !k.gr) a = .fin na 0 ea)
    (hb : flush f (k.ftz && !k.gr) b = .fin nb mb eb) (hm : mb ≠ 0) : fdiv f k l i [a, b] = (f.zero (na != nb), 0) := by
  simp [fdiv, inputs, ha, hb, hm, Val.neg?]

theorem fdiv_infs : fdiv f k l i [.inf na, .inf nb] = (f.qnan, nv) := rfl

theorem fdiv_inf_fin (hb : flush f (k.ftz && !k.gr) b = .fin nb mb eb) :
    fdiv f k l i [.inf na, b] = (f.inf (na != nb), 0) ∧ fdiv f k l i [b, .inf na] = (f.zero (nb != na), 0) := by
  have hinf : flush f (k.ftz && !k.gr) (.inf na) = .inf na := rfl
  simp [fdiv, inputs, hb, hinf, Val.neg?]

end

/-! ### The functions of zeros, of negative values and of infinities -/

theorem isInteger_zero (neg : Bool) (e : ℤ) : isInteger (.fin neg 0 e) = true := by
  simp only [isInteger, cut]
  split <;> simp

theorem cut_zero (e q : ℤ) : (cut 0 e q).1 = 0 := by
  rw [cut]
  split <;> simp

section
variable {a : Val} {neg : Bool} {e : ℤ} (h : flush f (k.ftz && !k.gr) a = .fin neg 0 e)
include h

theorem ffunc_zero : ffunc 0x26 f k l i [a] = (f.zero neg, 0) ∧ ffunc 0x27 f k l i [a] = (f.inf neg, dz) ∧
    ffunc 0x28 f k l i [a] = (f.inf neg, dz) ∧ ffunc 0x29 f k l i [a] = resultF f k [] .one ∧
    ffunc 0x2A f k l i [a] = (f.inf true, dz) ∧ ffunc 0x2B f k l i [a] = (f.zero neg, 0) ∧
    ffunc 0x2C f k l i [a] = resultF f k [] .one := by
  simp [ffunc, inputs, h, exp2Fin, isInteger_zero, cut_zero, Val.one]

end

theorem ffunc_negative {a : Val} {m : ℕ} {e : ℤ} (h : flush f (k.ftz && !k.gr) a = .fin true m e) (hm : m ≠ 0) :
    ffunc 0x26 f k l i [a] = (f.qnan, nv) ∧ ffunc 0x28 f k l i [a] = (f.qnan, nv) ∧ ffunc 0x2A f k l i [a] = (f.qnan, nv) := by
  simp [ffunc, inputs, h, hm]

end

/-! ### The rows of the table (R106) -/

section
variable {f : Fmt} (hf : f.IsIeee) (k : Rnd) (l i : ℕ) {a b : Val}

theorem gives_zero_quotients (hb : Spec.Finite b ∧ Spec.valueOf b = 0) :
    ((Spec.Finite a ∧ Spec.valueOf a = 0) → Spec.Gives f (fdiv f k l i [a, b]) .cnan nv) ∧
      (Spec.Plain f k a → Spec.Gives f (fdiv f k l i [a, b]) (.inf (a.neg? != b.neg?)) dz ∧
        Spec.Gives f (fdiv f k l i [b, a]) (.zero (b.neg? != a.neg?)) 0) := by
  obtain ⟨eb, hb⟩ := flush_zero (f := f) (k := k) hb.1 (.inl hb.2)
  refine ⟨fun ha => ?_, fun ha => ?_⟩
  · obtain ⟨ea, ha⟩ := flush_zero (f := f) (k := k) ha.1 (.inl ha.2)
    rw [fdiv_zeros k l i ha hb]
    exact gives_cnan f nv
  · obtain ⟨na, ma, ea, rfl, hm, ha⟩ := plain_cases ha
    rw [fdiv_by_zero k l i ha hm hb, fdiv_zero_by k l i hb ha hm]
    exact ⟨gives_inf f _ dz, gives_zero f _ 0⟩

theorem gives_inf_quotients (ha : a.isInf = true) :
    (b.isInf = true → Spec.Gives f (fdiv f k l i [a, b]) .cnan nv) ∧
      (Spec.Finite b → Spec.Gives f (fdiv f k l i [a, b]) (.inf (a.neg? != b.neg?)) 0 ∧
        Spec.Gives f (fdiv f k l i [b, a]) (.zero (a.neg? != b.neg?)) 0) := by
  rw [eq_inf ha]
  refine ⟨fun hb => ?_, fun hb => ?_⟩
  · rw [eq_inf hb]
    exact gives_cnan f nv
  · obtain ⟨m, e, hb⟩ := flush_finite (f := f) (k.ftz && !k.gr) hb
    obtain ⟨h₁, h₂⟩ := fdiv_inf_fin k l i (na := a.neg?) hb
    rw [h₁, h₂, bne_comm (a := b.neg?)]
    exact ⟨gives_inf f _ 0, gives_zero f _ 0⟩

include hf in
theorem gives_functions_of_zero (ha : Spec.Finite a) (h0 : Spec.valueOf a = 0) :
    Spec.Gives f (ffunc 0x26 f k l i [a]) (.zero a.neg?) 0 ∧ Spec.Gives f (ffunc 0x27 f k l i [a]) (.inf a.neg?) dz ∧
      Spec.Gives f (ffunc 0x28 f k l i [a]) (.inf a.neg?) dz ∧ Spec.Gives f (ffunc 0x29 f k l i [a]) .one 0 ∧
      Spec.Gives f (ffunc 0x2A f k l i [a]) (.inf true) dz ∧ Spec.Gives f (ffunc 0x2B f k l i [a]) (.zero a.neg?) 0 ∧
      Spec.Gives f (ffunc 0x2C f k l i [a]) .one 0 := by
  obtain ⟨e, he⟩ := flush_zero (f := f) (k := k) ha (.inl h0)
  obtain ⟨h₁, h₂, h₃, h₄, h₅, h₆, h₇⟩ := ffunc_zero k l i he
  rw [h₁, h₂, h₃, h₄, h₅, h₆, h₇]
  exact ⟨gives_zero f _ 0, gives_inf f _ dz, gives_inf f _ dz, gives_one hf k false, gives_inf f _ dz, gives_zero f _ 0,
    gives_one hf k false⟩

theorem gives_functions_of_negative (ha : Spec.Plain f k a ∨ a.isInf = true) (hneg : a.neg? = true) :
    Spec.Gives f (ffunc 0x26 f k l i [a]) .cnan nv ∧ Spec.Gives f (ffunc 0x28 f k l i [a]) .cnan nv ∧
      Spec.Gives f (ffunc 0x2A f k l i [a]) .cnan nv := by
  rcases ha with ha | ha
  · obtain ⟨neg, m, e, rfl, hm, hr⟩ := plain_cases ha
    obtain rfl : neg = true := hneg
    obtain ⟨h₁, h₂, h₃⟩ := ffunc_negative k l i hr hm
    rw [h₁, h₂, h₃]
    exact ⟨gives_cnan f nv, gives_cnan f nv, gives_cnan f nv⟩
  · rw [eq_inf ha, hneg]
    exact ⟨gives_cnan f nv, gives_cnan f nv, gives_cnan f nv⟩

end

end Sys2Proof.Machine

namespace Sys2Proof.Machine
open Sys2Proof Sys2Proof.Num

/-! ### Exact results -/

/-- 2^n of an integer n: beyond the exponents of every format one power stands for all (R106). -/
theorem exp2Fin_integer {neg : Bool} {m : ℕ} {e n : ℤ} (hm : m ≠ 0) (hv : Spec.valueOf (.fin neg m e) = n) :
    exp2Fin neg m e = .fin false 1 n ∨ (8192 ≤ n ∧ exp2Fin neg m e = .fin false 1 20000) ∨
      (n ≤ -8192 ∧ exp2Fin neg m e = .fin false 1 (-20000)) := by
  obtain ⟨hmag, hn⟩ := magnitude_of_valueOf (q := 0) (by rw [hv, zpow_zero, mul_one])
  rw [exp2Fin, if_neg hm]
  split
  next htop =>
    have hbig : (2 : ℚ) ^ (13 : ℤ) ≤ n.natAbs := by
      calc (2 : ℚ) ^ (13 : ℤ) ≤ 2 ^ topExp m e := two_zpow_le.2 (by omega)
        _ ≤ m * 2 ^ e := topExp_le hm e
        _ = n.natAbs := by rw [hmag, zpow_zero, mul_one]
    have hbig : 2 ^ 13 ≤ n.natAbs := by exact_mod_cast hbig
    cases neg
    · exact .inr (.inl ⟨by simp only [Bool.false_eq_true, if_false] at hn; omega, rfl⟩)
    · exact .inr (.inr ⟨by simp only [if_true] at hn; omega, rfl⟩)
  next =>
    obtain ⟨ht, hr⟩ := cut_of_multiple hmag
    simp only [ht, hr, if_true, ← hn]
    exact .inl trivial

/-- log2 of a power of two (R106). -/
theorem log2Fin_power {m : ℕ} {e n : ℤ} (hm : m ≠ 0) (hv : (m : ℚ) * 2 ^ e = 2 ^ n) :
    topExp m e = n ∧ log2Fin m e = ofInt n 0 := by
  have htop : topExp m e = n := topExp_eq (K := ℚ) hm hv.ge (by rw [hv]; exact two_zpow_lt.2 (lt_add_one n))
  have hpow : m = 2 ^ m.log2 := by
    have : (m : ℚ) = 2 ^ (m.log2 : ℤ) := by
      rw [← mul_right_cancel_iff_of_pos (two_zpow_pos (K := ℚ) e), hv, ← zpow_add₀ two_ne_zero, ← htop, topExp]
    exact_mod_cast this
  exact ⟨htop, by rw [log2Fin, if_pos hpow, htop]⟩

/-- Multiples of one half, counted in halves. -/
theorem isInteger_half {neg : Bool} {m : ℕ} {e : ℤ} {t : ℕ} (hv : (m : ℚ) * 2 ^ e = t * 2 ^ (-1 : ℤ)) :
    (isInteger (.fin neg m e) = true ↔ t % 2 = 0) ∧ isInteger (.fin neg m (e + 1)) = true ∧ (cut m e (-1)).1 = t := by
  have hv' : (m : ℚ) * 2 ^ (e + 1) = t * 2 ^ (0 : ℤ) := by
    rw [zpow_add₀ two_ne_zero, ← mul_assoc, hv, mul_assoc, ← zpow_add₀ two_ne_zero]
    rfl
  refine ⟨?_, by simpa [isInteger] using (cut_of_multiple hv').2, (cut_of_multiple hv).1⟩
  simp only [isInteger, decide_eq_true_eq]
  constructor
  · intro h
    have h := (cut_exact (K := ℚ) h).trans hv
    have : (t : ℚ) = 2 * (cut m e 0).1 := by
      rw [zpow_zero, mul_one, zpow_neg_one] at h
      rw [h]
      ring
    have : t = 2 * (cut m e 0).1 := by exact_mod_cast this
    omega
  · intro h
    obtain ⟨j, rfl⟩ := Nat.dvd_of_mod_eq_zero h
    refine (cut_of_multiple (K := ℚ) (t := j) ?_).2
    rw [hv, zpow_zero, zpow_neg_one]
    push_cast
    ring

section
variable {f : Fmt} {k : Rnd} (l i : ℕ) {neg : Bool} {m : ℕ} {e : ℤ} (hr : flush f (k.ftz && !k.gr) (.fin neg m e) = .fin neg m e)
include hr

theorem ffunc_exp2 : ffunc 0x29 f k l i [.fin neg m e] = resultF f k [] (exp2Fin neg m e) := by
  simp [ffunc, inputs, hr]

theorem ffunc_log2 (hm : m ≠ 0) (hneg : neg = false) : ffunc 0x2A f k l i [.fin neg m e] = resultF f k [] (log2Fin m e) := by
  subst hneg
  simp [ffunc, inputs, hr, hm]

theorem ffunc_sin_half {t : ℕ} (hv : (m : ℚ) * 2 ^ e = t * 2 ^ (-1 : ℤ)) : ffunc 0x2B f k l i [.fin neg m e] =
    if t % 2 = 0 then (f.zero neg, 0) else resultF f k [] (.fin (decide (t / 2 % 2 = 1) != neg) 1 0) := by
  obtain ⟨hint, hhalf, hcut⟩ := isInteger_half (neg := neg) hv
  simp [ffunc, inputs, hr, hint, hhalf, hcut]

theorem ffunc_cos_half {t : ℕ} (hv : (m : ℚ) * 2 ^ e = t * 2 ^ (-1 : ℤ)) : ffunc 0x2C f k l i [.fin neg m e] =
    if t % 2 = 1 then (f.zero false, 0) else resultF f k [] (.fin (decide (t / 2 % 2 = 1)) 1 0) := by
  obtain ⟨-, hhalf, hcut⟩ := isInteger_half (neg := neg) hv
  simp [ffunc, inputs, hr, hhalf, hcut]

end

section
variable {f : Fmt} (hf : f ∈ Spec.ieee) {k : Rnd} (l i : ℕ) {a : Val} {n : ℤ} (ha : Spec.Plain f k a)
include hf ha

/-- FEX2 of an integer. -/
theorem roundsInto_exp2_integer (hn : Spec.valueOf a = n) : Spec.RoundsInto f k false (2 ^ n) (ffunc 0x29 f k l i [a]) := by
  have hemax := emax_le_of_mem hf
  have hf := isIeee_of_mem hf
  have hfb := hf.fb_le
  have hemin := hf.emin_eq
  have hround := roundsInto_roundF hf k false one_ne_zero n
  rw [Nat.cast_one, one_mul] at hround
  obtain ⟨neg, m, e, rfl, hm, hr⟩ := plain_cases ha
  rw [ffunc_exp2 l i hr]
  rcases exp2Fin_integer hm hn with h | ⟨hlarge, h⟩ | ⟨hsmall, h⟩
  · rwa [h, resultF_fin]
  · rwa [h, resultF_fin, roundF_far_above hf k (by omega), ← roundF_far_above hf k (show f.emax < n by omega)]
  · rwa [h, resultF_fin, roundF_far_below hf k (e' := n) (by omega) (by omega)]

/-- FLG2 of a power of two that the format has. -/
theorem gives_log2_power {x : ℕ} (hx : a = decodeF f x) (hn : Spec.valueOf a = (2 : ℚ) ^ n) :
    Spec.Gives f (ffunc 0x2A f k l i [a]) (ofInt n 0) 0 := by
  have hrange := emax_add_fb_lt_of_mem hf
  have hf := isIeee_of_mem hf
  have hemin := hf.emin_eq
  obtain ⟨neg, m, e, rfl, hm, hr⟩ := plain_cases ha
  have hpos := two_zpow_pos (K := ℚ) n
  obtain rfl : neg = false := by
    cases neg
    · rfl
    · have : (0 : ℚ) ≤ m * 2 ^ e := mul_nonneg (Nat.cast_nonneg m) (two_zpow_pos e).le
      rw [← hn, valueOf_fin] at hpos
      simp only [if_true] at hpos
      linarith
  have hv : (m : ℚ) * 2 ^ e = 2 ^ n := by rw [← abs_valueOf false m e, hn, abs_of_pos hpos]
  obtain ⟨htop, hlog⟩ := log2Fin_power hm hv
  obtain ⟨-, he, hgrid⟩ := hf.decodeF_grid hx.symm
  obtain ⟨-, hmax⟩ := hgrid hm
  rw [ffunc_log2 l i hr hm rfl, hlog]
  refine gives_integer hf k _ ?_
  have hlow : e ≤ n := by rw [← htop, topExp]; omega
  zify
  rw [abs_lt]
  omega

/-- FSINP and FCOSP of a multiple of one half. -/
theorem gives_sin_cos_half (hn : Spec.valueOf a = (n : ℚ) / 2) :
    Spec.Gives f (ffunc 0x2B f k l i [a]) (if n % 2 = 0 then .zero a.neg? else .fin (n % 4 = 3) 1 0) 0 ∧
      Spec.Gives f (ffunc 0x2C f k l i [a]) (if n % 2 = 1 then .zero false else .fin (n % 4 = 2) 1 0) 0 := by
  have hf := isIeee_of_mem hf
  obtain ⟨neg, m, e, rfl, hm, hr⟩ := plain_cases ha
  obtain ⟨hv, hsign⟩ := magnitude_of_valueOf (q := -1) (by rw [hn, zpow_neg_one, div_eq_mul_inv])
  rw [ffunc_sin_half l i hr hv, ffunc_cos_half l i hr hv]
  constructor
  · by_cases h : n % 2 = 0
    · rw [if_pos h, if_pos (by omega)]
      exact gives_zero f neg 0
    · have hs : (decide (n.natAbs / 2 % 2 = 1) != neg) = decide (n % 4 = 3) := by
        cases neg
        · simp only [Bool.false_eq_true, if_false] at hsign
          simp only [Bool.bne_false, decide_eq_decide]
          omega
        · simp only [if_true] at hsign
          simp only [Bool.bne_true, ← decide_not, decide_eq_decide]
          omega
      rw [if_neg h, if_neg (by omega), hs]
      exact gives_one hf k _
  · by_cases h : n % 2 = 1
    · rw [if_pos h, if_pos (by omega)]
      exact gives_zero f false 0
    · have hs : decide (n.natAbs / 2 % 2 = 1) = decide (n % 4 = 2) := by
        rw [decide_eq_decide]
        omega
      rw [if_neg h, if_neg (by omega), hs]
      exact gives_one hf k _

end

theorem specialInputs {f : Fmt} (hf : f ∈ Spec.ieee) (k : Rnd) : Spec.SpecialInputs f k := by
  intro l i a b op
  refine ⟨fun h v => reads_alike k l i h v op, fun ha hk _ => ?_, ?_, fun ha hb => ?_, fun ha hb => ?_, fun ha hb => ?_, fun ha => ?_,
    gives_functions_of_negative k l i, fun neg => ⟨gives_zero f neg 0, gives_cnan f nv, gives_cnan f nv⟩, gives_inf f false 0,
    gives_zero f false 0, gives_inf f false 0, gives_zero f false 0, gives_inf f false 0,
    fun n => ⟨fun ha hn => ?_, ?_, fun ha hn => ?_⟩⟩
  · exact ⟨(fdiv_cnan k l i ha hk b).1, (fdiv_cnan k l i ha hk b).2, ffunc_cnan k l i ha hk op⟩
  · rintro (⟨ha, hb⟩ | ⟨ha, hb⟩)
    · exact (gives_zero_quotients k l i hb).1 ha
    · exact (gives_inf_quotients k l i ha).1 hb
  · exact ((gives_zero_quotients k l i hb).2 ha).1
  · exact (gives_inf_quotients k l i ha).2 hb
  · exact ((gives_zero_quotients k l i ha).2 hb).2
  · exact gives_functions_of_zero (isIeee_of_mem hf) k l i ha.1 ha.2
  · exact roundsInto_exp2_integer hf l i ha hn
  · rintro ⟨x, hx⟩ ha hn
    exact gives_log2_power hf l i ha hx hn
  · exact gives_sin_cos_half hf l i ha hn

/-! ### Operations that may fault -/

section
variable {s : State} {i : Instr} {c : Cx}

theorem varExc_of_act {f : Fields} {act : Act} {r : Result} {xs : List (ℕ × Exc)} (hf : i.fields = some f)
    (hex : exec i s = issue i act s) (h : c.f = f → act c = varExcAct (fun _ => r) (fun _ => xs) c) : Spec.VarExc s i c r xs := by
  intro hi
  obtain ⟨-, ho, -⟩ := id hi
  obtain ⟨-, hcf, -⟩ := openCx_spec ho
  have ha := h (Option.some.inj (hcf.symm.trans hf))
  rw [hex]
  by_cases h0 : c.adm = 0
  · rw [if_pos h0]
    exact issue_after hi (by rw [ha, varExcAct, if_pos h0])
  · rw [if_neg h0]
    simp only [varExcAct, if_neg h0, Cx.start] at ha
    cases hx : excCause c.mode r.flags with
    | none => exact issue_after hi (by rw [ha, hx])
    | some n => exact issue_after hi (by rw [ha, hx]; rfl)

/-- A variable-latency form (R89, R105). -/
theorem varExc_fp {w : CForm} (srcs : Fields → List Operand) {g : Fmt → Rnd → ℕ → ℕ → List Val → ℕ × Exc}
    (hf : i.fields = some w.fields) (hex : exec i s = issue i (fpVarAct srcs g) s) :
    Spec.VarExc s i c (Spec.floatResult c w.fn (srcs w.fields) w.c g)
      ((Spec.floatLanes c w.fn (srcs w.fields) w.c g).map (fun e => (e.1, e.2.2))) :=
  varExc_of_act hf hex fun hc => by
    rw [fpVarAct, hc]
    simp only [varExcAct, hc]
    rfl

end

/-- Settles O30: the rows of R106 from the operands as read and from exact values rounded, and the operations that the issues start. -/
theorem floatFunctions : Obligations.FloatFunctions :=
  ⟨fun _ hf k => specialInputs hf k, fun _ _ _ =>
    ⟨varExc_fp srcAB rfl rfl, varExc_fp srcA rfl rfl, varExc_fp srcA rfl rfl, varExc_fp srcA rfl rfl, varExc_fp srcA rfl rfl,
      varExc_fp srcA rfl rfl, varExc_fp srcA rfl rfl, varExc_fp srcA rfl rfl⟩⟩

end Sys2Proof.Machine
end

section
/-! PROOFS. The comparisons, the instructions on predicates, S2V, FLAGS and PRIO (06_isa_control.md R115 to R119, R126 to R129): the
relation that each comparison takes, the predicates that it enters, and the words that are read. -/

namespace Sys2Proof.Machine
open Sys2Proof

/-! ### Comparisons -/

/-- CMP's relation of two integers is that of their order (R116). -/
theorem relInt_eq (cmp : ℕ) (a b : ℤ) : relInt cmp a b = Spec.relation cmp (compare a b) := by
  have hle : compare a b ≠ .gt ↔ a ≤ b := compare_le_iff_le
  have hge : compare a b ≠ .lt ↔ b ≤ a := compare_ge_iff_ge
  unfold relInt Spec.relation
  rw [Bool.eq_iff_iff]
  split <;> simp_all [compare_lt_iff_lt, compare_gt_iff_gt]

theorem compare_natCast (a b : ℕ) : compare (a : ℤ) b = compare a b := by
  simp [compare, compareOfLessAndEq]

/-- The relations of FSETP: of values that are ordered, by their order (R116). -/
theorem relFloat_eq (cmp : ℕ) (a b : Num.Val) : relFloat cmp a b = Spec.fsetpRel cmp a b := by
  unfold relFloat Spec.fsetpRel
  cases a.isNan || b.isNan
  · simp only [Bool.false_eq_true, if_false, Bool.not_false, Bool.true_and, Bool.false_or]
    split_ifs
    · rfl
    · rfl
    · unfold Spec.relation
      split <;> simp_all
    · unfold Spec.relation
      split <;> simp_all
  · simp

theorem combine_eq (comb : ℕ) (old new : Mask) : combine comb old new =
    if comb = 0 then new else if comb = 1 then old &&& new else if comb = 2 then old ||| new else old ^^^ new := by
  unfold combine
  split <;> simp_all

/-- A comparison of two integer operands, read as signed or as unsigned numbers (R116). -/
theorem relInt_operands {n : ℕ} (hn : 0 < n) (cmp : ℕ) (signed : Prop) [Decidable signed] (a b : BitVec n) :
    relInt cmp (if signed then sx n a.toNat else a.toNat) (if signed then sx n b.toNat else b.toNat) =
      Spec.relation cmp (if signed then compare a.toInt b.toInt else compare a.toNat b.toNat) := by
  rw [relInt_eq, sx_toNat hn, sx_toNat hn, ← compare_natCast]
  split <;> rfl

/-- What a comparison enters into each of its predicates (R116). -/
theorem setp_eq {c : Cx} {w : CForm} (hc : c.f = w.fields) (cmps : List (ℕ × Mask)) :
    c.setp cmps = cmps.map (fun e => (e.1, Spec.combined w c e.1 e.2)) := by
  simp only [Cx.setp, hc, CForm.fields, combine_eq, Laws.Named.bitsAt_eq_extract]
  rfl

/-! ### Reductions of predicates, and words of them -/

/-- PLOP counts the sources that are true (R118). -/
theorem plop_chosen (fn : ℕ) (chosen x : ℕ → Bool) : plop fn (((List.range 7).filter chosen).map x) =
    (let trues := (List.range 7).countP (fun n => chosen n && x n)
     let red : Bool := if fn % 4 = 0 then trues = (List.range 7).countP chosen else if fn % 4 = 1 then 0 < trues
      else if fn % 4 = 2 then trues % 2 = 1 else trues = 1
     if fn < 4 then red else !red) := by
  have htrues : ((((List.range 7).filter chosen).map x).filter (fun b => b)).length =
      (List.range 7).countP (fun n => chosen n && x n) := by
    rw [← List.countP_eq_length_filter, List.countP_map, List.countP_filter]
    simp only [Function.comp_apply, Bool.and_comm]
  have hpos (m : ℕ) : (m != 0) = decide (0 < m) := by rw [Bool.eq_iff_iff, bne_iff_ne, decide_eq_true_eq, Nat.pos_iff_ne_zero]
  obtain h | h | h | h : fn % 4 = 0 ∨ fn % 4 = 1 ∨ fn % 4 = 2 ∨ fn % 4 = 3 := by omega
  all_goals
    simp only [plop, htrues, hpos, List.length_map, ← List.countP_eq_length_filter, h]
    rfl

theorem ofNat_ofBits_of_lt (n : ℕ) (g : ℕ → Bool) :
    BitVec.ofNat 32 (ofBits n g) = Spec.bits32 (fun j => j < n && g j) := by
  apply BitVec.eq_of_getLsbD_eq
  intro j hj
  rw [BitVec.getLsbD_ofNat, testBit_ofBits, getLsbD_bits32]

/-- The words that S2V reads (R126). -/
theorem stateWord_eq (c : Cx) (sel : ℕ) : c.stateWord sel = Spec.stateWord c sel := by
  unfold Cx.stateWord Spec.stateWord
  split <;> simp_all [Cx.nf, Cx.mode]

/-! ### Issues -/

theorem fixedExcAct_congr {lat : ℕ} {latch : Bool} {r r' : Cx → Result} {c : Cx} (h : r c = r' c) :
    fixedExcAct lat latch r c = fixedExcAct lat latch r' c := by
  simp only [fixedExcAct, h]

section
variable (s : State) (c : Cx) (w : CForm)

theorem issued_isetp : Spec.Issued s (.isetp w) c (Spec.isetp w c) :=
  issued_of_act rfl rfl fun _ hc => by
    simp only [actIsetp, hc, CForm.fields, setp_eq hc, Spec.isetp, Laws.Named.bitsAt_eq_extract, List.map_cons, List.map_nil]
    cases w.mod.getLsbD 3
    · simp only [Bool.false_eq_true, if_false, show (32 : ℕ) ≠ 64 by decide, Cx.rd32,
        relInt_operands (n := 32) (by norm_num)]
      rfl
    · simp only [if_true, relInt_operands (n := 64) (by norm_num)]
      rfl

theorem fixedExc_fsetp : Spec.FixedExc s (.fsetp w) c (fpLat w.fn) false (Spec.fsetp w c) :=
  fixedExc_of_act rfl rfl fun hc => by
    rw [actFsetp, hc]
    refine fixedExcAct_congr ?_
    simp only [setp_eq hc, relFloat_eq, Laws.Named.bitsAt_eq_extract, List.map_map, CForm.fields, Spec.fsetp, Spec.fsetpVal,
      Spec.fsetpInvalid]
    rfl

theorem issued_plop : Spec.Issued s (.plop w) c (Spec.plop w c) :=
  issued_of_act rfl rfl fun _ hc => by
    simp only [actPlop, hc, CForm.fields, plop_chosen, Laws.Named.bitsAt_eq_extract]
    rfl

/-- The bits above the eighth are zero, as no predicate stands for them (R119). -/
theorem issued_pmovP2v : Spec.Issued s (.pmovP2v w) c (Spec.pmovP2v w c) :=
  issued_word rfl rfl fun _ hc l => by
    rw [hc, ofNat_ofBits_of_lt]
    simp only [Bool.and_assoc]
    rfl

theorem issued_pmovV2p : Spec.Issued s (.pmovV2p w) c (Spec.pmovV2p w c) :=
  issued_of_act rfl rfl fun _ hc => by
    simp only [actPmovV2p, hc]
    rfl

theorem issued_s2v : Spec.Issued s (.s2v w) c (Spec.s2v w c) :=
  issued_of_act rfl rfl fun _ hc => by
    have hsel : w.mod.extractLsb' 0 8 = 0 ↔ (w.mod.extractLsb' 0 8).toNat = 0 :=
      (BitVec.toNat_inj (y := 0)).symm
    simp only [actS2v, hc, CForm.fields, stateWord_eq, Laws.Named.bitsAt_eq_extract, Spec.s2v, hsel]
    split <;> rfl

/-- Without an admitted lane FLAGS stay (R128). -/
theorem issued_flagsClr : Spec.Issued s (.flagsClr w) c (Spec.flagsClr w c) :=
  issued_of_act rfl rfl fun _ hc => by
    rw [actFlagsClr, Spec.flagsClr, hc]
    split <;> rfl

/-- PRIO takes the low four bits of its operand (R129). -/
theorem issued_prio : Spec.Issued s (.prio w) c (Spec.prio w c) :=
  issued_of_act rfl rfl fun _ hc => by
    have hn : BitVec.ofNat 4 (if w.mod.getLsbD 4 then c.rd32 w.a 0 else bitsAt w.mod 0 4) =
        if w.mod.getLsbD 4 then (c.rd w.a 0 0).extractLsb' 0 4 else w.mod.extractLsb' 0 4 := by
      split
      · rfl
      · rw [Laws.Named.bitsAt_eq_extract, BitVec.ofNat_toNat, BitVec.setWidth_eq]
    simp only [actPrio, hc, CForm.fields, hn, Spec.prio]
    split <;> rfl

end

/-- Settles O32: each comparison is CMP's relation of its operands' order, and each of the others reads what its form names. -/
theorem predicateAndStateInstructions : Obligations.PredicateAndStateInstructions := fun s c w =>
  ⟨issued_isetp s c w, fixedExc_fsetp s c w, issued_plop s c w, issued_pmovP2v s c w, issued_pmovV2p s c w, issued_s2v s c w,
    issued_fixed rfl rfl fun _ _ => rfl, issued_flagsClr s c w, issued_prio s c w⟩

end Sys2Proof.Machine
end

section
/-! PROOFS. Exchange and reduction across lanes (06_isa_control.md R120 to R125): the segments of a warp, the lane that an exchange
reads, and the reductions, which the model computes on natural numbers and the rules on words. -/

namespace Sys2Proof.Machine
open Sys2Proof

/-! ### Votes -/

theorem issued_vote (s : State) (c : Cx) (w : CForm) : Spec.Issued s (.vote w) c (Spec.vote w c) :=
  issued_of_act rfl rfl fun _ hc => by
    have h0 : w.fn.toNat = 0 ↔ w.fn = 0 := BitVec.toNat_inj (y := 0)
    have h1 : w.fn.toNat = 1 ↔ w.fn = 1 := BitVec.toNat_inj (y := 1)
    have h3 : w.fn.toNat = 3 ↔ w.fn = 3 := BitVec.toNat_inj (y := 3)
    have hne (v : Mask) : (v != 0) = decide (v ≠ 0) := by rw [Bool.eq_iff_iff, bne_iff_ne, decide_eq_true_eq]
    simp only [actVote, hc, CForm.fields, h0, h1, h3, hne, Bool.decide_or, Laws.Named.bitsAt_eq_extract, Spec.vote]
    by_cases h : w.fn = 3
    · rw [if_pos h, if_pos h, resultBits_pair c fun _ => by rw [BitVec.ofNat_toNat, BitVec.setWidth_eq]]
      rfl
    · rw [if_neg h, if_neg h]
      rfl

/-! ### Segments -/

section
variable {c : Cx} {w : CForm} (hc : c.f = w.fields) (hseg : bitsAt w.mod 4 3 ≤ 3)
include hc hseg

/-- The lanes of a segment by its code, no more than the warp's (R121). -/
theorem segSize_eq : c.segSize = Spec.seg w c := by
  simp only [Cx.segSize, hc, CForm.fields, Spec.seg, ← Laws.Named.bitsAt_eq_extract]
  generalize bitsAt w.mod 4 3 = k at *
  interval_cases k <;> simp

theorem segLanes_eq (l : ℕ) : c.segLanes l = Spec.segLanes w c l := by
  simp only [Cx.segLanes, Cx.segBase, segSize_eq hc hseg, Spec.segLanes]
  rfl

/-- The lane that SHFL reads is one of its segment that is admitted (R122). -/
theorem shflLane_eq (l : ℕ) : (c.shflLane l (c.rd32 w.b l)).filter (fun j => c.adm.getLsbD j) = Spec.shflFrom w c l := by
  simp only [Cx.shflLane, Cx.segBase, segSize_eq hc hseg, hc, CForm.fields, Cx.rd32, Spec.shflFrom]
  split <;> simp_all [BitVec.toNat_eq_nat, apply_ite (Option.filter _), ite_and, Option.filter_some]

end

/-- What SHFL leaves, each lane's `n` words being those of the lane that `source` gives, or its own where it gives none (R122). -/
def exchanged (w : CForm) (c : Cx) (n : ℕ) (source : ℕ → Option ℕ) : Cx :=
  let r := c.resultN n (fun l o => c.rd w.a o ((source l).getD l))
  c.fixed 4 true 0 (if w.mod.getLsbD 11 then
    { r with preds := [(bitsAt w.mod 8 3, c.where_ (fun l => (source l).isSome))] } else r)

theorem actShfl_eq {c : Cx} {w : CForm} (hc : c.f = w.fields) : actShfl c =
    .ok (exchanged w c ((if w.mod.getLsbD 7 then 64 else 32) / 32) (fun l =>
      (c.shflLane l (c.rd32 w.b l)).filter (fun j => c.adm.getLsbD j))) := by
  rw [actShfl, hc]
  dsimp only [CForm.fields]
  refine congrArg (fun g => Except.ok (exchanged w c _ g)) (funext fun l => ?_)
  cases c.shflLane l (c.rd32 w.b l) <;> rfl

theorem issued_shfl (s : State) (c : Cx) (w : CForm) : Spec.Issued s (.shfl w) c (Spec.shfl w c) :=
  issued_of_act rfl rfl fun hw hc => by
    have hseg : bitsAt w.mod 4 3 ≤ 3 := of_decide_eq_true (shape_ok_of_wf hw rfl rfl).1
    have hn : (if w.mod.getLsbD 7 then 64 else 32) / 32 = if w.mod.getLsbD 7 then 2 else 1 := by split <;> rfl
    rw [actShfl_eq hc, hn]
    simp only [shflLane_eq hc hseg, exchanged, Laws.Named.bitsAt_eq_extract]
    rfl

/-! ### Reductions -/

/-- .min.i and .max.i of two words. -/
theorem reduce2_signed (a b : Word) : reduce2 1 a.toNat b.toNat = (if b.slt a then b else a).toNat ∧
    reduce2 2 a.toNat b.toNat = (if a.slt b then b else a).toNat := by
  simp only [reduce2, minMax, si32_toNat, apply_ite BitVec.toNat, BitVec.slt_iff_toInt_lt]
  exact ⟨rfl, rfl⟩

/-- .min.n and .max.n of two words. -/
theorem reduce2_unsigned (a b : Word) : reduce2 3 a.toNat b.toNat = (if b < a then b else a).toNat ∧
    reduce2 4 a.toNat b.toNat = (if a < b then b else a).toNat := by
  simp only [reduce2, apply_ite BitVec.toNat, BitVec.lt_def]
  constructor
  · split <;> omega
  · split <;> omega

/-- A reduction is a fold of its operation on words. -/
theorem reduceList_eq_foldl {op : ℕ} {g : Word → Word → Word} {x : Word} (hx : reduceId op = x.toNat)
    (hg : ∀ a b : Word, reduce2 op a.toNat b.toNat = (g a b).toNat) (xs : List Word) :
    BitVec.ofNat 32 (reduceList op (xs.map BitVec.toNat)) = xs.foldl g x := by
  have hfold : xs.foldl (fun a b => reduce2 op a b.toNat) x.toNat = (xs.foldl g x).toNat := List.foldl_hom BitVec.toNat hg
  rw [reduceList, List.foldl_map, hx, hfold, BitVec.ofNat_toNat, BitVec.setWidth_eq]

/-- The operations and their identities, on words (R123). -/
theorem reduceList_eq (op : ℕ) (xs : List Word) :
    BitVec.ofNat 32 (reduceList op (xs.map BitVec.toNat)) = Spec.reduction op xs := by
  unfold Spec.reduction
  split_ifs with h0 h1 h2 h3 h4 h5 h6
  · subst h0
    exact reduceList_eq_foldl (op := 0) (g := (· + ·)) rfl (fun a b => (BitVec.toNat_add a b).symm) xs
  · subst h1
    exact reduceList_eq_foldl rfl (fun a b => (reduce2_signed a b).1) xs
  · subst h2
    exact reduceList_eq_foldl rfl (fun a b => (reduce2_signed a b).2) xs
  · subst h3
    exact reduceList_eq_foldl rfl (fun a b => (reduce2_unsigned a b).1) xs
  · subst h4
    exact reduceList_eq_foldl rfl (fun a b => (reduce2_unsigned a b).2) xs
  · subst h5
    exact reduceList_eq_foldl (op := 5) (g := (· &&& ·)) rfl (fun a b => (BitVec.toNat_and a b).symm) xs
  · subst h6
    exact reduceList_eq_foldl (op := 6) (g := (· ||| ·)) rfl (fun a b => (BitVec.toNat_or a b).symm) xs
  · refine reduceList_eq_foldl ?_ (fun a b => ?_) xs
    · unfold reduceId
      split <;> simp_all
    · unfold reduce2
      split <;> simp_all

theorem map_rd32 (c : Cx) (o : Operand) (ls : List ℕ) :
    ls.map (fun j => c.rd32 o j) = (ls.map (fun j => c.rd o 0 j)).map BitVec.toNat := by
  rw [List.map_map]
  rfl

/-! ### Matches -/

/-- The value that MATCH compares in a lane (R125). -/
def matched (w : CForm) (c : Cx) (l : ℕ) : DWord := if w.mod.getLsbD 7 then c.rd64 w.a l else (c.rd w.a 0 l).zeroExtend 64

theorem toNat_matched (w : CForm) (c : Cx) (l : ℕ) :
    (if (if w.mod.getLsbD 7 then 64 else 32) = 64 then (c.rd64 w.a l).toNat else c.rd32 w.a l) = (matched w c l).toNat := by
  rw [matched]
  cases w.mod.getLsbD 7
  · exact (BitVec.toNat_setWidth_of_le (by norm_num)).symm
  · rfl

/-- All are kept when as many are kept as there are. -/
theorem decide_length_filter {α : Type*} (p : α → Bool) (xs : List α) :
    decide ((xs.filter p).length = xs.length) = xs.all p := by
  rw [Bool.eq_iff_iff, decide_eq_true_eq, List.length_filter_eq_length_iff, List.all_eq_true]

/-! ### Issues -/

theorem varExcAct_congr {r r' : Cx → Result} {xs xs' : Cx → List (ℕ × Num.Exc)} {c : Cx} (hr : r c = r' c) (hx : xs c = xs' c) :
    varExcAct r xs c = varExcAct r' xs' c := by
  simp only [varExcAct, hr, hx]

section
variable (s : State) (c : Cx) (w : CForm)

theorem issued_wred : Spec.Issued s (.wred w) c (Spec.wred w c) :=
  issued_of_act rfl rfl fun hw hc => by
    have hseg : bitsAt w.mod 4 3 ≤ 3 := of_decide_eq_true (shape_ok_of_wf hw rfl rfl).1
    rw [actWred, varExcAct_quiet rfl]
    simp only [segLanes_eq hc hseg, hc, CForm.fields, Cx.result32, map_rd32, reduceList_eq]
    rfl

theorem issued_wscan : Spec.Issued s (.wscan w) c (Spec.wscan w c) :=
  issued_of_act rfl rfl fun hw hc => by
    have hseg : bitsAt w.mod 4 3 ≤ 3 := of_decide_eq_true (shape_ok_of_wf hw rfl rfl).1
    rw [actWscan, varExcAct_quiet rfl]
    simp only [segLanes_eq hc hseg, hc, CForm.fields, Cx.result32, map_rd32, reduceList_eq,
      Laws.Named.bitsAt_eq_extract]
    rfl

theorem varExc_wfred : Spec.VarExc s (.wfred w) c (c.resultOf (fpBits w.fn) (Spec.wfred w c)) (Spec.wfredRaised w c) := by
  intro hi
  obtain ⟨hw, -⟩ := id hi
  obtain ⟨hseg, -⟩ : bitsAt w.mod 4 3 ≤ 3 ∧ bitsAt w.mod 0 3 ≤ 5 := of_decide_eq_true (shape_ok_of_wf hw rfl rfl).1
  refine varExc_of_act rfl rfl (fun hc => ?_) hi
  rw [actWfred, hc]
  refine varExcAct_congr ?_ ?_
  · simp only [segLanes_eq hc hseg, hc]
    rfl
  · simp only [segLanes_eq hc hseg]
    rfl

theorem issued_match : Spec.Issued s (.match w) c (Spec.matchR w c) :=
  issued_of_act rfl rfl fun hw hc => by
    have hseg : bitsAt w.mod 4 3 ≤ 3 := of_decide_eq_true (shape_ok_of_wf hw rfl rfl).1
    rw [actMatch, varExcAct_quiet (by dsimp only; split <;> rfl)]
    simp only [segLanes_eq hc hseg, hc, CForm.fields, toNat_matched, BitVec.toNat_inj, decide_length_filter,
      Bool.and_eq_true, decide_eq_true_eq, Laws.Named.bitsAt_eq_extract]
    rw [resultBits_pair c fun _ => rfl]
    simp only [apply_ite (BitVec.ofNat 64)]
    rfl

end

/-- Settles O33: the segments of each lane, and reductions of words in place of reductions of numbers. -/
theorem laneInstructions : Obligations.LaneInstructions := fun s c w =>
  ⟨issued_vote s c w, issued_shfl s c w, issued_wred s c w, issued_wscan s c w, issued_match s c w, varExc_wfred s c w⟩

end Sys2Proof.Machine
end
